-- ==== Sys2Proof/Word.lean ====
section
/-!
DEFINITION. The words of the device (00 R6, R7) and the sparse tables that hold
its large register files. Bit 0 is the least significant bit everywhere.
-/
namespace Sys2Proof

abbrev Byte := BitVec 8
abbrev W16 := BitVec 16
abbrev W32 := BitVec 32
abbrev W64 := BitVec 64

/-- Who writes a register or causes a log entry, in the encoding of 04 R130:
a core_id, or one of the agents below. -/
abbrev Source := BitVec 15

/-- A sparse table: keys rising, one value per key; an unlisted key holds the
table's default, which every reader names. -/
abbrev NMap (α : Type) := List (Nat × α)

end Sys2Proof
end

