-- ==== Sys2Proof/Syntax.lean ====
section
/-!
DEFINITION. The commands of the block: one constructor of `Instr` per row of
the spec's table of operations and events, with the operands that the event
brings from outside or that name the agent it happens to.
-/
namespace Sys2Proof

/-- What the ECC of the storage that a command reads reports (18 R525, R526):
upsets come from outside, so the command that meets one names it. -/
inductive Ecc where
  | clean | corrected | uncorrectable
  deriving DecidableEq, Repr

/-- The supply rails of 19 Table 19.2. -/
inductive Rail where
  | vinFab | vio18 | vpcieL | vpcieH | vmqL | vmqH | vhbmVpp | vhbmVdd | vhbmVddq
  deriving DecidableEq, Repr

/-- A block erase of the flash that has not completed (19 R565). -/
structure FlashErase where
  block : Nat
  suspended : Bool
  deriving DecidableEq, Repr

/-- The SPI NOR chip of the configuration store (19 R556). Unlisted bytes are
erased, 0xFF. -/
structure Flash where
  sfdp : Bool
  size : Nat
  bytes : NMap Byte
  erase : Option FlashErase
  deriving DecidableEq, Repr

/-- Where a host or sideband access to a register or port lands: a BAR0 or BAR4
offset (16 Table 16.2, R486), or a local address reached otherwise. -/
inductive RegTarget where
  | bar0 (offset : Nat)
  | bar4 (offset : Nat)
  | addr (a : Nat)
  deriving DecidableEq, Repr

/-- Who brings an operation to a semaphore: a core's oldest operation in flight
of that kind, or an access by address of `caller` with value `v` (13 R397,
R411). -/
inductive SemReq where
  | core (c : Nat)
  | direct (caller : Source) (sem : Nat) (v : W64)
  deriving DecidableEq, Repr

/-- Who issued a Depot command: a core, or host command slot `n` (14 R446). -/
inductive DxReq where
  | core (c : Nat)
  | slot (n : Nat)
  deriving DecidableEq, Repr

/-- What carries a signal (13 R408): a core's TMOVE, a DMA queue, or a packet
that arrived. -/
inductive CarryReq where
  | core (c : Nat)
  | queue (q : Nat)
  | packet
  deriving DecidableEq, Repr

/-- How many further element groups, interval steps, element groups and rows
the four long units complete before a prompt-mode entry stops them (06 R193). -/
structure Progress where
  vec : Nat
  mx : Nat
  cv : Nat
  mv : Nat
  deriving DecidableEq, Repr

/-- How the host answers a device read (16 R491). -/
inductive HostAnswer where
  | data (bytes : List Byte)
  | failed
  deriving DecidableEq, Repr

/-- Telemetry channels (15 Table 15.2). -/
inductive Channel where
  | regionCurrent (r : Nat)
  | regionVoltage (r : Nat)
  | junctionCurrent (j : Nat)
  | regionTemp (s : Nat)
  | hbmTemp (h : Nat)
  deriving DecidableEq, Repr

/-- The AtomicOps of 16 Table 16.1. -/
inductive AtomicOp where
  | fetchAdd | swap | cas
  deriving DecidableEq, Repr

/-- A Moriq codeword as its decoder leaves it (17 R507, R508): discarded, or
its control field and units, and whether errors were corrected. -/
inductive Codeword where
  | discarded
  | decoded (corrected : Bool) (ctl : BitVec 20) (units : List (List Byte))
  deriving DecidableEq, Repr

/-- The engines of 18 R531. -/
inductive Engine where
  | homeAgent | semaphore | depot
  deriving DecidableEq, Repr

/-- What the configuration patrol re-reads (18 R527). -/
inductive PatrolTarget where
  | frame (core minor : Nat)
  | route (port minor : Nat)
  deriving DecidableEq, Repr

/-- The commands; each constructor is the row named in its comment line group. -/
inductive Instr where
  -- power, reset and timebase
  | perstNRise (bootsel pwrceil : BitVec 2) (refclk : Bool) (store : Option Flash)
  | perstNAssert
  | railInRange (rail : Rail) (smbaddr : BitVec 2)
  | railOutOfRange (rail : Rail)
  | timebaseTick (n : Nat)
  | refLost
  | refclkLock
  | refLostClear
  | hbmReady
  | hbmTrainTimeout (failed : BitVec 8)
  -- store, window and image commands
  | bootStoreScan
  | winProducedWrite (words : W32)
  | go
  | abort
  | sync
  | nop
  | declare
  | admission
  | writeCfg
  | setFar
  | writeFrames
  | bcastFrames
  | frameApply
  | bcastFrameApply
  | park
  | regionParked (r : Nat) (prog : List (Nat × Progress))
  | isolate
  | checkEnd
  | waitRightAway
  | raRelease
  | rightAwayRise
  | rightAwayFall
  | raQualified
  | rightAwayTimeout
  | raLowEvent
  | start
  | unisolate
  | loadEnd
  -- region control
  | rgnCtrlPark (r : Nat) (src : Source)
  | run (r : Nat) (src : Source)
  | reset (r : Nat) (src : Source)
  | clearRed (r : Nat) (src : Source)
  | rgnHoldClear (r : Nat) (park reset : Bool) (src : Source)
  -- registers
  | registerWrite (src : Source) (t : RegTarget) (size : Nat) (v : W64)
  -- cores
  | bundleExecute (c : Nat) (stale : Bool) (ecc frame : Ecc)
  | scalarOpComplete (c unit : Nat)
  | memoryResponse (c id : Nat) (host : List Byte) (ecc : Ecc)
  | storeAccepted (c id : Nat) (ecc : Ecc)
  | fenceComplete (c : Nat)
  | guestAck (c : Nat)
  | guestTimeout (c : Nat)
  | guestLogicInterrupt (c : Nat)
  | cpTimerCmpWrite (c : Nat) (v : W64)
  | coreTimer (c : Nat)
  | interruptEntry (c : Nat) (prog : Progress)
  | exceptionEntry (c : Nat)
  | convertComplete (c : Nat)
  | vectorOpComplete (c : Nat)
  | intervalStep (c : Nat) (ecc : Ecc)
  | trainHeader (c : Nat)
  | matrixOpComplete (c : Nat) (ecc : Ecc)
  | tmoveComplete (c : Nat)
  -- yards, caches, windows and coherence
  | remoteYardAccess (c id : Nat) (ecc : Ecc)
  | sliceAccess (c id : Nat) (ecc : Ecc)
  | sidingIssue (slice : Nat)
  | sidingRetire (i : Nat)
  | awRangeWrite (n : Nat) (v : W64) (src : Source)
  | awAttrWrite (n : Nat) (v : W64) (src : Source)
  | homeRequest (i : Nat)
  | forwardedRequest (i : Nat)
  | probe (i : Nat)
  | probeResponse (i : Nat)
  | lineGrant (i : Nat)
  | tabletHoldEnd (slice line : Nat)
  | writebackArrival (i : Nat)
  | farAtomic (agent : Nat)
  | coPredClear (src : Source)
  -- semaphores
  | signal (q : SemReq)
  | wait (q : SemReq)
  | trywait (q : SemReq)
  | claim (q : SemReq)
  | release (q : SemReq)
  | read (q : SemReq)
  | revive (q : SemReq)
  | init (q : SemReq)
  | waitDeadline (sem : Nat)
  | carriedSignal (q : CarryReq)
  | semaphoreResult (c id : Nat)
  -- Depot
  | lookup (q : DxReq)
  | lookupBlock (q : DxReq)
  | insert (q : DxReq)
  | pin (q : DxReq)
  | depotRelease (q : DxReq)
  | ageScan (q : DxReq)
  | depotAsyncComplete (c : Nat)
  | depotSlotTrigger (slot port : Nat) (v : W64)
  -- signal box and telemetry
  | epoch
  | brakeReevaluate (r : Nat)
  | telemetrySample (ch : Channel) (stamp : W64) (value : Int)
  | picture
  | pwrCapNAssert (lowNs : Nat)
  | pwrCapNRelease
  | sbBoardCeilWrite (src : Source) (v : W64)
  | thermtripClear
  -- host interface and DMA
  | configRequest (offset size : Nat) (write : Option W32)
  | bar2Read (offset len : Nat) (ecc : Ecc)
  | bar2Write (offset : Nat) (bytes : List Byte) (ecc : Ecc)
  | bar2AtomicOp (op : AtomicOp) (offset size : Nat) (operand compare : W64) (ecc : Ecc)
  | hostReadFailure (c id : Nat)
  | hiCoreDbWrite (v : W64)
  | functionLevelReset
  | msixUnmask (vector : Nat)
  | hiQTailWrite (q : Nat) (v : W32) (src : Source)
  | queueEnableWrite (q : Nat) (enable : Bool)
  | queueReset (q : Nat)
  | dmaDescriptorStart (q : Nat) (ring : HostAnswer) (ecc : Ecc)
  | dmaDescriptorComplete (q : Nat) (host : HostAnswer) (ecc : Ecc)
  -- Moriq
  | codewordReceive (p : Nat) (cw : Codeword)
  | markerCodeword (p : Nat)
  | packetSend (p vc : Nat)
  | packetReceive (p : Nat)
  | linkControl (p : Nat)
  | replayTimeout (p : Nat)
  | remoteRequest (ecc : Ecc)
  | respTimeout (i : Nat)
  | trainingComplete (p peerPkg peerPort : Nat)
  | portFail (p : Nat)
  | mlPortEnableWrite (p : Nat) (enable : Bool) (src : Source)
  | retrain (p : Nat) (src : Source)
  | timebaseExchange (t1 t2 t3 t4 : W64) (parentSynced : Bool)
  -- faults
  | configPatrol (t : PatrolTarget) (ecc : Ecc)
  | hbmScrub (line : Nat) (ecc : Ecc)
  | engineRecovered (e : Engine) (unit : Nat) (ecc : Ecc)
  | ecHeadWrite (v : W32)
  -- SMBus
  | smbusReady
  | identity
  | status
  | alertRead
  | alertWrite (v : W16) (pecOk : Bool)
  | alertResponse
  | boardCeilRead
  | boardCeilWrite (v : W16) (pecOk : Bool)
  | power
  | temps
  | regAddr (v : W32) (pecOk : Bool)
  | regDataRead
  | regDataWrite (v : W64) (pecOk : Bool)
  -- flash engine
  | flashRead (src : Source)
  | program (src : Source) (len : BitVec 9)
  | slotErase (src : Source) (slot : Bool)
  | eraseBlockDone
  | commit (src : Source) (slot : Bool)
  | rescan (src : Source)
  -- UART, JTAG, pins
  | uartDataWrite (u : Nat) (b : Byte)
  | uartTxByte (u : Nat)
  | uartRxByte (u : Nat) (b : Byte)
  | extest
  | idcode
  | samplePreload (pins : BitVec 37) (preload : Option (BitVec 37))
  | clamp
  | highz
  | bypass (code : BitVec 5)
  | gpioFuncWrite (p : Nat) (func : BitVec 3) (src : Source)
  | gpioParkEnd (p : Nat) (level : Bool)
  | tpoEdge (n : Nat)
  | extEdge (p : Nat)
  | pmbusPoll (b : Nat) (answer : Option W64)
  | registerRead (src : Source) (t : RegTarget) (size : Nat)
  | pcieLinkUp (speed : BitVec 4) (width : BitVec 5) (flit : Bool)
  | flashCommandDone
  | resumedEraseTimeout
  deriving DecidableEq, Repr

end Sys2Proof
end

