-- ==== Sys2Proof/Decode.lean ====
section
/-!
DEFINITION. The command table gives no row any bits, so no word spells a
command: commands reach the block by its queue alone.
-/
namespace Sys2Proof

/-- No row of the table has an encoding: no word decodes. -/
def decodeTableWord (_nbits _w : Nat) : Option Instr := none

end Sys2Proof
end

