-- ==== Sys2Proof/Config.lean ====
section
/-!
DEFINITION. What one part fixes, and the values the spec leaves free. A free
value is opaque: nothing can be proved of it, so a statement that mentions it
holds whatever the hardware does.
-/
namespace Sys2Proof.Config

/-- ID_SERIAL, fused per part (01 Table 1.6). -/
opaque serial : W64

/-- Byte `addr` of HBM or of a yard that nothing has written since the contents
became undefined for the `epoch`-th time (04 R580, 19 R547). -/
opaque freshByte (epoch addr : Nat) : Byte

/-- Whether the aligned 64-bit word at `addr`, not yet written whole, reports an
uncorrectable error when read: 04 R580 lets it. -/
opaque freshWordBad (epoch addr : Nat) : Bool

/-- Output of a guest element that lies on, or depends on, a loop of MODE 0
elements (05 R172); `n` counts the evaluations. -/
opaque guestLoop (n element : Nat) : Bool

/-- Interface signal of a core's guest block while no handshake presents it (05 R165,
R170), after `edge` edges of REQ since START: the same on every run (02 R63). -/
opaque guestIdle (edge signal : Nat) : Bool

/-- Which of the outcomes that 19 R547 allows comes about at the `n`-th rail loss. -/
opaque railStops (n : Nat) : Bool
opaque railChangesContents (n : Nat) : Bool
opaque railCutsStore (n : Nat) : Bool

/-- Whether a low of 50 to 100 ns on PWR_CAP_N acts (15 R464). -/
opaque capActs (n : Nat) : Bool

/-- Bytes of a DMA destination past BYTES_DONE of a descriptor that did not end
OK are each written or not (16 R503). -/
opaque dmaTail (n byte : Nat) : Bool

/-- Which of the results that the accuracy bounds of 09 Table 9.1 allow a
function gives: function number, format code, operand bits. Equal inputs give
equal results (09 R275). -/
opaque fnPick (fn fmt x : Nat) : Nat

/-- Whether a fused multiply-add of 0 × infinity to a quiet NaN sets INVALID, which
IEEE 754 leaves to the implementation (07 R219). -/
opaque fmaNanInvalid : Bool

/-- Element width that VX_VL, VX_ESEL and VX_ELEM take under a format code that 08
Table 8.1 gives no width. -/
opaque vecWidth (code : Nat) : Nat

/-- |x| and −x of the least INT8 or INT32, which 08 Table 8.3 states no result for:
port and width. -/
opaque vecEdge (port w : Nat) : Nat

/-- Mask bit and random bits of a conversion's element 1,024 and up, by the mask register
and by the state of lane `element` modulo 1,024: a mask register has 1,024 bits, and there
are 1,024 lane generators (07 R229, 08 R243). The same on every run (02 R63, R64). -/
opaque maskBeyond (mask : BitVec 1024) (element : Nat) : Bool
opaque laneBeyond (lane : W32) (element : Nat) : Nat

/-- CV_SCALE_RES for the reserved format code 0xF (07 R239). -/
opaque scaleReserved (a : W64) : W64

/-- Operation that a Moriq packet's OP byte names; 17 Table 17.2 gives OP no
codes. -/
opaque moriqOp (op : Byte) : Nat

/-- The OP byte the device puts into a packet for an operation. -/
opaque moriqCode (kind : Nat) : Byte

/-- COUNT that the REVIVE of a START leaves on a semaphore, by its number and its COUNT
before: 04 R126 names no value. -/
opaque reviveCount (sem : Nat) (old : W32) : W32

/-- Address recorded for a dropped doorbell to `v`: 16 R493 names none. -/
opaque doorbellAddr (v : Nat) : BitVec 56

/-- Bit 0 of the byte that answers the Alert Response Address: SMBus gives it no
meaning. -/
opaque araBit : Bool

/-- Doubleword of PCI configuration space at which a capability structure begins: 0 power
management, 1 PCI Express, 2 MSI-X. No chapter places them. -/
opaque capAt (cap : Nat) : Nat

/-- A doubleword of PCI configuration space that no chapter gives a content, by its index
and what was written to it. -/
opaque pciOther (index : Nat) (written : W32) : W32

/-- Which of the candidates is taken where arbitration decides (02 R65) and no
command names one. -/
opaque arbiter (n : Nat) : Nat

/-- Whether a fused value that falls between two steps of its register's
resolution reads as the upper one: 15 R470-R477 state no rounding. -/
opaque fuseUp (num : Int) (den : Nat) : Bool

/-- Whether the last samples of a current channel that reports no longer are too old at a
picture, by its instant and the last stamp: 15 gives no age (corner case of R471). -/
opaque tooOld (p last : Nat) : Bool

/-- What a field of a power or telemetry register holds for a value too wide for it: 15 gives
no reading above the field. -/
opaque overField (width value : Nat) : Nat

/-- VCORE of a region while its setpoint falls: 15 R461 bounds the slew only. -/
opaque vcore (n : Nat) : Nat

end Sys2Proof.Config
end

