-- ==== Sys2Proof/Machine/State.lean ====
section
/-!
DEFINITION. The state of the Torvant T20: every register, buffer, queue and pin
that the spec names, as plain data, and the state right after reset. Large
arrays are sparse tables; what an unlisted entry holds is named by the `reset`
value of the entry's type.
-/
namespace Sys2Proof.Machine

/-- Why the machine stops.
`noSuchUnit`: raised by the meaning of a command that names a core, region,
port, queue, slot, vector or other unit beyond those the package has (01 R47),
or whose operands `Instr.WellFormed` refuses. Safe: no such event exists. -/
inductive Fault where
  | noSuchUnit
  deriving DecidableEq, Repr

/-- Why a command has no meaning.
`notModelled`: raised only by an arm of the dispatch whose row has no meaning
yet. Safe: nothing can be proved of such a command. -/
inductive Refusal where
  | notModelled (mnemonic : String)
  deriving DecidableEq, Repr

/-! ## Memory -/

/-- HBM and the yards, keyed by local address. `cells` lists written bytes,
keys rising; `zero` lists cleared ranges [lo, hi), rising and not touching,
whose unlisted bytes read 0. A byte in neither has no value (04 R580). -/
structure Memory where
  cells : NMap Byte := []
  zero : List (Nat × Nat) := []
  deriving DecidableEq, Repr

/-! ## Power, timebase, RIGHT_AWAY -/

inductive HbmState where
  | training | ready | failed
  deriving DecidableEq, Repr

/-- Rails, straps and the device's own clock of elapsed nanoseconds. -/
structure Power where
  rails : List Rail := [.vinFab, .vio18, .vpcieL, .vpcieH, .vmqL, .vmqH, .vhbmVpp, .vhbmVdd, .vhbmVddq]
  perst : Bool := true
  bootsel : BitVec 2 := 1
  pwrceil : BitVec 2 := 0
  smbAddr : BitVec 2 := 0
  hbm : HbmState := .training
  hbmBad : BitVec 8 := 0
  smbReady : Bool := false
  now : Nat := 0
  capLow : Bool := false
  tripOut : Bool := false
  deriving DecidableEq, Repr

/-- TB_NOW and TB_STATUS (02 Tables 2.5, 2.6), and the state of the exchange
with the parent (17 R524). -/
structure Timebase where
  now : W64 := 0
  locked : Bool := false
  refLost : Bool := false
  synced : Bool := false
  stepped : Bool := false
  good : Nat := 0
  deriving DecidableEq, Repr

/-- CC_RA and CC_RA_LAST (04 Table 4.7) and what the protocol measures
(R113, R114, R117), on the clock `Power.now`. -/
structure RightAway where
  driving : Bool := true
  otherLow : Bool := false
  lowEvents : W32 := 0
  last : W64 := 0
  highSince : Option Nat := none
  lowSince : Option Nat := none
  lowTb : W64 := 0
  lowCounted : Bool := false
  deadline : Option Nat := none
  watching : Bool := false
  deriving DecidableEq, Repr

/-! ## Images -/

/-- A region's declaration (03 Table 3.2), with the namespace value that
NS_INDEX names when DEPOT_QUOTA is nonzero (14 R427). -/
structure Decl where
  row0 : Nat
  col0 : Nat
  rows : Nat
  cols : Nat
  semFirst : Nat
  semCount : Nat
  ns : Option W64
  quota : Nat
  weight : Nat
  cls : Nat
  floor : Nat
  windows : W64
  intMode : W32
  clearYard : Bool
  entry : Nat
  deriving DecidableEq, Repr

/-- Parts of an image, in order (03 R70, R71). -/
inductive LoadPart where
  | header | declares | junction | parks | isolates | fabric | checked | starts | unisolates
  deriving DecidableEq, Repr

/-- The load in progress. `pos` counts the words of the commands taken, and `buf` holds
the words that the controller has consumed of the command that is not whole yet. -/
structure Load where
  full : Bool := false
  ns : List W64 := []
  raTimeout : W32 := 0
  length : Nat := 0
  pos : Nat := 0
  buf : List W32 := []
  crc : W32 := 0xFFFF_FFFF
  part : LoadPart := .header
  decls : List (Nat × Decl) := []
  admitted : Bool := false
  far : Option Nat := none
  farPast : Bool := false
  lastFars : NMap Nat := []
  framesLeft : Nat := 0
  bcast : Option (Nat × Nat) := none
  parked : List Nat := []
  isolated : List Nat := []
  started : List Nat := []
  unisolated : List Nat := []
  deriving DecidableEq, Repr

/-- The boot ROM's progress (19 R565, 04 R584). -/
inductive BootPhase where
  | idle | waitErase | scanned
  deriving DecidableEq, Repr

/-- Configuration controller (03 Tables 3.6-3.9, 04 Tables 4.6, 4.7) and SD_BOOT. -/
structure Controller where
  state : BitVec 4 := 0
  reason : BitVec 8 := 0
  wordOffset : W32 := 0
  frames : W32 := 0
  lastFar : BitVec 23 := 0
  crcExpected : W32 := 0
  crcComputed : W32 := 0
  rejected : W32 := 0
  source : BitVec 2 := 0
  produced : W32 := 0
  consumed : W32 := 0
  refShortfall : W32 := 0
  refRegion : BitVec 8 := 0
  refCode : BitVec 8 := 0
  rwpIgnored : W32 := 0
  ring : NMap W32 := []
  load : Option Load := none
  boot : BootPhase := .idle
  bootHold : Bool := false
  tried : BitVec 2 := 0
  reason1 : BitVec 8 := 0
  reason2 : BitVec 8 := 0
  deriving DecidableEq, Repr

/-! ## Regions -/

/-- RGN_STATE.STATE (04 Table 4.10). -/
inductive RegionSt where
  | unloaded | running | parked | parkedIsolated | writing | startedIsolated | red
  deriving DecidableEq, Repr

/-- One region: RGN_CTRL, RGN_HOLD, RGN_STATE (04), RGN_STATUS, RGN_POWER (15). -/
structure Region where
  st : RegionSt := .unloaded
  parking : Bool := false
  thenIsolate : Bool := false
  hasRun : Bool := false
  parkHold : Bool := false
  resetHold : Bool := false
  parkSrc : BitVec 2 := 0
  startHeld : Bool := false
  unisoHeld : Bool := false
  ignored : W32 := 0
  lastWriter : Source := 0
  decl : Option Decl := none
  vtarget : BitVec 10 := 750
  vtUse : BitVec 10 := 750
  vtWrites : List (W64 × BitVec 10) := []
  hostBrake : BitVec 4 := 0
  pwWriter : Source := 0
  stEpoch : BitVec 12 := 0
  refused : Bool := false
  vset : BitVec 10 := 750
  brake : BitVec 4 := 0
  why : BitVec 4 := 8
  cls : BitVec 2 := 0
  floor : Nat := 0
  weight : Nat := 1
  grant : BitVec 12 := 0
  request : BitVec 12 := 0
  epochBrake : BitVec 4 := 0
  capBrake : BitVec 4 := 0
  parkedBudget : Bool := false
  parkedTrip : Bool := false
  floorShort : Bool := false
  capped : Bool := false
  applied : List (W64 × BitVec 10 × BitVec 4) := []
  vSince : W64 := 0
  vLow : BitVec 10 := 750
  vHigh : BitVec 10 := 750
  hotAt : Int := 0
  deriving DecidableEq, Repr

/-! ## Cores -/

/-- A control port of access RWS (00 Table 0.3): the value in force and the
pending one. -/
structure Rws where
  cur : W64
  pend : Option W64 := none
  deriving DecidableEq, Repr

/-- How far an operation in flight has come. `queued` is a WAIT in its queue, or a vector
access that awaits its mask. -/
inductive OpStage where
  | running
  | queued
  | served
  deriving DecidableEq, Repr

/-- A signal to be carried (13 R408, R409); for a core, the number of its CARRY and
those that the TMOVE that carries it has had. -/
structure Carry where
  sem : W64
  n : W64
  samePath : Bool
  op : Nat := 0
  moves : List Nat := []
  deriving DecidableEq, Repr

/-- A LOOKUP walk in progress (14 R432): the prompt's tokens and its blocks' digests. -/
structure DxWalk where
  toks : List W32
  digests : List W64
  next : Nat := 0
  stopped : Bool := false
  hits : Nat := 0
  tokens : Nat := 0
  status : Nat := 0
  deriving DecidableEq, Repr

/-- An operation in flight or in a suspend slot (05 R149): the trigger port,
the bundle that fired it, the trigger value, the captured operand ports (R150)
and its progress. `limit` is the first element or row that must not be done
because its address faults (08 R263). A matrix operation holds its descriptors in `desc`
and the own-yard ranges [first, end) that it touches in `spans`. `held` keeps the source and the
scale register of a conversion that has begun and was stopped. -/
structure Op where
  id : Nat
  port : Nat
  bundle : Nat
  b : W64
  cap : NMap W64 := []
  stage : OpStage := .running
  index : Nat := 0
  pos : Nat := 0
  pass : Nat := 0
  leaves : List (Option W64) := []
  buf : NMap (Option Byte) := []
  limit : Option Nat := none
  res : W64 := 0
  res2 : W64 := 0
  carry : Option Carry := none
  desc : List (List W64) := []
  spans : List (Nat × Nat) := []
  occ : Nat := 0
  fold : Bool := false
  hdr : Bool := false
  walk : Option DxWalk := none
  held : Option (BitVec 8192 × BitVec 8192) := none
  deriving DecidableEq, Repr

/-- What one memory access does. `fence` holds the port of Table 5.8. -/
inductive AccKind where
  | load
  | store
  | atomic (port : Nat)
  | clean | flush | prefetch | invalL1 | invalL1All
  | fence (port : Nat)
  deriving DecidableEq, Repr

/-- `issued`: not performed. `atSlice`: accepted by its die-cache slice, where
it waits. `sent`: at its home agent or another package. `served`: a load has its
value, a store is visible. -/
inductive AccStage where
  | issued | atSlice | sent | served
  deriving DecidableEq, Repr

/-- How an access was answered. -/
inductive RespStatus where
  | ok | isolated | noRoute | unmapped | hostError | poisoned
  deriving DecidableEq, Repr

/-- One access of a core, in program order (12 R382). `bytes` marks the bytes
it touches and holds store data; `got` holds what a load returned. `accepted` says
that the core counts a store as accepted (05 R149). -/
structure Access where
  id : Nat
  op : Nat
  kind : AccKind
  addr : Nat
  bytes : List (Option Byte) := []
  b : W64 := 0
  c : W64 := 0
  stage : AccStage := .issued
  status : RespStatus := .ok
  got : List (Option Byte) := []
  accepted : Bool := false
  attr : Option (BitVec 8) := none
  deriving DecidableEq, Repr

/-- An exception due at the next boundary (06 R203). `resume` is the faulting
bundle, or none for the first bundle not begun. `waitOp` must leave flight
first. `filled` marks the suspend slots its event filled: vector, matrix, mover,
conversion in bits 0-3. -/
structure Due where
  code : Nat
  resume : Option Nat := none
  addr : Nat := 0
  slot : Nat := 0
  waitOp : Option Nat := none
  filled : BitVec 4 := 0
  origOnly : Bool := false
  deriving DecidableEq, Repr

/-- A guest handshake in progress (05 R165, R167): the bundle, the moves still
to come (slot, port, value for a write), the results read. -/
structure Guest where
  bundle : BitVec 128
  moves : List (Nat × Nat × Option W64)
  results : List (Nat × W64) := []
  req : Bool := true
  since : Nat := 0
  deriving DecidableEq, Repr

/-- What travels down a train link (10 R318): the header of the stream of operand A
or B, or the values of one interval step of it, with their scale bytes. -/
inductive TrainItem where
  | header (isB : Bool) (rows cols fmt lrows lcols : Nat)
  | step (isB : Bool) (values : List (List Nat)) (scales : List Nat) (bytes : Nat)
  deriving DecidableEq, Repr

/-- One L1 line (11 R336). -/
structure L1Line where
  line : Nat
  data : List (Option Byte)
  deriving DecidableEq, Repr

/-- One core. While a bundle waits, `ctl` holds by slot the control-port values read
when it began. `parkFilled` marks the suspend slots that the last PARK filled, with bits
as `Due.filled` has them. -/
structure Core where
  gpr : NMap W64 := []
  preds : BitVec 8 := 0
  pc : BitVec 11 := 0
  ports : NMap W64 := []
  cfg : NMap W32 := []
  cfgBad : List Nat := []
  ahead : List (Nat × BitVec 128) := []
  pennant : BitVec 10 := 0
  excEnable : Rws := { cur := 0 }
  roundDefault : Rws := { cur := 0xC00 }
  seedBase : Rws := { cur := 0 }
  vectorBase : Rws := { cur := 0 }
  stackBase : Rws
  stackTop : Rws
  intMode : Rws := { cur := 0 }
  guestTimeout : Rws := { cur := 1000 }
  l1Enable : Rws := { cur := 1 }
  intEnable : W32 := 0
  intPriority : W64 := 0
  intPending : W32 := 0
  timerCmp : W64 := 0xFFFF_FFFF_FFFF_FFFF
  guestTimeouts : W32 := 0
  isIndex : BitVec 11 := 0
  isLo : W64 := 0
  train : W32 := 0
  perfBundles : W64 := 0
  perfWaits : W64 := 0
  level : Option Nat := none
  shadow : Bool := false
  active : Bool := false
  stopped : Bool := false
  waiti : Bool := false
  due : List Due := []
  waiting : Bool := false
  ctl : NMap W64 := []
  ops : List Op := []
  accs : List Access := []
  nextId : Nat := 1
  portLast : NMap Nat := []
  slotVec : Option Op := none
  slotCv : Option Op := none
  slotMx : Option Op := none
  slotMv : Option Op := none
  parkFilled : BitVec 4 := 0
  guest : Option Guest := none
  guestEdges : Nat := 0
  latches : NMap Bool := []
  l1 : NMap L1Line := []
  l1ptr : NMap Nat := []
  vreg : NMap (BitVec 8192) := []
  mreg : NMap (BitVec 1024) := []
  lanes : NMap W32 := []
  laneSeed : W32 := 0
  amax : NMap W64 := []
  nanSeen : BitVec 4 := 0
  laneIndex : BitVec 10 := 0
  tiles : NMap W64 := []
  trainMismatch : Bool := false
  trainIn : List TrainItem := []
  trainSkip : BitVec 2 := 0
  carry : Option Carry := none
  carriedDue : List Carry := []
  deriving DecidableEq, Repr

/-- Local address of byte 0 of core `c`'s yard (01 Table 1.2). -/
def yardBase (c : Nat) : Nat := 0x0800_0000_0000 + c * 0x4_0000

/-- Core `c` after reset (05 Table 5.9), on package `pkg`. -/
def Core.reset (pkg c : Nat) : Core :=
  { stackBase := { cur := BitVec.ofNat 64 (pkg * 2 ^ 45 + yardBase c) }
    stackTop := { cur := BitVec.ofNat 64 (pkg * 2 ^ 45 + yardBase c + 0x1_FF00) } }

/-! ## Caches and coherence -/

/-- One attribute window, or AW_DEFAULT (11 Tables 11.4-11.6). -/
structure Window where
  enable : Bool := false
  limit : BitVec 18 := 0
  base : BitVec 18 := 0
  attr : BitVec 8 := 4
  ignored : W32 := 0
  lastWriter : Source := 0
  deriving DecidableEq, Repr

/-- Line states (12 Table 12.1); Invalid is the absence of a line. -/
inductive LineSt where
  | S | E | O | M
  deriving DecidableEq, Repr

/-- A die-cache line in its way (11 R342). `holdEnd` is the instant its tablet
hold ends (12 R377). `predicted` and `probed` say that a predicted near atomic
won it and that a probe has met the hold (12 R375). -/
structure Line where
  line : Nat
  st : LineSt
  age : Nat
  data : List (Option Byte)
  poison : Bool := false
  holdEnd : Option Nat := none
  predicted : Nat := 0
  probed : Bool := false
  deriving DecidableEq, Repr

/-- A siding entry (11 R347, R348). One in flight is `stale` once a later store to its line
is visible (12 R385). -/
structure Siding where
  line : Nat
  st : LineSt
  data : List (Option Byte)
  poison : Bool := false
  issued : Bool := false
  stale : Bool := false
  deriving DecidableEq, Repr

/-- What a request asks of a home agent. -/
inductive HKind where
  | readFill       -- load miss, or PREFETCH, that fills
  | ownFill        -- store or near atomic that needs the line in M
  | readBypass     -- load served by the home agent without a fill
  | writeBypass    -- store sent to the home agent, no copy kept
  | writeThrough   -- store sent to the home agent, the die's clean copy kept
  | farAtomic
  deriving DecidableEq, Repr

/-- A request to a home agent: its core's access, its slice and its progress. `age3`,
`l1` and `ro` are what its window says of the fill, `order` is ORDER when it arrived.
`seq` is its place among the requests that were begun; `need` lists the slices still to
answer. -/
structure HReq where
  id : Nat
  agent : Nat
  line : Nat
  slice : Nat
  core : Nat
  acc : Nat
  kind : HKind
  age3 : Bool := false
  l1 : Bool := false
  ro : Bool := false
  order : Bool := false
  predicted : Bool := false
  started : Bool := false
  seq : Nat := 0
  need : List Nat := []
  data : Option (List (Option Byte)) := none
  dirty : Bool := false
  poison : Bool := false
  deriving DecidableEq, Repr

/-- What a probe does to a die's copy (12 Table 12.2): another die reads the line and keeps a
copy, or takes it away; a read past the die caches takes the data of another die's copy, or of
its own die's. -/
inductive ProbeMode where
  | share | remove | read | look
  deriving DecidableEq, Repr

/-- A probe on its way to a slice, or waiting there (12 R378). -/
structure Probe where
  req : Nat
  agent : Nat
  line : Nat
  slice : Nat
  mode : ProbeMode
  seq : Nat := 0
  arrived : Bool := false
  deriving DecidableEq, Repr

/-- A probe's answer on its way to the home agent; `left` is the state that the die keeps
the line in. -/
structure Resp where
  req : Nat
  agent : Nat
  line : Nat
  slice : Nat
  left : Option LineSt
  data : Option (List (Option Byte))
  dirty : Bool
  poison : Bool
  deriving DecidableEq, Repr

/-- A granted line, or the data of an access served at home, on its way. -/
structure Grant where
  req : Nat
  line : Nat
  slice : Nat
  core : Nat
  acc : Nat
  kind : HKind
  st : LineSt
  data : List (Option Byte)
  poison : Bool
  age3 : Bool
  predicted : Bool := false
  l1 : Bool := false
  deriving DecidableEq, Repr

/-- A writeback (with data) or a release notice on its way home. -/
structure Wb where
  slice : Nat
  line : Nat
  agent : Nat
  data : Option (List (Option Byte))
  poison : Bool
  deriving DecidableEq, Repr

/-- A request that the home forwarded to the owning die (12 R370). -/
structure Fwd where
  req : HReq
  owner : Nat
  arrived : Bool := false
  deriving DecidableEq, Repr

structure Coherence where
  windows : NMap Window := []
  hold : BitVec 8 := 40
  holdWriter : Source := 0
  predWriter : Source := 0
  pred : NMap (BitVec 2) := []
  lines : NMap Line := []
  siding : NMap (List Siding) := []
  delayed : NMap W32 := []
  delayedBy : List (Nat × Nat) := []
  merged : NMap W32 := []
  peak : NMap (BitVec 6) := []
  predNear : NMap W32 := []
  predFar : NMap W32 := []
  holdProbes : NMap W32 := []
  farAtomics : NMap W32 := []
  probesSent : NMap W32 := []
  queuePeak : NMap (BitVec 10) := []
  dir : NMap (List (Nat × LineSt)) := []
  net : List HReq := []
  queue : NMap (List HReq) := []
  probes : List Probe := []
  resps : List Resp := []
  grants : List Grant := []
  wbs : List Wb := []
  acks : List (Nat × Nat) := []
  fwds : List Fwd := []
  nextReq : Nat := 1
  stalled : List Nat := []
  deriving DecidableEq, Repr

/-! ## Semaphores -/

inductive SemSt where
  | free | owned | abandoned
  deriving DecidableEq, Repr

/-- A queued WAIT (13 R399): its caller, the caller's operation, and for an
asynchronous wait the tag. -/
structure Waiter where
  caller : Source
  op : Nat
  n : Nat
  deadline : W64
  tag : Option Nat := none
  pkg : Option Nat := none
  deriving DecidableEq, Repr

/-- A semaphore block (13 Table 13.1). An owner of another package is `ownerPkg`'s. -/
structure Sem where
  count : W32 := 0
  owner : Source := 0
  ownerPkg : Option Nat := none
  st : SemSt := .free
  level : W32 := 0
  vector : BitVec 11 := 0
  msixEn : Bool := false
  flagEn : Bool := false
  onAbandon : Bool := false
  flagAddr : W64 := 0
  lastSignaller : Source := 0
  seq : W16 := 0
  hostRes : W64 := 0
  queue : List Waiter := []
  deriving DecidableEq, Repr

/-- SM_DIE_STATUS (13 Table 13.8); IN_USE is the number of waiters queued. -/
structure SemDie where
  fullRefused : W32 := 0
  peak : BitVec 15 := 0
  deriving DecidableEq, Repr

/-! ## Depot -/

/-- A host command slot (14 R446). `cmd` is the trigger port and value of the
command that keeps the slot PENDING, `src` who issued it. -/
structure DxSlot where
  ports : NMap W64 := []
  cmd : Option (Nat × W64) := none
  src : Source := 0
  cap : NMap W64 := []
  walk : Option DxWalk := none
  deriving DecidableEq, Repr

/-- `order` lists the slots that are PENDING in the order of their triggers (14 R431). -/
structure Depot where
  base : NMap (BitVec 22) := []
  trailer : BitVec 26 := 0
  slotRejected : W16 := 0
  full : W16 := 0
  quota : W16 := 0
  collisions : W16 := 0
  ns : NMap W64 := []
  slots : NMap DxSlot := []
  order : List Nat := []
  deriving DecidableEq, Repr

/-! ## Signal box and telemetry -/

/-- Values of SB_HOST_CEIL, SB_CFG and SB_CFG2 that the epochs use (15 R463). -/
structure SbForce where
  hostCeil : BitVec 12 := 3000
  hotStep : BitVec 8 := 8
  trip : BitVec 8 := 115
  capBrake : BitVec 4 := 8
  jres : BitVec 12 := 400
  margin : BitVec 8 := 2
  deriving DecidableEq, Repr

structure SignalBox where
  boardCeil : BitVec 12 := 3000
  boardWriter : Source := 0
  reg : SbForce := {}
  hostWriter : Source := 0
  cfgWriter : Source := 0
  cfg2Writer : Source := 0
  force : SbForce := {}
  writes : List (W64 × SbForce) := []
  ignored : W16 := 0
  thermtrip : Bool := false
  capActive : Bool := false
  floorShort : Bool := false
  burst : Bool := false
  budget : BitVec 12 := 0
  epoch : W64 := 0
  junction : BitVec 12 := 0
  vin : W16 := 0
  meanW : W16 := 0
  powers : List Nat := []
  deriving DecidableEq, Repr

/-- TF_PLACE (15 Table 15.6). -/
structure Place where
  mirror : Bool := false
  rot : BitVec 2 := 0
  y0 : BitVec 17 := 0
  x0 : BitVec 17 := 0
  deriving DecidableEq, Repr

/-- TF_CELL; OWNER and OWNER_VALID follow from the placements (15 R478). -/
structure Cell where
  temp : W16 := 0
  noData : Bool := true
  limit : BitVec 8 := 100
  deriving DecidableEq, Repr

/-- TF_SENSOR, and TF_CUR with its VIN. -/
structure Fused where
  value : W16 := 0
  vin : W16 := 0
  stale : Bool := false
  missing : Bool := false
  deriving DecidableEq, Repr

/-- What the picture of an epoch gives the signal box (15 R454): per region the
current in 1/16 units (R456), the hottest sensor in 1/16 °C, the setpoint and
brake applied; the junction current, the sum of the input voltages, the measured
power, and the cells with data. -/
structure Snap where
  p : W64
  cur : List Nat
  hot : List Int
  va : List Nat
  na : List Nat
  junction : Nat
  vinSum : Nat
  power : Nat
  cells : List (Nat × Int)
  deriving DecidableEq, Repr

structure Telemetry where
  missingTemp : BitVec 8 := 100
  waitLimit : BitVec 15 := 20000
  picture : W64 := 0
  place : NMap Place := []
  cells : NMap Cell := []
  sensors : NMap Fused := []
  curs : NMap Fused := []
  hbm : NMap (BitVec 8) := []
  board : NMap W64 := []
  samples : NMap (List (W64 × Int)) := []
  nextPicture : Nat := 0
  snaps : List Snap := []
  deriving DecidableEq, Repr

/-! ## Host interface -/

/-- An MSI-X table entry (16 R495). -/
structure MsixEntry where
  addr : W64 := 0
  data : W32 := 0
  mask : Bool := true
  deriving DecidableEq, Repr

/-- A SIGNAL of the host that waits for posted writes before it (13 R411): the requests of
`after` have no answer yet. -/
structure HostSignal where
  sem : Nat
  n : Nat
  after : List Nat
  deriving DecidableEq, Repr

structure HostIf where
  flit : Bool := false
  speed : BitVec 4 := 0
  width : BitVec 5 := 0
  hwBase : BitVec 22 := 0
  ctlEnable : Bool := false
  ctlTarget : W32 := 0
  dbIsolated : W32 := 0
  errKind : BitVec 8 := 0
  errAddr : BitVec 56 := 0
  ap : NMap (Bool × BitVec 26) := []
  event : NMap (Bool × BitVec 11) := []
  msix : NMap MsixEntry := []
  pba : List Nat := []
  msixEnable : Bool := false
  funcMask : Bool := false
  pci : NMap W32 := []
  subsys : W16 := 0x0020
  ready : Bool := false
  signals : List HostSignal := []
  deriving DecidableEq, Repr

/-- The descriptor that a DMA queue runs (16 Table 16.5): its eight doublewords,
where its ring slot lies (`slotOk` unless that is unmapped), the bytes read from
another package by offset, the lowest offset that failed with its status, whether
writes to another package are on their way, and the first poisoned address read there. -/
structure DmaJob where
  desc : List W64
  host : Bool
  slot : Nat
  slotOk : Bool := true
  buf : NMap Byte := []
  bad : Option (Nat × Nat) := none
  wrote : Bool := false
  poison : Option Nat := none
  deriving DecidableEq, Repr

/-- A host DMA queue (16 Table 16.8). `carried` is the signal that follows the
completion word, `carriedSent` says that it is on its way to another package. `aborted` is a
descriptor that RESET ended and whose completion word waits for its line (12 R363). -/
structure Queue where
  baseHost : Bool := false
  addr : BitVec 57 := 0
  log2 : BitVec 5 := 1
  enable : Bool := false
  tail : W32 := 0
  tailWriter : Source := 0
  head : W32 := 0
  rejected : W32 := 0
  errors : W16 := 0
  last : BitVec 8 := 0
  counts : NMap W16 := []
  cur : Option DmaJob := none
  carried : Option Carry := none
  carriedSent : Bool := false
  aborted : Option DmaJob := none
  deriving DecidableEq, Repr

/-! ## Moriq -/

/-- A packet (17 Table 17.2). `crcOk` is what a received packet's CRC says, and
`via` the port whose table routes it (17 R516). -/
structure Packet where
  ptype : BitVec 4 := 0
  vc : BitVec 2 := 0
  cls : Bool := false
  carry : Bool := false
  op : Byte := 0
  len : Nat := 0
  seq : W16 := 0
  ack : W16 := 0
  dest : BitVec 11 := 0
  src : BitVec 11 := 0
  tseq : W32 := 0
  addr : BitVec 45 := 0
  credit : W32 := 0
  crcOk : Bool := true
  payload : List Byte := []
  via : Nat := 0
  deriving DecidableEq, Repr

inductive PortSt where
  | disabled | training | up | failed
  deriving DecidableEq, Repr

/-- A Moriq port (17 Table 17.6 and R507-R514). -/
structure Port where
  enable : Bool := false
  writer : Source := 0
  st : PortSt := .disabled
  peerPkg : BitVec 11 := 0
  peerPort : BitVec 4 := 0
  replays : W16 := 0
  crcErr : W16 := 0
  uncorr : W16 := 0
  corrected : W16 := 0
  txSeq : W16 := 0
  rxSeq : W16 := 0
  replay : List Packet := []
  sendQ : NMap (List Packet) := []
  credit : NMap Nat := []
  used : NMap Nat := []
  freed : NMap Nat := []
  rxCur : List (List Byte) := []
  resync : Bool := false
  rxPkts : List Packet := []
  stalls : Nat := 0
  sentAt : Nat := 0
  deriving DecidableEq, Repr

/-- A remote request that waits for its response (17 R518, R519); `refused` where
a switch-over left it no route (17 R522). `id` is the number that its CREDIT field
carries and its response returns (log 17). `acc` is the access or operation of the core,
`more` the further lines that ride in the same packet; for a DMA queue `acc` is an offset,
for the host the length of a read. `off` is the BAR offset of a host access. -/
structure Pending where
  id : Nat := 0
  pkg : Nat
  addr : Nat
  core : Option Nat := none
  acc : Nat := 0
  more : List Nat := []
  queue : Option Nat := none
  off : Nat := 0
  since : Nat := 0
  refused : Bool := false
  deriving DecidableEq, Repr

/-- `switched` lists the ports that have left UP since the last full load: the
entries whose PRIMARY is one of them are switched (17 R522). -/
structure Moriq where
  respTimeout : W16 := 1000
  parentEn : Bool := false
  parent : BitVec 4 := 0
  master : Bool := false
  origin : BitVec 4 := 0
  switchovers : W16 := 0
  dup : W16 := 0
  gaps : W16 := 0
  noRoute : W16 := 0
  tbOffset : W32 := 0
  selDest : BitVec 11 := 0
  selPort : BitVec 4 := 0
  routes : NMap W32 := []
  switched : List Nat := []
  ports : NMap Port := []
  tseqTx : NMap W32 := []
  tseqRx : NMap W32 := []
  reqIn : List Packet := []
  waits : List Pending := []
  deriving DecidableEq, Repr

/-! ## Error collection -/

/-- A log entry (18 Table 18.3). -/
structure LogEntry where
  time : W64
  kind : BitVec 8
  severity : BitVec 2
  die : BitVec 5
  region : Option (BitVec 6)
  source : Source
  addr : BitVec 56
  detail : W64
  deriving DecidableEq, Repr

structure Errors where
  dropped : W16 := 0
  notify : Bool := false
  head : W32 := 0
  tail : W32 := 0
  patrol : W32 := 0
  corrected : NMap W32 := []
  ring : NMap LogEntry := []
  deriving DecidableEq, Repr

/-! ## Sideband -/

/-- The flash command that keeps BUSY at 1, with the store address it took. -/
inductive FlashCmd where
  | read (a : Nat)
  | program (a : Nat)
  | erase (slot : Bool) (block : Nat)
  | commit
  | rescan
  deriving DecidableEq, Repr

/-- A UART (19 R569). -/
structure Uart where
  tx : List Byte := []
  rx : List Byte := []
  rxDropped : W16 := 0
  txDropped : W16 := 0
  div : W16 := 54
  aborted : Bool := false
  deriving DecidableEq, Repr

/-- A GPIO pad (19 R573). -/
structure Gpio where
  func : BitVec 3 := 0
  writer : Source := 0
  park : Option (BitVec 3 × Nat) := none
  edge : W64 := 0
  deriving DecidableEq, Repr

/-- A timed pulse output (19 R572). -/
structure Tpo where
  start : W64 := 0
  period : W32 := 0
  width : W32 := 0
  level : Bool := false
  deriving DecidableEq, Repr

/-- A PMBus poll entry (19 Table 19.10). -/
structure PmbDev where
  nack : Bool := false
  en : Bool := false
  addr : BitVec 7 := 0
  code : BitVec 8 := 0
  deriving DecidableEq, Repr

structure Sideband where
  flAddr : W32 := 0
  flLen : BitVec 9 := 0
  flSlot : Bool := false
  flWriter : Source := 0
  ignored : W16 := 0
  slotA : BitVec 3 := 0
  slotB : BitVec 3 := 0
  result : BitVec 4 := 0
  resumed : Bool := false
  failed : Bool := false
  cmd : Option FlashCmd := none
  readDuringErase : Option Nat := none
  flBuf : NMap Byte := []
  flash : Option Flash := none
  gpio : NMap Gpio := []
  gpioOe : W16 := 0
  gpioVal : W16 := 0
  gpioIn : W16 := 0
  muxIgnored : W32 := 0
  tpo : NMap Tpo := []
  uart : NMap Uart := []
  bootlog : Bool := true
  pmb : NMap PmbDev := []
  pmbAborted : Bool := false
  alertEvent : BitVec 5 := 0
  alertEnable : BitVec 5 := 0
  alertOut : Bool := false
  regAddr : W32 := 0
  jtagIr : BitVec 5 := 1
  boundary : BitVec 37 := 0
  deriving DecidableEq, Repr

/-! ## Outputs -/

/-- How a host read or a configuration request completes (16 Table 16.3, R481,
R530). -/
inductive Cpl where
  | success | unsupported | aborted | retry | poisoned
  deriving DecidableEq, Repr

/-- What the device sends outward; the newest stands first in `State.out`. -/
inductive Output where
  | completion (c : Cpl) (bytes : List Byte)
  | hostWrite (bus : Nat) (bytes : List Byte) (poisoned : Bool)
  | hostRead (bus len : Nat)
  | msix (addr : W64) (data : W32)
  | aer
  | packet (port : Nat) (p : Packet)
  | marker (port : Nat)
  | smbus (bytes : List Byte)
  | smbNack
  | uart (u : Nat) (b : Byte)
  | jtag (bits : Nat)
  | lands (drive : Option (BitVec 37))
  | remoteReply (pkg : Nat) (status : RespStatus) (bytes : List Byte)
  deriving DecidableEq, Repr

/-! ## The whole device -/

structure State where
  pending : List Instr := []
  out : List Output := []
  free : Nat := 0
  pw : Power := {}
  mem : Memory := {}
  memEpoch : Nat := 0
  yardBad : List Nat := []
  poison : List Nat := []
  tb : Timebase := {}
  ra : RightAway := {}
  cc : Controller := {}
  pkg : BitVec 11 := 0
  aliasEn : Bool := true
  regions : NMap Region := []
  cores : NMap Core := []
  co : Coherence := {}
  sems : NMap Sem := []
  semDies : NMap SemDie := []
  dx : Depot := {}
  sb : SignalBox := {}
  tf : Telemetry := {}
  hi : HostIf := {}
  queues : NMap Queue := []
  ml : Moriq := {}
  ec : Errors := {}
  sd : Sideband := {}
  deriving DecidableEq, Repr

/-- The device right after PERST_N rises, before any image is loaded (00 R13,
04 R108, R580): straps BOOTSEL 0b01 and PWRCEIL 0b00, no flash chip, all rails
in range (DESIGN CHOICE, log 1). -/
def State.reset : State := {}

end Sys2Proof.Machine
end

