-- ==== Sys2Proof/Machine/Ops.lean ====
section
/-!
DEFINITION. The named operations over tables, fields and the parts of the state
that every meaning is written with.
-/
namespace Sys2Proof.Machine

/-! ## Sparse tables -/

/-- The entry of key `k`, or `d` where the table lists none. -/
def nget {α : Type} (d : α) : NMap α → Nat → α
  | [], _ => d
  | (a, v) :: t, k => if a = k then v else nget d t k

/-- The table with key `k` holding `v`. -/
def nset {α : Type} (k : Nat) (v : α) : NMap α → NMap α
  | [] => [(k, v)]
  | (a, w) :: t =>
    if k < a then (k, v) :: (a, w) :: t
    else if a = k then (k, v) :: t
    else (a, w) :: nset k v t

/-- The table without key `k`. -/
def nerase {α : Type} (k : Nat) : NMap α → NMap α
  | [] => []
  | (a, w) :: t => if a = k then t else (a, w) :: nerase k t

/-- Whether the table lists key `k`. -/
def nhas {α : Type} (m : NMap α) (k : Nat) : Bool := m.any fun p => p.1 == k

/-! ## Bit fields -/

/-- Bits `hi:lo` of a word, as a number (00 R6). -/
def bits {n : Nat} (w : BitVec n) (hi lo : Nat) : Nat := (w.toNat >>> lo) % 2 ^ (hi + 1 - lo)

/-- Bit `i` of a word. -/
def bit {n : Nat} (w : BitVec n) (i : Nat) : Bool := w.getLsbD i

def b2n (b : Bool) : Nat := if b then 1 else 0

/-- A register of 64 bits whose field at bit `lo` holds the given value. -/
def pack (fields : List (Nat × Nat)) : W64 :=
  BitVec.ofNat 64 (fields.foldl (fun a f => a + f.2 * 2 ^ f.1) 0)

/-- The two's complement value of the low `w` bits of `x`. -/
def sval (w x : Nat) : Int :=
  let y := x % 2 ^ w
  if y < 2 ^ (w - 1) then (y : Int) else (y : Int) - (2 ^ w : Nat)

/-- The low `w` bits of an integer. -/
def uval (w : Nat) (x : Int) : Nat := (x % ((2 ^ w : Nat) : Int)).toNat

/-- A counter that stops at all ones (00 R578). -/
def satInc {n : Nat} (c : BitVec n) : BitVec n := if c = BitVec.allOnes n then c else c + 1

/-- A counter that stops at all ones, raised by `k`. -/
def satAdd {n : Nat} (c : BitVec n) (k : Nat) : BitVec n :=
  BitVec.ofNat n (min (2 ^ n - 1) (c.toNat + k))

/-- `v` where `m` has ones, `old` elsewhere: a write of part of a register. -/
def mergeMask (old v m : W64) : W64 := (old &&& ~~~m) ||| (v &&& m)

/-! ## Bytes -/

/-- The low `n` bytes of a number, least significant first (00 R7). -/
def toBytes : Nat → Nat → List Byte
  | 0, _ => []
  | n + 1, x => BitVec.ofNat 8 x :: toBytes n (x / 256)

/-- The number whose bytes, least significant first, are given. -/
def ofBytes : List Byte → Nat
  | [] => 0
  | b :: t => b.toNat + 256 * ofBytes t

/-! ## Lists -/

/-- The element at a position, if any. -/
def nth {α : Type} : List α → Nat → Option α
  | [], _ => none
  | a :: _, 0 => some a
  | _ :: t, n + 1 => nth t n

/-- The list without the element at a position. -/
def dropNth {α : Type} : List α → Nat → List α
  | [], _ => []
  | _ :: t, 0 => t
  | a :: t, n + 1 => a :: dropNth t n

/-- Elements whose test holds, changed; the others kept. -/
def mapIf {α : Type} (p : α → Bool) (f : α → α) (l : List α) : List α :=
  l.map fun a => if p a then f a else a

/-- The first element whose test holds. -/
def firstIf {α : Type} (p : α → Bool) : List α → Option α
  | [] => none
  | a :: t => if p a then some a else firstIf p t

/-- The list without its first element whose test holds. -/
def eraseFirst {α : Type} (p : α → Bool) : List α → List α
  | [] => []
  | a :: t => if p a then t else a :: eraseFirst p t

/-- The change made at every number below `n`, in order. -/
def forN {α : Type} : Nat → (Nat → α → α) → α → α
  | 0, _, a => a
  | n + 1, f, a => f n (forN n f a)

/-- The change made once for every element, in order. -/
def forEach {α β : Type} (l : List β) (f : β → α → α) (a : α) : α := l.foldl (fun a b => f b a) a

/-- Sum over a list. -/
def sumBy {α : Type} (f : α → Nat) (l : List α) : Nat := l.foldl (fun a x => a + f x) 0

/-- A count in a field of `w` bits; free where it is too wide (log 30). -/
def narrow (w n : Nat) : BitVec w := BitVec.ofNat w (if n < 2 ^ w then n else Config.overField w n)

/-! ## Numbering (01 R21, R27-R29) -/

def numCores : Nat := 25600
def numRegions : Nat := 64

def dieOf (c : Nat) : Nat := c / 1600
def rowOf (c : Nat) : Nat := c % 1600 / 40
def colOf (c : Nat) : Nat := c % 40
def coreAt (die row col : Nat) : Nat := die * 1600 + row * 40 + col

/-- 01 R28. -/
def regionOf (c : Nat) : Nat :=
  dieOf c * 4 + 2 * b2n (20 ≤ rowOf c) + b2n (20 ≤ colOf c)

/-- The cores of a rectangle, in row-major order. -/
def rectCores (die row0 col0 rows cols : Nat) : List Nat :=
  (List.range rows).flatMap fun r => (List.range cols).map fun k => coreAt die (row0 + r) (col0 + k)

/-- The 400 cores of a region. -/
def regionCores (r : Nat) : List Nat :=
  rectCores (r / 4) (20 * (r % 4 / 2)) (20 * (r % 2)) 20 20

/-- The cores that a declaration of region `r` names. -/
def declCores (r : Nat) (d : Decl) : List Nat := rectCores (r / 4) d.row0 d.col0 d.rows d.cols

/-- Whether core `c` lies in the rectangle of a declaration of region `r`. -/
def inDecl (r : Nat) (d : Decl) (c : Nat) : Bool :=
  decide (dieOf c = r / 4) && decide (d.row0 ≤ rowOf c) && decide (rowOf c < d.row0 + d.rows)
    && decide (d.col0 ≤ colOf c) && decide (colOf c < d.col0 + d.cols)

/-! ## The agents of 04 R130 -/

def srcHost : Source := 0x7FFF
def srcController : Source := 0x7FFE
def srcSignalBox : Source := 0x7FFD
def srcErrorLog : Source := 0x7FFC
def srcSmbus : Source := 0x7FFB
def srcCore (c : Nat) : Source := BitVec.ofNat 15 c

/-! ## Parts of the state -/

def State.core (s : State) (c : Nat) : Core := nget (Core.reset s.pkg.toNat c) s.cores c
def State.setCore (s : State) (c : Nat) (k : Core) : State := { s with cores := nset c k s.cores }
def State.modCore (s : State) (c : Nat) (f : Core → Core) : State := s.setCore c (f (s.core c))

def State.region (s : State) (r : Nat) : Region := nget {} s.regions r
def State.setRegion (s : State) (r : Nat) (g : Region) : State := { s with regions := nset r g s.regions }
def State.modRegion (s : State) (r : Nat) (f : Region → Region) : State := s.setRegion r (f (s.region r))

def State.sem (s : State) (i : Nat) : Sem := nget {} s.sems i
def State.setSem (s : State) (i : Nat) (m : Sem) : State := { s with sems := nset i m s.sems }
def State.semDie (s : State) (d : Nat) : SemDie := nget {} s.semDies d
def State.setSemDie (s : State) (d : Nat) (m : SemDie) : State := { s with semDies := nset d m s.semDies }

def State.queue (s : State) (q : Nat) : Queue := nget {} s.queues q
def State.setQueue (s : State) (q : Nat) (k : Queue) : State := { s with queues := nset q k s.queues }

def State.port (s : State) (p : Nat) : Port := nget {} s.ml.ports p
def State.setPort (s : State) (p : Nat) (k : Port) : State :=
  { s with ml := { s.ml with ports := nset p k s.ml.ports } }
def State.modPort (s : State) (p : Nat) (f : Port → Port) : State := s.setPort p (f (s.port p))

def State.emit (s : State) (o : Output) : State := { s with out := o :: s.out }

/-- A fresh index for a free value. -/
def State.fresh (s : State) : Nat × State := (s.free, { s with free := s.free + 1 })

/-! ## Regions -/

/-- STATE numbers of 04 Table 4.10. -/
def RegionSt.code : RegionSt → Nat
  | .unloaded => 0 | .running => 1 | .parked => 2 | .parkedIsolated => 3
  | .writing => 4 | .startedIsolated => 5 | .red => 6

/-- Whether the region's borders are isolated (04 R108, R124, Table 4.10). -/
def RegionSt.isolated : RegionSt → Bool
  | .running | .parked => false
  | _ => true

/-- Whether the region's cores run (15 R456). -/
def RegionSt.isRunning : RegionSt → Bool
  | .running | .startedIsolated => true
  | _ => false

/-- Whether the region holds an image (04 R108). -/
def RegionSt.loaded : RegionSt → Bool
  | .unloaded => false
  | _ => true

/-! ## Meanings -/

/-- A meaning under the check that the command names units the package has. -/
def need (ok : Bool) (s : State) (f : State → State) : Host.Outcome State Fault Refusal :=
  if ok then .next (f s) else .fault .noSuchUnit

/-- The effect of an event of a device that is out of reset: while PERST_N is
low nothing of it comes about (19 R546, R553). -/
def whenUp (s : State) (f : State → State) : State := if s.pw.perst then f s else s

/-- The effect `f` where the event's condition holds, no change otherwise. -/
def onlyIf (ok : Bool) (f : State → State) (s : State) : State := if ok then f s else s

end Sys2Proof.Machine
end

