-- ==== Sys2Proof/Machine/Float.lean ====
section
/-!
DEFINITION. Floating-point formats, rounding and arithmetic (07 R215-R227, R230,
R579). Values are exact: a sign, a significand and a power of two.
-/
namespace Sys2Proof.Machine

/-! ## Flags (05 Table 5.12) -/

abbrev Flags := BitVec 10

def flInvalid : Flags := 0x001
def flDivzero : Flags := 0x002
def flOverflow : Flags := 0x004
def flUnderflow : Flags := 0x008
def flInexact : Flags := 0x010
def flEmptyRow : Flags := 0x020
def flSaturated : Flags := 0x040
def flIdivz : Flags := 0x100
def flIovf : Flags := 0x200

/-- A result's bits and the flags that forming it sets. -/
structure Num where
  bits : Nat
  fl : Flags := 0
  deriving DecidableEq, Repr

/-! ## Formats (07 Table 7.1) -/

/-- What the largest exponent encodes. -/
inductive Special where
  | ieee    -- infinity and NaN
  | oneNan  -- S.1111.111 is NaN
  | none
  deriving DecidableEq, Repr

structure Fmt where
  width : Nat
  ebits : Nat
  fbits : Nat
  special : Special
  deriving DecidableEq, Repr

def fp64 : Fmt := { width := 64, ebits := 11, fbits := 52, special := .ieee }
def fp32 : Fmt := { width := 32, ebits := 8, fbits := 23, special := .ieee }
def bf16 : Fmt := { width := 16, ebits := 8, fbits := 7, special := .ieee }
def fp16 : Fmt := { width := 16, ebits := 5, fbits := 10, special := .ieee }
def e4m3 : Fmt := { width := 8, ebits := 4, fbits := 3, special := .oneNan }
def e5m2 : Fmt := { width := 8, ebits := 5, fbits := 2, special := .ieee }
def e2m3 : Fmt := { width := 6, ebits := 2, fbits := 3, special := .none }
def e3m2 : Fmt := { width := 6, ebits := 3, fbits := 2, special := .none }
def e2m1 : Fmt := { width := 4, ebits := 2, fbits := 1, special := .none }

/-- The floating-point element format of a code (07 Table 7.3). -/
def fmtOf : Nat → Option Fmt
  | 0x0 => some fp64
  | 0x1 => some fp32
  | 0x2 => some bf16
  | 0x3 => some fp16
  | 0x4 | 0x6 => some e4m3
  | 0x5 | 0x7 => some e5m2
  | 0x8 => some e2m3
  | 0x9 => some e3m2
  | 0xA => some e2m1
  | _ => none

def Fmt.bias (f : Fmt) : Int := (2 ^ (f.ebits - 1) : Nat) - 1
/-- Exponent of the smallest normal. -/
def Fmt.emin (f : Fmt) : Int := 1 - f.bias
/-- Weight of the smallest subnormal, as a power of two. -/
def Fmt.umin (f : Fmt) : Int := f.emin - f.fbits

/-- Encoding of the largest finite magnitude. -/
def Fmt.maxEnc (f : Fmt) : Nat :=
  match f.special with
  | .ieee => (2 ^ f.ebits - 1) * 2 ^ f.fbits - 1
  | .oneNan => 2 ^ (f.width - 1) - 2
  | .none => 2 ^ (f.width - 1) - 1

def Fmt.signBit (f : Fmt) (neg : Bool) : Nat := if neg then 2 ^ (f.width - 1) else 0

/-- The NaN that an operation gives (07 R219). -/
def Fmt.nan (f : Fmt) : Nat :=
  match f.special with
  | .ieee => (2 ^ f.ebits - 1) * 2 ^ f.fbits + 2 ^ (f.fbits - 1)
  | _ => 2 ^ (f.width - 1) - 1

def Fmt.inf (f : Fmt) (neg : Bool) : Nat := f.signBit neg + (2 ^ f.ebits - 1) * 2 ^ f.fbits

/-! ## Values -/

/-- A NaN, an infinity, or (−1)^neg × m × 2^e. -/
inductive Val where
  | nan (signalling : Bool)
  | inf (neg : Bool)
  | fin (neg : Bool) (m : Nat) (e : Int)
  deriving DecidableEq, Repr

/-- The value that an encoding names (07 R218). -/
def Fmt.decode (f : Fmt) (x : Nat) : Val :=
  let neg := x.testBit (f.width - 1)
  let ex := x / 2 ^ f.fbits % 2 ^ f.ebits
  let fr := x % 2 ^ f.fbits
  let top := 2 ^ f.ebits - 1
  if f.special = .ieee ∧ ex = top then
    (if fr = 0 then .inf neg else .nan (!fr.testBit (f.fbits - 1)))
  else if f.special = .oneNan ∧ ex = top ∧ fr = 2 ^ f.fbits - 1 then .nan false
  else if ex = 0 then .fin neg fr f.umin
  else .fin neg (2 ^ f.fbits + fr) (f.umin + ((ex - 1 : Nat) : Int))

def Val.isNan : Val → Bool
  | .nan _ => true
  | _ => false

def Val.isZero : Val → Bool
  | .fin _ m _ => m == 0
  | _ => false

def Val.neg : Val → Val
  | .nan q => .nan q
  | .inf s => .inf !s
  | .fin s m e => .fin (!s) m e

def Val.sign : Val → Bool
  | .nan _ => false
  | .inf s => s
  | .fin s _ _ => s

/-- INVALID for signalling NaN inputs (07 R219). -/
def Val.quiet : Val → Flags
  | .nan true => flInvalid
  | _ => 0

/-! ## Rounding (07 R220, R224-R227) -/

/-- A round word with its defaults taken, and the random bits drawn. -/
structure Rnd where
  mode : Nat := 0
  sat : Bool := false
  n : Nat := 12
  r : Nat := 0
  deriving DecidableEq, Repr

/-- Whether a value whose discarded part is (rem / 2^d, and more when `sticky`)
units moves one unit away from zero. -/
def roundsUp (rd : Rnd) (neg : Bool) (q rem d : Nat) (sticky : Bool) : Bool :=
  if rem = 0 && !sticky then false
  else match rd.mode with
    | 1 => false
    | 2 => !neg
    | 3 => neg
    | 4 => decide (2 ^ d ≤ 2 * rem)
    | 5 => decide (2 ^ rd.n ≤ rem * 2 ^ rd.n / 2 ^ d + rd.r)
    | _ => decide (2 ^ d < 2 * rem) || (decide (2 * rem = 2 ^ d) && (sticky || q % 2 == 1))

/-- m × 2^e in units of 2^u: whole units, the rest, and the bits of the rest. -/
def atUnit (m : Nat) (e u : Int) : Nat × Nat × Nat :=
  if u ≤ e then (m * 2 ^ (e - u).toNat, 0, 0)
  else
    let d := (u - e).toNat
    (m / 2 ^ d, m % 2 ^ d, d)

/-- Units of 2^u after rounding, and whether the value was inexact. -/
def roundAt (rd : Rnd) (neg : Bool) (m : Nat) (e u : Int) (sticky : Bool) : Nat × Bool :=
  let p := atUnit m e u
  (p.1 + (if roundsUp rd neg p.1 p.2.1 p.2.2 sticky then 1 else 0), p.2.1 != 0 || sticky)

/-- Exponent of the leading bit. -/
def leading (m : Nat) (e : Int) : Int := (Nat.log2 m : Int) + e

/-- Whether a mode rounds a value of this sign toward zero (07 R579). -/
def Rnd.towardZero (rd : Rnd) (neg : Bool) : Bool :=
  rd.mode == 1 || (rd.mode == 2 && neg) || (rd.mode == 3 && !neg)

/-- An overflow of a finite value (07 R221, R579; Table 7.5). `mx` names a
microscaling element. -/
def Fmt.overflow (f : Fmt) (rd : Rnd) (mx neg : Bool) : Num :=
  if mx || f.special == .none || rd.sat then
    { bits := f.signBit neg + f.maxEnc, fl := flSaturated ||| flInexact }
  else if rd.towardZero neg then { bits := f.signBit neg + f.maxEnc, fl := flOverflow ||| flInexact }
  else
    { bits := if f.special = .ieee then f.inf neg else f.nan, fl := flOverflow ||| flInexact }

/-- Whether a value is tiny after rounding: rounded as if the exponent range had no lower
end, it lies below the least normal (07 R220). -/
def Fmt.tiny (f : Fmt) (rd : Rnd) (neg : Bool) (m : Nat) (e : Int) (sticky : Bool) : Bool :=
  let lead := leading m e
  let free := roundAt rd neg m e (lead - f.fbits) sticky
  decide (lead < f.emin) && !(free.1 == 2 ^ (f.fbits + 1) && decide (lead + 1 = f.emin))

/-- A finite value rounded once into a format; `sticky` says that the exact
magnitude is a little more than m × 2^e. -/
def Fmt.round (f : Fmt) (rd : Rnd) (mx neg : Bool) (m : Nat) (e : Int) (sticky : Bool) : Num :=
  if m = 0 ∧ !sticky then { bits := f.signBit neg }
  else
    let lead := leading m e
    let u := max (lead - f.fbits) f.umin
    let p := roundAt rd neg m e u sticky
    let enc := (u - f.umin).toNat * 2 ^ f.fbits + p.1
    if f.maxEnc < enc then f.overflow rd mx neg
    else
      { bits := f.signBit neg + enc
        fl := (if p.2 then flInexact else 0) ||| (if p.2 && f.tiny rd neg m e sticky then flUnderflow else 0) }

/-- An arithmetic result rounded; infinities stay infinite. -/
def Fmt.result (f : Fmt) (rd : Rnd) (v : Val) : Num :=
  match v with
  | .nan _ => { bits := f.nan }
  | .inf s => { bits := f.inf s }
  | .fin s m e => f.round rd false s m e false

/-! ## Exact arithmetic -/

/-- The integer significand of a finite value in units of 2^u, u at most its exponent. -/
def scaled (neg : Bool) (m : Nat) (e u : Int) : Int :=
  let k : Int := (m * 2 ^ (e - u).toNat : Nat)
  if neg then -k else k

/-- Sum of two values and the flags of an invalid one. An exact zero sum of unlike
signs is −0 toward −infinity and +0 otherwise. -/
def addVal (mode : Nat) (a b : Val) : Val × Flags :=
  match a, b with
  | .nan _, _ | _, .nan _ => (.nan false, a.quiet ||| b.quiet)
  | .inf s, .inf t => if s = t then (.inf s, 0) else (.nan false, flInvalid)
  | .inf s, _ => (.inf s, 0)
  | _, .inf t => (.inf t, 0)
  | .fin s m e, .fin t n g =>
    let u := min e g
    let z := scaled s m e u + scaled t n g u
    if z = 0 then (.fin (if m = 0 ∧ n = 0 ∧ s = t then s else mode == 3) 0 u, 0)
    else (.fin (decide (z < 0)) z.natAbs u, 0)

/-- Product of two values. -/
def mulVal (a b : Val) : Val × Flags :=
  match a, b with
  | .nan _, _ | _, .nan _ => (.nan false, a.quiet ||| b.quiet)
  | .inf s, y => if y.isZero then (.nan false, flInvalid) else (.inf (s != y.sign), 0)
  | x, .inf t => if x.isZero then (.nan false, flInvalid) else (.inf (x.sign != t), 0)
  | .fin s m e, .fin t n g => (.fin (s != t) (m * n) (e + g), 0)

/-- a × b + c, unrounded, with the product negated where `sub`. -/
def fmaVal (mode : Nat) (sub : Bool) (a b c : Val) : Val × Flags :=
  let p := mulVal a b
  let v := if sub then p.1.neg else p.1
  match c with
  | .nan q =>
    (.nan false, a.quiet ||| b.quiet ||| c.quiet
      ||| (if !a.isNan && !b.isNan && p.1.isNan && (q || Config.fmaNanInvalid) then flInvalid else 0))
  | _ =>
    let r := addVal mode v c
    (r.1, p.2 ||| r.2)

/-- a ÷ b rounded once (09 R274, Table 9.2). -/
def Fmt.div (f : Fmt) (rd : Rnd) (a b : Val) : Num :=
  match a, b with
  | .nan _, _ | _, .nan _ => { bits := f.nan, fl := a.quiet ||| b.quiet }
  | .inf _, .inf _ => { bits := f.nan, fl := flInvalid }
  | .inf s, y => { bits := f.inf (s != y.sign) }
  | x, .inf t => { bits := f.signBit (x.sign != t) }
  | .fin s m e, .fin t n g =>
    if n = 0 then
      (if m = 0 then { bits := f.nan, fl := flInvalid } else { bits := f.inf (s != t), fl := flDivzero })
    else if m = 0 then { bits := f.signBit (s != t) }
    else
      let k := f.fbits + 80 + Nat.log2 n
      let num := m * 2 ^ k
      f.round rd false (s != t) (num / n) (e - g - k) (num % n != 0)

/-- The largest number whose square is at most `x`, bit by bit from 2^k down. -/
def isqrtFrom : Nat → Nat → Nat → Nat
  | 0, _, r => r
  | k + 1, x, r =>
    let t := r + 2 ^ k
    isqrtFrom k x (if t * t ≤ x then t else r)

def isqrt (x : Nat) : Nat := isqrtFrom (Nat.log2 x / 2 + 1) x 0

/-- √(m × 2^e) as s × 2^g with about `k` or more bits, and whether more follows. -/
def sqrtParts (k m : Nat) (e : Int) : Nat × Int × Bool :=
  let sh := 2 * k + (if e % 2 = 0 then 0 else 1)
  let x := m * 2 ^ sh
  let s := isqrt x
  (s, (e - sh) / 2, s * s != x)

/-- Square root rounded once (09 R274, Table 9.2). -/
def Fmt.sqrt (f : Fmt) (rd : Rnd) (a : Val) : Num :=
  match a with
  | .nan _ => { bits := f.nan, fl := a.quiet }
  | .inf s => if s then { bits := f.nan, fl := flInvalid } else { bits := f.inf false }
  | .fin s m e =>
    if m = 0 then { bits := f.signBit s }
    else if s then { bits := f.nan, fl := flInvalid }
    else
      let p := sqrtParts (f.fbits + 40) m e
      f.round rd false false p.1 p.2.1 p.2.2

/-! ## Comparison -/

inductive Cmp where
  | lt | eq | gt | unordered
  deriving DecidableEq, Repr

/-- Order of two values; zeros of either sign are equal. -/
def cmpVal (a b : Val) : Cmp :=
  match a, b with
  | .nan _, _ | _, .nan _ => .unordered
  | .inf s, .inf t => if s = t then .eq else if s then .lt else .gt
  | .inf s, _ => if s then .lt else .gt
  | _, .inf t => if t then .gt else .lt
  | .fin s m e, .fin t n g =>
    let u := min e g
    let x := scaled s m e u
    let y := scaled t n g u
    if x < y then .lt else if x = y then .eq else .gt

/-- Whether `a` counts below `b`, −0 below +0 (08 Table 8.3). -/
def below (a b : Val) : Bool :=
  match cmpVal a b with
  | .lt => true
  | .eq => a.sign && !b.sign
  | _ => false

/-- Minimum or maximum of two encodings of one format; NaN if either is NaN. -/
def Fmt.minMax (f : Fmt) (isMax : Bool) (x y : Nat) : Num :=
  let a := f.decode x
  let b := f.decode y
  if a.isNan || b.isNan then { bits := f.nan, fl := a.quiet ||| b.quiet }
  else { bits := if below a b then (if isMax then y else x) else (if isMax then x else y) }

/-! ## Arithmetic in a format -/

def Fmt.add (f : Fmt) (rd : Rnd) (x y : Nat) : Num :=
  let v := addVal rd.mode (f.decode x) (f.decode y)
  let r := f.result rd v.1
  { r with fl := r.fl ||| v.2 }

def Fmt.mul (f : Fmt) (rd : Rnd) (x y : Nat) : Num :=
  let v := mulVal (f.decode x) (f.decode y)
  let r := f.result rd v.1
  { r with fl := r.fl ||| v.2 }

def Fmt.fma (f : Fmt) (rd : Rnd) (sub : Bool) (x y z : Nat) : Num :=
  let v := fmaVal rd.mode sub (f.decode x) (f.decode y) (f.decode z)
  let r := f.result rd v.1
  { r with fl := r.fl ||| v.2 }

/-- The encoding with its sign bit flipped. -/
def Fmt.flipSign (f : Fmt) (x : Nat) : Nat := x ^^^ 2 ^ (f.width - 1)

/-- A result taken over from an operand: a NaN becomes the NaN of the format, and a
signalling one sets INVALID (07 R219). -/
def Fmt.canon (f : Fmt) (x : Nat) : Num :=
  match f.decode x with
  | .nan q => { bits := f.nan, fl := (Val.nan q).quiet }
  | _ => { bits := x }

/-- |x| and -x: the sign bit only (08 Table 8.3), but for a NaN, whose sign and payload no
result keeps (07 R219; log 58). -/
def Fmt.abs (f : Fmt) (x : Nat) : Num := f.canon (x % 2 ^ (f.width - 1))
def Fmt.negate (f : Fmt) (x : Nat) : Num := f.canon (f.flipSign x)

/-- A value converted into a format: the special inputs of Table 7.5. -/
def Fmt.convert (f : Fmt) (rd : Rnd) (v : Val) : Num :=
  match v with
  | .nan _ => { bits := f.nan, fl := v.quiet }
  | .inf s =>
    if rd.sat then { bits := f.signBit s + f.maxEnc, fl := flSaturated }
    else if f.special = .ieee then { bits := f.inf s }
    else { bits := f.nan, fl := flInvalid }
  | .fin s m e => f.round rd false s m e false

/-! ## Round words (07 Table 7.4, 05 Table 5.14) -/

/-- Random bits of a count field; 0 takes `dflt`, 17-31 act as 12. -/
def srBits (v dflt : Nat) : Nat := if v = 0 then dflt else if 16 < v then 12 else v

/-- A round word with CP_ROUND_DEFAULT `d` behind it. -/
def rndOf (word : Nat) (d : W64) : Rnd :=
  let dm := bits d 2 0
  let mode := word % 8
  { mode := if 5 < mode then (if 5 < dm then 0 else dm) else mode
    sat := word.testBit 16
    n := srBits (word / 256 % 32) (srBits (bits d 12 8) 12) }

/-- Mode 4 acts as mode 0 in arithmetic and promotion (07 R225). -/
def Rnd.arith (rd : Rnd) : Rnd := if rd.mode = 4 then { rd with mode := 0 } else rd

/-- Nearest even in place of stochastic rounding (09 R280, 08 R271). -/
def Rnd.steady (rd : Rnd) : Rnd := if rd.mode = 4 ∨ rd.mode = 5 then { rd with mode := 0 } else rd

/-- Nearest even with the SAT of a round word. -/
def Rnd.nearest (rd : Rnd) : Rnd := { rd with mode := 0 }

/-! ## Generators (07 R230, R234) -/

/-- The seed of a lane. -/
def seedLane (seed : W32) (lane : Nat) : W32 :=
  let s := seed ^^^ BitVec.ofNat 32 (lane * 0x9E37_79B1)
  if s = 0 then 0x2F6B_91C3 else s

/-- One step of a lane generator. -/
def stepLane (s : W32) : W32 :=
  let s := s ^^^ (s <<< 13)
  let s := s ^^^ (s >>> 17)
  s ^^^ (s <<< 5)

/-- The top `n` bits of a word. -/
def topBits (s : W32) (n : Nat) : Nat := s.toNat / 2 ^ (32 - n)

/-- Bits of the position-keyed generator (07 R234). -/
def positionBits (seed : W32) (row col interval n : Nat) : Nat :=
  let h : W32 := seed ^^^ BitVec.ofNat 32 (row * 0x6C8E_9CF5) ^^^ BitVec.ofNat 32 (col * 0xB5AD_4ECF)
    ^^^ BitVec.ofNat 32 (interval * 0x9E37_79B1)
  let h := h ^^^ (h >>> 15)
  let h := h * 0x2C1B_3C6D
  let h := h ^^^ (h >>> 12)
  let h := h * 0x297A_2D39
  let h := h ^^^ (h >>> 15)
  topBits h n

end Sys2Proof.Machine
end

