-- ==== Sys2Proof/Machine/Functions.lean ====
section
/-!
DEFINITION. The element-wise functions (09 R273-R277, Tables 9.1, 9.2). Their exact
values are approached in fixed point to far more bits than a result has; which of
the results that the accuracy bounds of Table 9.1 leave is taken is free (log 15).
-/
namespace Sys2Proof.Machine

/-! ## Fixed point: a number X stands for X × 2^-200 -/

def fixOne : Nat := 2 ^ 200
/-- ln 2. -/
def fixLn2 : Nat := 1113844574712631719546256151097547306333272293549090750737802
/-- √(2/π). -/
def fixRoot : Nat := 1282151055680999866826009247359661344393248438342903040684417

/-- m × 2^e in fixed point, cut off. -/
def toFix (m : Nat) (e : Int) : Nat :=
  if 0 ≤ e + 200 then m * 2 ^ (e + 200).toNat else m / 2 ^ (-(e + 200)).toNat

/-- The series of the exponential from term `i`, whose value is `t`. -/
def expTerms : Nat → Nat → Nat → Nat → Nat
  | 0, _, _, _ => 0
  | n + 1, i, t, y => t + expTerms n (i + 1) (t * y / (fixOne * i)) y

/-- e^y for y below 1. -/
def expFix (y : Nat) : Nat := expTerms 60 1 fixOne y

/-- The series 1 + z²/3 + z⁴/5 + ... of the logarithm from term `i`, whose power is `t`. -/
def logTerms : Nat → Nat → Nat → Nat → Nat
  | 0, _, _, _ => 0
  | n + 1, i, t, zz => t / i + logTerms n (i + 2) (t * zz / fixOne) zz

/-- A value not above and near the exact one: sign, significand, exponent of two, and
whether it is exact. -/
structure Near where
  neg : Bool := false
  m : Nat
  e : Int
  exact : Bool := false
  deriving DecidableEq, Repr

/-- 2^k × e^y (or its reciprocal) for y in fixed point below ln 2. -/
def expParts (recip : Bool) (k y : Nat) : Near :=
  if recip then { m := 2 ^ 400 / expFix y, e := -200 - k } else { m := expFix y, e := (k : Int) - 200 }

/-- e^x; beyond every format's range it is a number beyond that range. -/
def expNear (neg : Bool) (m : Nat) (e : Int) : Near :=
  if m = 0 then { m := 1, e := 0, exact := true }
  else if 13 ≤ leading m e then { m := 1, e := if neg then -9000 else 9000 }
  else
    let x := toFix m e
    expParts neg (x / fixLn2) (x % fixLn2)

/-- 2^x. -/
def exp2Near (neg : Bool) (m : Nat) (e : Int) : Near :=
  if m = 0 then { m := 1, e := 0, exact := true }
  else if 13 ≤ leading m e then { m := 1, e := if neg then -9000 else 9000 }
  else
    let p := atUnit m e 0
    if p.2.1 = 0 then { m := 1, e := if neg then -(p.1 : Int) else p.1, exact := true }
    else
      let x := toFix m e
      expParts neg (x / fixOne) (x % fixOne * fixLn2 / fixOne)

/-- A positive value as f × 2^k with f, in fixed point, from 2/3 to 4/3. -/
def logParts (m : Nat) (e : Int) : Nat × Int :=
  let lead := leading m e
  let f := toFix m (e - lead)
  if 4 * fixOne < 3 * f then (f / 2, lead + 1) else (f, lead)

/-- ln f of a fixed-point number near 1, as an integer in fixed point. -/
def lnFix (f : Nat) : Int :=
  let d : Int := (f : Int) - fixOne
  let z := d.natAbs * fixOne / (f + fixOne)
  let s := 2 * z * logTerms 100 1 fixOne (z * z / fixOne) / fixOne
  if d < 0 then -(s : Int) else s

def nearInt (z e : Int) (exact : Bool) : Near := { neg := decide (z < 0), m := z.natAbs, e := e, exact := exact }

/-- ln x of a positive value. -/
def lnNear (m : Nat) (e : Int) : Near :=
  let p := logParts m e
  nearInt (p.2 * fixLn2 + lnFix p.1) (-200) (decide (p.1 = fixOne ∧ p.2 = 0))

/-- log₂ x of a positive value. -/
def log2Near (m : Nat) (e : Int) : Near :=
  let p := logParts m e
  nearInt (p.2 * fixOne + lnFix p.1 * fixOne / fixLn2) (-200) (decide (p.1 = fixOne))

/-- e^-x in fixed point. -/
def expDown (m : Nat) (e : Int) : Nat :=
  let n := expNear true m e
  toFix n.m n.e

/-- tanh x. -/
def tanhNear (neg : Bool) (m : Nat) (e : Int) : Near :=
  if m = 0 then { neg := neg, m := 0, e := 0, exact := true }
  else if leading m e < -60 then { neg := neg, m := m, e := e }
  else
    let u := expDown m (e + 1)
    { neg := neg, m := (fixOne - u) * fixOne / (fixOne + u), e := -200 }

/-- 1 ÷ (1 + e^-x). -/
def sigmoidNear (neg : Bool) (m : Nat) (e : Int) : Near :=
  if m = 0 then { m := 1, e := -1, exact := true }
  else if neg then
    let n := expNear true m e
    let d := fixOne + toFix n.m n.e
    { m := n.m * 2 ^ 400 / d, e := n.e - 200 }
  else { m := fixOne * fixOne / (fixOne + expDown m e), e := -200 }

/-- x ÷ (1 + e^-x). -/
def siluNear (neg : Bool) (m : Nat) (e : Int) : Near :=
  if m = 0 then { neg := neg, m := 0, e := 0, exact := true }
  else
    let g := sigmoidNear neg m e
    { neg := neg, m := m * g.m, e := e + g.e }

/-- 0.5x(1 + tanh t) = x ÷ (1 + e^-2t), t = √(2/π)(x + 0.044715x³). -/
def geluNear (neg : Bool) (m : Nat) (e : Int) : Near :=
  if m = 0 then { neg := neg, m := 0, e := 0, exact := true }
  else if 13 ≤ leading m e then { neg := neg, m := if neg then 1 else m, e := if neg then -9000 else e }
  else
    let x := toFix m e
    let cube := x * x / fixOne * x / fixOne
    let t := fixRoot * (x + cube * 44715 / 1000000) / fixOne
    let g := sigmoidNear neg t (-199)
    { neg := neg, m := m * g.m, e := e + g.e }

/-- 1 ÷ √x of a positive value. -/
def rsqrtNear (m : Nat) (e : Int) : Near :=
  let lead := leading m e
  if 2 ^ Nat.log2 m = m ∧ lead % 2 = 0 then { m := 1, e := -(lead / 2), exact := true }
  else
    let p := sqrtParts 0 (2 ^ (400 + Nat.log2 m) / m) (-(400 + Nat.log2 m : Int) - e)
    { m := p.1, e := p.2.1 }

/-! ## The results that the bounds allow -/

/-- Encodings in order: the place of the last one not above m × 2^e, and whether the
value lies above it. Places past the largest finite one stand for larger values. -/
def Fmt.place (f : Fmt) (m : Nat) (e : Int) : Nat × Bool :=
  if m = 0 then (0, false)
  else
    let u := max (leading m e - f.fbits) f.umin
    let p := atUnit m e u
    ((u - f.umin).toNat * 2 ^ f.fbits + p.1, p.2.1 != 0)

/-- The first or last place, signed, within z × 2^e. -/
def Fmt.placeInt (f : Fmt) (up : Bool) (z e : Int) : Int :=
  let p := f.place z.natAbs e
  let n : Int := p.1 + (if p.2 && (up != decide (z < 0)) then 1 else 0)
  if z < 0 then -n else n

/-- Ulps that Table 9.1 allows a function, and its absolute bound as a power of two. -/
def fnBound (f : Fmt) (port : Nat) : Nat × Option Int :=
  let wide := f.width = 64 ∨ f.width = 32
  match port with
  | 0x30C | 0x30D => (if wide then 2 else 1, none)
  | 0x30E | 0x30F => (if wide then 4 else 2, some (if f.width = 64 then -53 else if f.width = 32 then -24 else -14))
  | _ => (1, none)

/-- Signed places of the results within the bound of an exact value; 2^-60 of the
bound covers what the approach leaves open. -/
def Fmt.allowed (f : Fmt) (a : Near) (ulps : Nat) (absBound : Option Int) : Int × Int :=
  let u := max (leading a.m a.e - f.fbits) f.umin
  let w := absBound.getD u
  let g := min a.e (min u w - 60)
  let z : Int := (a.m * 2 ^ (a.e - g).toNat : Nat)
  let z := if a.neg then -z else z
  let b : Int := (max (ulps * 2 ^ (u - 60 - g).toNat) (if absBound.isSome then 2 ^ (w - 60 - g).toNat else 0)
    * (2 ^ 60 + 1) : Nat)
  let lo := f.placeInt true (z - b) g
  let hi := f.placeInt false (z + b) g
  let top : Int := f.maxEnc
  let a0 := (f.place a.m a.e).1
  if a0 ≤ f.maxEnc then (max lo (-top), min hi top) else (lo, hi)

/-- The result that a free pick takes, with its flags (09 R274, R275; 07 R220). An exact
value that the format holds is returned unchanged (07 R226). -/
def Fmt.pick (f : Fmt) (rd : Rnd) (a : Near) (bound : Nat × Option Int) (n : Nat) : Num :=
  let x := f.round rd false a.neg a.m a.e false
  if a.exact && x.fl == 0 then x
  else
    let r := f.allowed a bound.1 bound.2
    let i := r.1 + ((n % ((r.2 - r.1).toNat + 1) : Nat) : Int)
    let neg := decide (i < 0) || (decide (i = 0) && a.neg)
    if f.maxEnc < i.natAbs then f.overflow rd false neg
    else
      { bits := f.signBit neg + i.natAbs
        fl := flInexact ||| (if f.tiny rd a.neg a.m a.e (!a.exact) then flUnderflow else 0) }

/-- A function of Table 9.1 other than division and square root: the special inputs
of Table 9.2, then the finite ones. `code` is the FMT code. -/
def Fmt.func (f : Fmt) (code port : Nat) (rd : Rnd) (x : Nat) : Num :=
  let rd := rd.nearest
  let go : Near → Num := fun a => f.pick rd a (fnBound f port) (Config.fnPick port code x)
  let one := (f.round rd false false 1 0 false).bits
  let invalid : Num := { bits := f.nan, fl := flInvalid }
  match f.decode x with
  | .nan q => { bits := f.nan, fl := (Val.nan q).quiet }
  | .inf s =>
    match port with
    | 0x303 => if s then invalid else { bits := 0 }
    | 0x308 | 0x309 => { bits := if s then 0 else f.inf false }
    | 0x30A | 0x30B => if s then invalid else { bits := f.inf false }
    | 0x30C => { bits := f.signBit s + one }
    | 0x30D => { bits := if s then 0 else one }
    | _ => { bits := if s then f.signBit true else f.inf false }
  | .fin s m e =>
    match port with
    | 0x303 =>
      if m = 0 then { bits := f.inf s, fl := flDivzero } else if s then invalid else go (rsqrtNear m e)
    | 0x308 => go (expNear s m e)
    | 0x309 => go (exp2Near s m e)
    | 0x30A =>
      if m = 0 then { bits := f.inf true, fl := flDivzero } else if s then invalid else go (lnNear m e)
    | 0x30B =>
      if m = 0 then { bits := f.inf true, fl := flDivzero } else if s then invalid else go (log2Near m e)
    | 0x30C => go (tanhNear s m e)
    | 0x30D => go (sigmoidNear s m e)
    | 0x30E => go (geluNear s m e)
    | _ => go (siluNear s m e)

/-- e^x in a format, as softmax uses it (09 R285). -/
def Fmt.exp (f : Fmt) (rd : Rnd) (x : Nat) : Num := f.func (if f.width = 64 then 0 else 1) 0x308 rd x

/-! ## Two-operand and rounded functions -/

/-- VDIV, VRECIP and VSQRT under the round word (09 R274). -/
def Fmt.divide (f : Fmt) (rd : Rnd) (x y : Nat) : Num := f.div rd.arith (f.decode x) (f.decode y)
def Fmt.recip (f : Fmt) (rd : Rnd) (x : Nat) : Num := f.div rd.arith (.fin false 1 0) (f.decode x)
def Fmt.root (f : Fmt) (rd : Rnd) (x : Nat) : Num := f.sqrt rd.arith (f.decode x)

end Sys2Proof.Machine
end

