-- ==== Sys2Proof/Machine/Memory.lean ====
section
/-!
DEFINITION. Byte memory (HBM and yards), addresses (01), and the checks of
images and records (03 R97-R99).
-/
namespace Sys2Proof.Machine

/-! ## The byte table -/

/-- The value listed for a key. -/
def nfind {α : Type} : NMap α → Nat → Option α
  | [], _ => none
  | (a, v) :: t, k => if a = k then some v else nfind t k

/-- What a byte that `cells` does not list reads as: 0 in a cleared range, no
value elsewhere (04 R110, R580; log 4). -/
def Memory.blank (m : Memory) (a : Nat) : Option Byte :=
  if m.zero.any (fun r => decide (r.1 ≤ a) && decide (a < r.2)) then some 0 else none

/-- The byte at `a`, or none where nothing has written it. -/
def Memory.read (m : Memory) (a : Nat) : Option Byte :=
  match nfind m.cells a with
  | some b => some b
  | none => m.blank a

/-- The memory with byte `b` at `a`; a byte that reads so unlisted is not listed. -/
def Memory.write (m : Memory) (a : Nat) (b : Byte) : Memory :=
  if m.blank a = some b then { m with cells := nerase a m.cells }
  else { m with cells := nset a b m.cells }

/-- A rising list of ranges with [lo, hi) joined in. -/
def addRange (lo hi : Nat) : List (Nat × Nat) → List (Nat × Nat)
  | [] => [(lo, hi)]
  | (a, b) :: t =>
    if hi < a then (lo, hi) :: (a, b) :: t
    else if b < lo then (a, b) :: addRange lo hi t
    else addRange (min lo a) (max hi b) t

/-- The memory with every byte of [lo, hi) cleared to 0. -/
def Memory.clear (m : Memory) (lo hi : Nat) : Memory :=
  if lo < hi then
    { cells := m.cells.filter fun p => decide (p.1 < lo) || decide (hi ≤ p.1)
      zero := addRange lo hi m.zero }
  else m

/-- Keys strictly rising. -/
def rising {α : Type} : List (Nat × α) → Bool
  | [] => true
  | [_] => true
  | (a, _) :: (b, v) :: t => decide (a < b) && rising ((b, v) :: t)

/-- Ranges not empty, rising, and with a gap between neighbours. -/
def rangesWf : List (Nat × Nat) → Bool
  | [] => true
  | [(a, b)] => decide (a < b)
  | (a, b) :: (c, d) :: t => decide (a < b) && decide (b < c) && rangesWf ((c, d) :: t)

/-- The one canonical form: keys rising, no listed byte equal to what the
address reads as unlisted, ranges in order. -/
def Memory.wf (m : Memory) : Bool :=
  rising m.cells && m.cells.all (fun p => !decide (m.blank p.1 = some p.2)) && rangesWf m.zero

/-- `n` bytes from `a` up. -/
def Memory.readN (m : Memory) (a : Nat) : Nat → List (Option Byte)
  | 0 => []
  | n + 1 => m.read a :: m.readN (a + 1) n

/-- Bytes written from `a` up; `none` leaves its byte. -/
def Memory.writeN (m : Memory) (a : Nat) : List (Option Byte) → Memory
  | [] => m
  | none :: t => m.writeN (a + 1) t
  | some b :: t => (m.write a b).writeN (a + 1) t

/-! ## Addresses (01 R31-R38) -/

/-- What a local address names (01 Table 1.2). -/
inductive Loc where
  | hbm (a : Nat)
  | yard (core off : Nat)
  | cport (core off : Nat)
  | sem (s off : Nat)
  | depot (off : Nat)
  | sysreg (off : Nat)
  | host (h : Nat)
  | unmapped
  deriving DecidableEq, Repr

/-- The local map (01 Table 1.2, R35, R37). -/
def decodeLocal (a : Nat) : Loc :=
  if a < 0x48_0000_0000 then .hbm a
  else if 0x0800_0000_0000 ≤ a ∧ a < 0x0801_9000_0000 then
    let o := a - 0x0800_0000_0000
    if o % 0x4_0000 < 0x2_0000 then .yard (o / 0x4_0000) (o % 0x4_0000) else .unmapped
  else if 0x0C00_0000_0000 ≤ a ∧ a < 0x0C00_0640_0000 then
    let o := a - 0x0C00_0000_0000
    if o % 0x1000 < 0x800 then .cport (o / 0x1000) (o % 0x1000) else .unmapped
  else if 0x0D00_0000_0000 ≤ a ∧ a < 0x0D00_0040_0000 then
    let o := a - 0x0D00_0000_0000
    .sem (o / 64) (o % 64)
  else if 0x0D10_0000_0000 ≤ a ∧ a < 0x0D10_0010_0000 then .depot (a - 0x0D10_0000_0000)
  else if 0x0E00_0000_0000 ≤ a ∧ a < 0x0E00_00C0_0000 then .sysreg (a - 0x0E00_0000_0000)
  else if 0x1000_0000_0000 ≤ a ∧ a < 0x1400_0000_0000 then .host (a - 0x1000_0000_0000)
  else .unmapped

/-- Package and local fields of a global address (01 R31). -/
def pkgOf (a : Nat) : Nat := a / 2 ^ 45 % 2 ^ 11
def localOf (a : Nat) : Nat := a % 2 ^ 45

/-- Whether a global address is local (01 R32, R33). -/
def State.isLocal (s : State) (a : Nat) : Bool :=
  pkgOf a == s.pkg.toNat || (s.aliasEn && pkgOf a == 0x7FF)

/-- A global address in canonical form: a byte of this package under PKG_ID
(18 R533). -/
def State.canonical (s : State) (a : Nat) : Nat :=
  if s.isLocal a then s.pkg.toNat * 2 ^ 45 + localOf a else a % 2 ^ 56

/-- A naturally aligned access of 4 or 8 bytes (01 R39). -/
def regAccess (a n : Nat) : Bool := (n == 4 || n == 8) && a % n == 0

/-- What a local access of `n` bytes at `a` reaches: `none` where it is unmapped
or breaks 01 R38, R39 or 13 R394. -/
def resolve (a n : Nat) : Option Loc :=
  match decodeLocal a with
  | .unmapped => none
  | .hbm x => if x + n ≤ 0x48_0000_0000 then some (.hbm x) else none
  | .yard c o => if o + n ≤ 0x2_0000 then some (.yard c o) else none
  | .cport c o => if regAccess a n then some (.cport c o) else none
  | .sem i o => if n == 8 && a % 8 == 0 then some (.sem i o) else none
  | .depot o => if regAccess a n then some (.depot o) else none
  | .sysreg o => if regAccess a n then some (.sysreg o) else none
  | .host h => if h + n ≤ 2 ^ 42 then some (.host h) else none

/-- Home agent of an HBM local address (01 R40). -/
def homeAgent (a : Nat) : Nat := a / 4096 % 64

/-- Slice and set of an HBM local address within a die (11 R342). -/
def sliceOf (a : Nat) : Nat := (a / 64 % 32) ^^^ (a / 2 ^ 16 % 32)
def setOf (a : Nat) : Nat := a / 2 ^ 11 % 2048

/-! ## Undefined contents (04 R580) -/

/-- The value of a byte of memory; one that nothing has written is free (log 4). -/
def State.byteVal (s : State) (a : Nat) (b : Option Byte) : Byte :=
  match b with
  | some v => v
  | none => Config.freshByte s.memEpoch a

/-- Bytes from address `a` up with their values. -/
def State.byteVals (s : State) : Nat → List (Option Byte) → List Byte
  | _, [] => []
  | a, b :: t => s.byteVal a b :: s.byteVals (a + 1) t

/-- Whether an aligned word of which some byte has never been written reports
an uncorrectable error (04 R580). -/
def State.freshBad (s : State) (w : Nat) : Bool :=
  (s.mem.readN w 8).any (fun b => b.isNone) && Config.freshWordBad s.memEpoch w

/-- Whether the aligned yard word at local address `w` holds an uncorrectable
error (11 R330). -/
def State.yardWordBad (s : State) (w : Nat) : Bool := s.yardBad.contains w || s.freshBad w

/-- Aligned words that [a, a + n) touches. -/
def wordsOf (a n : Nat) : List Nat :=
  (List.range ((a + n + 7) / 8 - a / 8)).map fun i => (a / 8 + i) * 8

/-- A read of a yard: its bytes, and whether one of the words read holds an
uncorrectable error (11 R330). -/
def State.yardRead (s : State) (a n : Nat) : List Byte × Bool :=
  (s.byteVals a (s.mem.readN a n), (wordsOf a n).any s.yardWordBad)

/-- One word of a yard write: whole words are replaced, narrower writes are
merged and meet the word's error (11 R331). `lane` gives the word's new bytes. -/
def State.yardWriteWord (s : State) (w : Nat) (lane : List (Option Byte)) : State × Bool :=
  if lane.all (fun b => b.isNone) then (s, false)
  else if lane.all (fun b => b.isSome) then
    ({ s with mem := s.mem.writeN w lane, yardBad := s.yardBad.filter (· != w) }, false)
  else if s.yardWordBad w then (s, true)
  else
    let old := (s.byteVals w (s.mem.readN w 8)).map some
    ({ s with mem := (s.mem.writeN w old).writeN w lane }, false)

/-- The bytes of word `w` in a write of `bs` from `a` up. -/
def laneOf (a : Nat) (bs : List (Option Byte)) (w : Nat) : List (Option Byte) :=
  (List.range 8).map fun i =>
    if a ≤ w + i then (match nth bs (w + i - a) with | some b => b | none => none) else none

/-- A yard write, and whether it met an uncorrectable error. -/
def State.yardWrite (s : State) (a : Nat) (bs : List (Option Byte)) : State × Bool :=
  (wordsOf a bs.length).foldl
    (fun p w => let q := p.1.yardWriteWord w (laneOf a bs w); (q.1, p.2 || q.2)) (s, false)

/-- A yard write of a number, least significant byte first. -/
def State.yardStore (s : State) (a n x : Nat) : State × Bool := s.yardWrite a ((toBytes n x).map some)

/-- Whether the HBM line with number `l` is poisoned (18 R529), fresh words that
report an error included. -/
def State.linePoisoned (s : State) (l : Nat) : Bool :=
  s.poison.contains l || (wordsOf (64 * l) 64).any s.freshBad

/-! ## Checks (03 R97-R99) -/

def crc16Bits : Nat → Nat → Nat
  | 0, c => c
  | n + 1, c => crc16Bits n (if c.testBit 15 then (c * 2 ^^^ 0x1021) % 65536 else c * 2 % 65536)

/-- CRC-16 of 03 R97 over bytes, from the state `c`. -/
def crc16 (c : Nat) (bs : List Nat) : Nat := bs.foldl (fun c b => crc16Bits 8 (c ^^^ (b * 256))) c

def crc32Bits : Nat → Nat → Nat
  | 0, c => c
  | n + 1, c => crc32Bits n (if c % 2 = 1 then (c / 2) ^^^ 0xEDB8_8320 else c / 2)

/-- CRC-32 of 03 R98 over bytes, from the state `c`, before the final XOR. -/
def crc32 (c : Nat) (bs : List Nat) : Nat := bs.foldl (fun c b => crc32Bits 8 (c ^^^ b)) c

/-- The bytes of a 32-bit word, least significant first (03 R99). -/
def wordBytes (w : W32) : List Nat := (toBytes 4 w.toNat).map BitVec.toNat

/-- CRC-32 of a whole byte string. -/
def crc32Of (bs : List Nat) : Nat := crc32 0xFFFF_FFFF bs ^^^ 0xFFFF_FFFF

end Sys2Proof.Machine
end

