-- ==== Sys2Proof/Machine/Events.lean ====
section
/-!
DEFINITION. What the device tells the outside: MSI-X (16 R495), device events
(16 R496), SMBus alerts (19 R555) and the error collection log (18 R536, R537).
-/
namespace Sys2Proof.Machine

/-- Bus Master Enable of the PCI Command register (PRESUMED, log 11). -/
def State.busMaster (s : State) : Bool := bit (nget 0 s.hi.pci 1) 2

/-- A posted write to the host (16 R492). -/
def State.hostWrite (s : State) (bus : Nat) (bs : List Byte) (poisoned : Bool) : State :=
  if s.busMaster then s.emit (.hostWrite bus bs poisoned) else s

/-- MSI-X vector `v` is notified: a message, or the pending bit while masked
(16 R495). -/
def State.sendMsix (s : State) (v : Nat) : State :=
  let e := nget {} s.hi.msix v
  if !s.hi.msixEnable then s
  else if s.hi.funcMask || e.mask then
    { s with hi := { s.hi with pba := if s.hi.pba.contains v then s.hi.pba else v :: s.hi.pba } }
  else if s.busMaster then s.emit (.msix e.addr e.data) else s

/-- Device event `e` (16 Table 16.4). -/
def State.hostEvent (s : State) (e : Nat) : State :=
  let p := nget (false, 0) s.hi.event e
  if p.1 then s.sendMsix p.2.toNat else s

/-- SMB_ALERT_N is asserted while an enabled bit of SD_ALERT is set (19 R555). -/
def State.alertLine (s : State) : State :=
  { s with sd := { s.sd with alertOut := decide (s.sd.alertEvent &&& s.sd.alertEnable ≠ 0) } }

/-- SD_ALERT event bit `i` (19 Table 19.10). -/
def State.alert (s : State) (i : Nat) : State :=
  State.alertLine { s with sd := { s.sd with alertEvent := s.sd.alertEvent ||| BitVec.ofNat 5 (2 ^ i) } }

/-- Event 0 for an entry of the given severity (18 R537). -/
def State.notifyLog (s : State) (sev : Nat) : State :=
  if 2 ≤ sev then s.hostEvent 0
  else if s.ec.notify then s
  else State.hostEvent { s with ec := { s.ec with notify := true } } 0

/-- An entry is written at TAIL, or dropped when the ring is full (18 R536). -/
def State.writeLog (s : State) (e : LogEntry) : State :=
  let s := s.notifyLog e.severity.toNat
  if s.ec.tail - s.ec.head = 1024 then
    { s with ec := { s.ec with dropped := satInc s.ec.dropped } }
  else
    { s with ec := { s.ec with
        ring := nset (s.ec.tail.toNat % 1024) e s.ec.ring, tail := s.ec.tail + 1 } }

/-- SEVERITY of each entry kind (18 Table 18.6). -/
def severityOf : Nat → Nat
  | 0x01 | 0x02 | 0x04 | 0x06 | 0x07 => 2
  | 0x03 | 0x05 | 0x08 => 1
  | 0x09 | 0x0D | 0x0E => 3
  | _ => 0

/-- A log entry of kind `kind`, stamped now (18 Table 18.3). `die` 31 is none. -/
def State.log (s : State) (kind die : Nat) (region : Option Nat) (src : Source) (addr detail : Nat) : State :=
  s.writeLog
    { time := s.tb.now, kind := BitVec.ofNat 8 kind, severity := BitVec.ofNat 2 (severityOf kind)
      die := BitVec.ofNat 5 die, region := region.map (BitVec.ofNat 6), source := src
      addr := BitVec.ofNat 56 addr, detail := BitVec.ofNat 64 detail }

/-- A correctable error of storage kind `i` is counted (18 R526, Table 18.2). -/
def State.corrected (s : State) (i : Nat) : State :=
  { s with ec := { s.ec with corrected := nset i (satInc (nget 0 s.ec.corrected i)) s.ec.corrected } }

/-- A host access that cannot be carried out: HI_ERR_LAST, the log, and the
completion or AER report of 16 Table 16.3. `kind` is that of HI_ERR_LAST. The DIE field is 31,
and the ADDR field 0 for a place that is no address (01 R42 gives neither: DESIGN CHOICE,
log 70). -/
def State.hostFailure (s : State) (read : Bool) (kind addr bar : Nat) : State :=
  let s := { s with hi := { s.hi with errKind := BitVec.ofNat 8 kind, errAddr := BitVec.ofNat 56 addr } }
  let s := s.log 0x0A 31 none srcHost (if kind = 1 then 0 else addr) bar
  let s := if kind = 1 then s.emit .aer else s
  if read then s.emit (.completion (if kind = 1 then .unsupported else .aborted) []) else s

end Sys2Proof.Machine
end

