-- ==== Sys2Proof/Machine/Route.lean ====
section
/-!
DEFINITION. How a packet leaves the package (17 R511, R515-R517, R520): the
route tables, the transport sequence and the send queues of the ports. The
operation codes of a packet and the layout of its payload are the model's own
(log 16).
-/
namespace Sys2Proof.Machine

/-- The operations that a packet's OP names; `Config.moriqCode` gives the byte. -/
inductive LinkOp where
  | read | write | writeMasked | atomic (port : Nat) | sem (port : Nat) | depot (port : Nat)
  | answer (st : RespStatus)
  deriving DecidableEq, Repr

/-- Numbers of the ways an access is answered. -/
def RespStatus.code : RespStatus → Nat
  | .ok => 0 | .isolated => 1 | .noRoute => 2 | .unmapped => 3 | .hostError => 4 | .poisoned => 5

/-- The answer of a number. -/
def respOf : Nat → RespStatus
  | 1 => .isolated | 2 => .noRoute | 3 => .unmapped | 4 => .hostError | 5 => .poisoned | _ => .ok

/-- Numbers of the link operations. -/
def LinkOp.code : LinkOp → Nat
  | .read => 0
  | .write => 1
  | .writeMasked => 2
  | .atomic p => 0x1000 + p
  | .sem p => 0x2000 + p
  | .depot p => 0x3000 + p
  | .answer st => 0x4000 + st.code

/-- The link operation of a number. -/
def linkOpOf (n : Nat) : Option LinkOp :=
  if n = 0 then some .read
  else if n = 1 then some .write
  else if n = 2 then some .writeMasked
  else if n < 0x1000 then none
  else if n < 0x2000 then some (.atomic (n - 0x1000))
  else if n < 0x3000 then some (.sem (n - 0x2000))
  else if n < 0x4000 then some (.depot (n - 0x3000))
  else if n < 0x4006 then some (.answer (respOf (n - 0x4000)))
  else none

/-- The route entry of destination `d` in the table of port `p` (17 R516). -/
def State.routeEntry (s : State) (p d : Nat) : W32 := nget 0 s.ml.routes (p * 4096 + 2 * d)

/-- Whether the entry has been switched to its alternate (17 R522). -/
def State.routeSwitched (s : State) (p d : Nat) : Bool :=
  s.ml.switched.contains (bits (s.routeEntry p d) 3 0)

/-- Whether a port can take packets. -/
def State.portUp (s : State) (p : Nat) : Bool := p < 12 && (s.port p).st == .up

/-- The port and CLASS that the table of port `t` gives a packet for `d` (17
R515-R517, R522). -/
def State.route (s : State) (t d : Nat) : Option (Nat × Bool) :=
  let e := s.routeEntry t d
  let alt := bits e 7 4
  let useAlt : Option (Nat × Bool) := if bit e 9 && s.portUp alt then some (alt, bit e 11) else none
  if !bit e 8 then none
  else if s.routeSwitched t d then useAlt
  else if s.portUp (bits e 3 0) then some (bits e 3 0, bit e 10)
  else useAlt

/-- A packet joins the send queue of its virtual channel on a port (17 R513). -/
def State.enqueue (s : State) (p : Nat) (cls : Bool) (k : Packet) : State :=
  let vc := k.vc.toNat
  s.modPort p fun port =>
    { port with sendQ := nset vc (nget [] port.sendQ vc ++ [{ k with cls := cls }]) port.sendQ }

/-- A packet that finds no route is dropped and logged (17 R517). -/
def State.dropPacket (s : State) (dest : Nat) : State :=
  State.log { s with ml := { s.ml with noRoute := satInc s.ml.noRoute } } 0x0C 31 none srcErrorLog 0 dest

/-- A packet of this package, numbered and routed by the table of ORIGIN_TABLE;
none where no route exists. `id` goes into its CREDIT field (log 17). -/
def State.launch (s : State) (vc dest : Nat) (ptype : Nat) (op : LinkOp) (addr id : Nat) (carry : Bool)
    (payload : List Byte) : Option State :=
  match s.route s.ml.origin.toNat dest with
  | none => none
  | some (p, cls) =>
    let key := vc * 2048 + dest
    let tseq := nget 0 s.ml.tseqTx key
    let k : Packet :=
      { ptype := BitVec.ofNat 4 ptype, vc := BitVec.ofNat 2 vc, carry := carry
        op := Config.moriqCode op.code, len := payload.length, dest := BitVec.ofNat 11 dest
        src := s.pkg, tseq := tseq, addr := BitVec.ofNat 45 addr, credit := BitVec.ofNat 32 id
        payload := payload
        via := s.ml.origin.toNat }
    some (State.enqueue { s with ml := { s.ml with tseqTx := nset key (tseq + 1) s.ml.tseqTx } } p cls k)

/-- The response to a request from package `dest`, on VC1; dropped and logged
where no route exists (17 R517). A NO_ROUTE answer is counted. -/
def State.answer (s : State) (dest addr id : Nat) (st : RespStatus) (payload : List Byte) : State :=
  match s.launch 1 dest 2 (.answer st) addr id false payload with
  | some t =>
    if st == .noRoute then { t with ml := { t.ml with noRoute := satInc t.ml.noRoute } } else t
  | none => s.dropPacket dest

/-- A request to package `dest`, with the record that waits for its response
(17 R518, R519); none where no route exists. The CREDIT field holds a number and the
15-bit code of the requester (log 17). -/
def State.request (s : State) (vc dest : Nat) (op : LinkOp) (addr : Nat) (carry : Bool) (payload : List Byte)
    (w : Pending) : Option State :=
  let f := s.fresh
  let id := f.1 % 2 ^ 17 * 2 ^ 15 + w.core.getD srcHost.toNat % 2 ^ 15
  match f.2.launch vc dest 1 op addr id carry payload with
  | some t => some { t with ml := { t.ml with waits := t.ml.waits ++ [{ w with id := id, since := t.pw.now }] } }
  | none => none

/-- A NO_ROUTE answer to a requester of this package (17 R517). -/
def State.countNoRoute (s : State) : State := { s with ml := { s.ml with noRoute := satInc s.ml.noRoute } }

end Sys2Proof.Machine
end

