-- ==== Sys2Proof/Machine/Semaphore.lean ====
section
/-!
DEFINITION. The semaphore engines (13): operations, waiting rooms, deadlines,
notification and abandonment. `sem` is the semaphore's number (01 R29).
-/
namespace Sys2Proof.Machine

/-- Codes of Table 13.3. -/
def semOk : Nat := 0
def semTimeout : Nat := 1
def semAbandoned : Nat := 2
def semQueueFull : Nat := 3
def semUnavailable : Nat := 4
def semOwned : Nat := 5
def semNotOwner : Nat := 6
def semOverflow : Nat := 7
def semCancelled : Nat := 8
def semTagBusy : Nat := 9

def SemSt.code : SemSt → Nat
  | .free => 0 | .owned => 1 | .abandoned => 2

/-- A result word (13 Table 13.4). -/
def semWord (status : Nat) (count : W32) : W64 := pack [(32, count.toNat), (0, status)]

/-- SM_STATE (13 Table 13.1). -/
def Sem.stateWord (m : Sem) : W64 := pack [(48, m.st.code), (32, m.owner.toNat), (0, m.count.toNat)]

/-- Local address of a semaphore block (13 R394). -/
def semAddr (sem : Nat) : Nat := 0x0D00_0000_0000 + 64 * sem

/-- One operation of a core changed. -/
def Core.modOp (k : Core) (id : Nat) (f : Op → Op) : Core :=
  { k with ops := mapIf (fun o => o.id == id) f k.ops }

/-- The result word of a wait goes to its caller: a core's operation, which
SEMAPHORE_RESULT then delivers, or another package (13 R401, R416). -/
def State.wake (s : State) (sem : Nat) (w : Waiter) (result : W64) : State :=
  match w.pkg with
  | some p => s.answer p (semAddr sem) w.op .ok (toBytes 8 result.toNat)
  | none => s.modCore w.caller.toNat fun k =>
      k.modOp w.op fun o => { o with stage := .served, res := result }

/-- Waiters served in order while the count covers the oldest (13 R399): what is
left, the waiters that stay, and those served with the count left after each. -/
def serveQueue : W32 → List Waiter → W32 × List Waiter × List (Waiter × W32)
  | count, [] => (count, [], [])
  | count, w :: t =>
    if w.n ≤ count.toNat then
      let left := count - BitVec.ofNat 32 w.n
      let r := serveQueue left t
      (r.1, r.2.1, (w, left) :: r.2.2)
    else (count, w :: t, [])

/-- A notification (13 R412): SEQ, then the flag, then MSI-X. -/
def State.semNotify (s : State) (sem : Nat) : State :=
  let m := s.sem sem
  let m := { m with seq := m.seq + 1 }
  let s := s.setSem sem m
  let flag := pack [(48, m.st.code), (32, m.seq.toNat), (0, m.count.toNat)]
  let s := if m.flagEn then s.hostWrite (m.flagAddr.toNat / 8 * 8) (toBytes 8 flag.toNat) false else s
  if m.msixEn then s.sendMsix m.vector.toNat else s

/-- Service of the waiters of a semaphore. -/
def State.semServe (s : State) (sem : Nat) : State :=
  let m := s.sem sem
  let r := serveQueue m.count m.queue
  let s := s.setSem sem { m with count := r.1, queue := r.2.1 }
  forEach r.2.2 (fun p s => s.wake sem p.1 (semWord semOk p.2)) s

/-- COUNT becomes `v`: service, then notification when it crossed LEVEL (13
R399, R412). -/
def State.semCount (s : State) (sem : Nat) (v : W32) : State :=
  let before := (s.sem sem).count
  let s := s.setSem sem { s.sem sem with count := v }
  let s := s.semServe sem
  let m := s.sem sem
  if before < m.level ∧ m.level ≤ m.count then s.semNotify sem else s

/-- The earliest deadline reached by the timebase, if any. -/
def dueDeadline (now : W64) : List Waiter → Option W64
  | [] => none
  | w :: t =>
    let r := dueDeadline now t
    if w.deadline = 0 ∨ now < w.deadline then r
    else match r with
      | some d => some (if w.deadline < d then w.deadline else d)
      | none => some w.deadline

/-- The waits whose deadline is `d` end with TIMEOUT, and the waiters behind
them are served (13 R402, R403). -/
def State.semTimeoutAt (s : State) (sem : Nat) (d : W64) : State :=
  let m := s.sem sem
  let gone := m.queue.filter fun w => w.deadline == d
  let s := s.setSem sem { m with queue := m.queue.filter fun w => w.deadline != d }
  let s := forEach gone (fun w s => s.wake sem w (semWord semTimeout m.count)) s
  s.semServe sem

/-- Every deadline that the timebase has reached, in order. -/
def State.semExpireN : Nat → Nat → State → State
  | 0, _, s => s
  | n + 1, sem, s =>
    match dueDeadline s.tb.now (s.sem sem).queue with
    | some d => State.semExpireN n sem (s.semTimeoutAt sem d)
    | none => s

def State.semExpire (s : State) (sem : Nat) : State := State.semExpireN (s.sem sem).queue.length sem s

/-- Entries in use in the waiting room of a die (13 R400), the waits that the timebase has
ended not among them. -/
def State.roomUse (s : State) (die : Nat) : Nat :=
  let t := forEach (s.sems.filterMap fun p => if p.1 / 4096 = die then some p.1 else none) (fun i s => s.semExpire i) s
  sumBy (fun p => if p.1 / 4096 = die then p.2.queue.length else 0) t.sems

/-- A result: the state, and the result word, or none for a wait that queued. -/
abbrev SemRes := State × Option W64

/-- The result word of a status with the count left. -/
def State.semDone (s : State) (sem status : Nat) : SemRes := (s, some (semWord status (s.sem sem).count))

/-- SIGNAL(n) of 13 Table 13.2. -/
def State.semSignal (s : State) (sem : Nat) (caller : Source) (n : Nat) : SemRes :=
  let s := s.semExpire sem
  let m := s.sem sem
  if 2 ^ 32 ≤ m.count.toNat + n then s.semDone sem semOverflow
  else
    let s := s.setSem sem { m with lastSignaller := caller }
    let s := if n = 0 then s else s.semCount sem (m.count + BitVec.ofNat 32 n)
    s.semDone sem semOk

/-- The part that WAIT and TRYWAIT share: a status, if it ends at once. -/
def State.semTake (s : State) (sem n : Nat) : Option SemRes :=
  let m := s.sem sem
  if m.st = .abandoned then some (s.semDone sem semAbandoned)
  else if n = 0 then some (s.semDone sem semOk)
  else if m.queue.isEmpty ∧ n ≤ m.count.toNat then
    some (State.semDone (s.setSem sem { m with count := m.count - BitVec.ofNat 32 n }) sem semOk)
  else none

/-- WAIT(n, D) of 13 Table 13.2, R398, R400, R403. -/
def State.semWait (s : State) (sem : Nat) (w : Waiter) : SemRes :=
  let s := s.semExpire sem
  match s.semTake sem w.n with
  | some r => r
  | none =>
    let die := sem / 4096
    let used := s.roomUse die
    if w.deadline ≠ 0 ∧ w.deadline ≤ s.tb.now then s.semDone sem semTimeout
    else if 16384 ≤ used then
      State.semDone (s.setSemDie die { s.semDie die with fullRefused := satInc (s.semDie die).fullRefused })
        sem semQueueFull
    else
      let m := s.sem sem
      let s := s.setSem sem { m with queue := m.queue ++ [w] }
      let d := s.semDie die
      (s.setSemDie die { d with peak := if d.peak.toNat < used + 1 then BitVec.ofNat 15 (used + 1) else d.peak }, none)

/-- TRYWAIT(n). -/
def State.semTry (s : State) (sem n : Nat) : SemRes :=
  let s := s.semExpire sem
  match s.semTake sem n with
  | some r => r
  | none => s.semDone sem semUnavailable

/-- CLAIM by a caller of this package, or of package `pkg`. -/
def State.semClaim (s : State) (sem : Nat) (caller : Source) (pkg : Option Nat) : SemRes :=
  let m := s.sem sem
  match m.st with
  | .abandoned => s.semDone sem semAbandoned
  | .free => State.semDone (s.setSem sem { m with owner := caller, ownerPkg := pkg, st := .owned }) sem semOk
  | .owned => s.semDone sem (if m.owner = caller ∧ m.ownerPkg = pkg then semOk else semOwned)

/-- RELEASE; OWNER reads 0 while free (13 Table 13.1). -/
def State.semRelease (s : State) (sem : Nat) (caller : Source) (pkg : Option Nat) : SemRes :=
  let m := s.sem sem
  if m.st = .owned ∧ m.owner = caller ∧ m.ownerPkg = pkg then
    State.semDone (s.setSem sem { m with owner := 0, ownerPkg := none, st := .free }) sem semOk
  else s.semDone sem semNotOwner

/-- REVIVE(v). -/
def State.semRevive (s : State) (sem : Nat) (v : W32) : SemRes :=
  let s := s.semExpire sem
  let s := s.setSem sem { s.sem sem with owner := 0, ownerPkg := none, st := .free }
  State.semDone (s.semCount sem v) sem semOk

/-- INIT(v). -/
def State.semInit (s : State) (sem : Nat) (v : W32) : SemRes :=
  let s := s.semExpire sem
  State.semDone (s.semCount sem v) sem semOk

/-- The operation of a trigger port of 13 Table 13.7, or none of the kind. -/
def State.semOperate (s : State) (sem port : Nat) (w : Waiter) (v : W64) : SemRes :=
  let s := s.semExpire sem
  match port with
  | 0x690 => s.semSignal sem w.caller v.toNat
  | 0x691 | 0x698 => s.semWait sem w
  | 0x692 => s.semTry sem v.toNat
  | 0x693 => s.semClaim sem w.caller w.pkg
  | 0x694 => s.semRelease sem w.caller w.pkg
  | 0x695 => (s, some (s.sem sem).stateWord)
  | 0x696 => s.semRevive sem (v.setWidth 32)
  | _ => s.semInit sem (v.setWidth 32)

/-- A semaphore becomes abandoned: its waiters return ABANDONED, COUNT and OWNER
stay (13 R412, R414). -/
def State.semAbandon (s : State) (sem : Nat) : State :=
  let s := s.semExpire sem
  let m := s.sem sem
  let s := s.setSem sem { m with st := .abandoned, queue := [] }
  let s := forEach m.queue (fun w s => s.wake sem w (semWord semAbandoned m.count)) s
  if m.onAbandon then s.semNotify sem else s

/-- Whether a source is a core of region `r`. -/
def inRegion (r : Nat) (c : Source) : Bool := decide (c.toNat < numCores) && regionOf c.toNat == r

/-- The semaphores that exist in the tables. -/
def State.semKeys (s : State) : List Nat := s.sems.map Prod.fst

/-- Semaphores owned by cores of region `r` become abandoned (13 R414; log 76). -/
def State.abandonOwned (s : State) (r : Nat) : State :=
  forEach s.semKeys (fun i s =>
    let m := s.sem i
    if m.st = .owned ∧ m.ownerPkg = none ∧ inRegion r m.owner then s.semAbandon i else s) s

/-- Waits of the cores of region `r` that stand in other packages are withdrawn there; what
still answers them finds no requester. -/
def State.withdrawRemote (s : State) (r : Nat) : State :=
  let mine (w : Pending) : Bool := match w.core with
    | some c => regionOf c == r
        && (s.core c).ops.any fun o => o.id == w.acc && (o.port == 0x691 || o.port == 0x698)
    | none => false
  forEach (s.ml.waits.filter mine)
    (fun w s => (s.launch 0 w.pkg 1 (.sem 0x69A) w.addr w.id false (toBytes 8 w.id)).getD s)
    { s with ml := { s.ml with waits := s.ml.waits.filter fun w => !mine w } }

/-- The waiting-room entries of the cores of region `r` are removed (13 R417), those whose
deadline has passed apart; the waiters behind them are served. -/
def State.dropWaiters (s : State) (r : Nat) : State :=
  State.withdrawRemote (forEach s.semKeys (fun i s =>
    let s := s.semExpire i
    let m := s.sem i
    let q := m.queue.filter fun w => w.pkg.isSome || !inRegion r w.caller
    if q.length = m.queue.length then s
    else State.semServe (s.setSem i { m with queue := q }) i) s) r

/-- Posted writes of the host to other packages that are not yet visible. -/
def State.hostWrites (s : State) : List Nat :=
  (s.ml.waits.filter fun w => w.core.isNone && w.queue.isNone && w.acc == 0).map Pending.id

/-- A SIGNAL of the host: applied after every posted write before it (13 R411). -/
def State.hostSignal (s : State) (sem n : Nat) : State :=
  if s.hostWrites.isEmpty && s.hi.signals.isEmpty then (s.semSignal sem srcHost n).1
  else { s with hi := { s.hi with signals := s.hi.signals ++ [{ sem := sem, n := n, after := s.hostWrites }] } }

/-- Up to `n` of the host's waiting SIGNALs whose writes have become visible. -/
def State.hostSignals (s : State) : Nat → State
  | 0 => s
  | n + 1 =>
    match s.hi.signals with
    | [] => s
    | x :: rest =>
      if x.after.any fun i => s.hostWrites.contains i then s
      else State.hostSignals (State.semSignal { s with hi := { s.hi with signals := rest } } x.sem srcHost x.n).1 n

/-- A tag's queued wait is withdrawn (13 R419): whether it was still queued. -/
def State.semWithdraw (s : State) (sem c id : Nat) : State × Bool :=
  let s := s.semExpire sem
  let m := s.sem sem
  let mine : Waiter → Bool := fun w => w.pkg.isNone && w.caller == srcCore c && w.op == id
  if m.queue.any mine then
    (State.semServe (s.setSem sem { m with queue := m.queue.filter fun w => !mine w }) sem, true)
  else (s, false)

/-- REVIVE of every abandoned semaphore of a declared range; the value of COUNT
is free (04 R126; log 21). -/
def State.reviveRange (s : State) (r : Nat) (d : Decl) : State :=
  let lo := r / 4 * 4096 + d.semFirst
  forEach s.semKeys (fun i s =>
    if lo ≤ i ∧ i < lo + d.semCount ∧ (s.sem i).st = .abandoned then
      (s.semRevive i (Config.reviveCount i (s.sem i).count)).1
    else s) s

end Sys2Proof.Machine
end

