-- ==== Sys2Proof/Machine/Coherent.lean ====
section
/-!
DEFINITION. The value that a line of local HBM has (12 R385), wherever its
newest copy is, and the accesses that bypass the die caches (12 Table 12.2):
host DMA, BAR2, other packages, the Depot.
-/
namespace Sys2Proof.Machine

abbrev LineData := List (Option Byte)

def LineSt.dirty : LineSt → Bool
  | .M | .O => true
  | _ => false

/-- Slice of die `d` that holds local HBM line `line` (11 R342). -/
def sliceFor (d line : Nat) : Nat := d * 32 + sliceOf (64 * line)

/-- Key of a way in `Coherence.lines`. -/
def wayKey (slice set way : Nat) : Nat := slice * 32768 + set * 16 + way

/-- The way and the line of `line` in a slice, if held. -/
def State.findLine (s : State) (slice line : Nat) : Option (Nat × Line) :=
  firstIf (fun p => decide (p.1 / 32768 = slice) && p.2.line == line) s.co.lines

def State.siding (s : State) (slice : Nat) : List Siding := nget [] s.co.siding slice

/-- The siding entry of a line (11 Table 11.2). -/
def State.findSiding (s : State) (slice line : Nat) : Option Siding :=
  firstIf (fun e => e.line == line) (s.siding slice)

def State.setLine (s : State) (key : Nat) (l : Line) : State :=
  { s with co := { s.co with lines := nset key l s.co.lines } }
def State.dropLine (s : State) (key : Nat) : State :=
  { s with co := { s.co with lines := nerase key s.co.lines } }
def State.setSiding (s : State) (slice : Nat) (l : List Siding) : State :=
  { s with co := { s.co with siding := if l.isEmpty then nerase slice s.co.siding else nset slice l s.co.siding } }

/-- The holders of a line, as its home agent's duplicate tags list them (12 R361). -/
def State.holders (s : State) (line : Nat) : List (Nat × LineSt) := nget [] s.co.dir line
def State.setHolders (s : State) (line : Nat) (h : List (Nat × LineSt)) : State :=
  { s with co := { s.co with dir := if h.isEmpty then nerase line s.co.dir else nset line h s.co.dir } }

/-- A line as HBM holds it. -/
def State.hbmLine (s : State) (line : Nat) : LineData := s.mem.readN (64 * line) 64

/-- The poison mark of a line in HBM set or cleared (18 R529). -/
def State.markPoison (s : State) (line : Nat) (bad : Bool) : State :=
  { s with poison := if bad then (if s.poison.contains line then s.poison else line :: s.poison)
                     else s.poison.filter (· != line) }

/-- A whole line written to HBM; a whole line clears the fresh state of its
words, and carries its own mark. -/
def State.hbmWriteLine (s : State) (line : Nat) (d : LineData) (bad : Bool) : State :=
  State.markPoison { s with mem := s.mem.writeN (64 * line) d } line bad

/-- Bytes of `new` where given, else those of `old`. -/
def mergeData : LineData → LineData → LineData
  | o :: os, n :: ns => (match n with | some b => some b | none => o) :: mergeData os ns
  | os, [] => os
  | [], ns => ns

/-- The bytes of an access placed in its line of 64. -/
def placeInLine (off : Nat) (bs : List (Option Byte)) : LineData :=
  (List.replicate off none ++ bs ++ List.replicate (64 - off - bs.length) none).take 64

def whole (d : LineData) : Bool := decide (d.length = 64) && d.all (fun b => b.isSome)

/-- A message or copy that carries data newer than HBM. A siding entry whose die the home
agent no longer lists has given its data up. -/
def State.dirtyCopy (s : State) (line : Nat) : Option (LineData × Bool) :=
  match firstIf (fun p => p.2.line == line && p.2.st.dirty) s.co.lines with
  | some p => some (p.2.data, p.2.poison)
  | none =>
    match firstIf (fun e => e.line == line && e.st.dirty)
        ((s.co.siding.filter fun p => (s.holders line).any fun h => h.1 == p.1).flatMap Prod.snd) with
    | some e => some (e.data, e.poison)
    | none =>
      match firstIf (fun g => g.line == line && g.st == .M) s.co.grants with
      | some g => some (g.data, g.poison)
      | none =>
        match firstIf (fun r => r.line == line && r.dirty && r.data.isSome) s.co.resps with
        | some r => some (r.data.getD [], r.poison)
        | none =>
          match firstIf (fun q => q.line == line && q.dirty && q.data.isSome) (s.co.queue.flatMap Prod.snd) with
          | some q => some (q.data.getD [], q.poison)
          | none => none

/-- The newest data of a line and whether it is poisoned. -/
def State.lineNow (s : State) (line : Nat) : LineData × Bool :=
  match s.dirtyCopy line with
  | some p => p
  | none => (s.hbmLine line, s.linePoisoned line)

/-- Whether a transaction on the line has reached its home agent and is under way. -/
def State.lineTaken (s : State) (line : Nat) : Bool :=
  s.co.queue.any (fun p => p.2.any fun q => q.line == line)
    || s.co.probes.any (fun p => p.line == line) || s.co.resps.any (fun p => p.line == line)
    || s.co.grants.any (fun p => p.line == line) || s.co.wbs.any (fun p => p.line == line)
    || s.co.fwds.any (fun f => f.req.line == line)

/-- Whether a die holds the line within its tablet hold (12 R377). -/
def State.lineHeld (s : State) (line : Nat) : Bool := s.co.lines.any fun p => p.2.line == line && p.2.holdEnd.isSome

/-- Whether an access past the die caches must let others have the line first. -/
def State.lineBusy (s : State) (line : Nat) : Bool := s.lineTaken line || s.lineHeld line

def State.agentReqs (s : State) (agent : Nat) : List HReq := nget [] s.co.queue agent

/-- Whether such an access waits: for the line, or for a full queue (12 R363). -/
def State.mustWait (s : State) (line : Nat) : Bool :=
  s.lineBusy line || decide (512 ≤ (s.agentReqs (homeAgent (64 * line))).length)

/-- A store to a line is visible: every L1 copy of it but that of core `keep` is
invalidated (11 R340), and siding entries in flight serve no more loads (12 R385). -/
def State.dropL1 (s : State) (line : Nat) (keep : Option Nat) : State :=
  { s with
    cores := s.cores.map fun p =>
      if keep = some p.1 then p else (p.1, { p.2 with l1 := p.2.l1.filter fun w => w.2.line != line })
    co := { s.co with siding := s.co.siding.map fun p =>
      (p.1, mapIf (fun e => e.line == line && e.issued) (fun e => { e with stale := true }) p.2) } }

/-- Every L1 copy of a line on a die is invalidated (11 R341). -/
def State.dropDieL1 (s : State) (die line : Nat) : State :=
  { s with cores := s.cores.map fun p =>
      if dieOf p.1 = die then (p.1, { p.2 with l1 := p.2.l1.filter fun w => w.2.line != line }) else p }

/-! ## Duplicate tags (12 R361, R362) -/

/-- The home agent's record of a die's state of a line, if it has one. -/
def State.holdAs (s : State) (slice line : Nat) (st : LineSt) : State :=
  s.setHolders line (mapIf (fun p => p.1 == slice) (fun p => (p.1, st)) (s.holders line))

def State.holdNot (s : State) (slice line : Nat) : State :=
  s.setHolders line ((s.holders line).filter fun p => p.1 != slice)

def State.holdNew (s : State) (slice line : Nat) (st : LineSt) : State :=
  s.setHolders line ((s.holders line).filter (fun p => p.1 != slice) ++ [(slice, st)])

/-! ## A die's copy probed (11 R349, 12 R366) -/

/-- State that a probe leaves a line in (12 Table 12.2): none where the copy goes. -/
def ProbeMode.after : ProbeMode → LineSt → Option LineSt
  | .remove, _ => none
  | .share, .M | .share, .O | .read, .M => some .O
  | .share, .E | .share, .S => some .S
  | .read, st | .look, st => some st

/-- What a die gives for a line: the data, whether it is poisoned and dirty, and the state
in which it keeps the line. -/
structure Yield where
  data : Option LineData := none
  poison : Bool := false
  dirty : Bool := false
  left : Option LineSt := none
  deriving DecidableEq, Repr

/-- The operation of a cache-control access is done. -/
def Core.controlDone (k : Core) (a : Access) : Core :=
  { k with accs := k.accs.filter fun x => x.id != a.id, ops := k.ops.filter fun o => o.id != a.op }

/-- A siding entry retires; the CLEANs and FLUSHes that met it complete (11 Table 11.2). -/
def State.retireEntry (s : State) (slice line : Nat) : State :=
  let s := s.setSiding slice (eraseFirst (fun e => e.line == line) (s.siding slice))
  let waits (a : Access) : Bool :=
    (a.kind == .clean || a.kind == .flush) && a.stage == .atSlice && s.isLocal a.addr && localOf a.addr / 64 == line
  { s with cores := s.cores.map fun p =>
      if dieOf p.1 = slice / 32 then (p.1, forEach (p.2.accs.filter waits) (fun a k => k.controlDone a) p.2) else p }

/-- A die's copy is read or removed, and its home's record with it. A siding entry not yet
issued that loses its line retires; one in flight awaits its acknowledgement (11 Table 11.2). -/
def State.yieldLine (s : State) (slice line : Nat) (m : ProbeMode) : State × Yield :=
  match s.findLine slice line with
  | some (key, w) =>
    let y : Yield := { data := some w.data, poison := w.poison, dirty := w.st.dirty, left := m.after w.st }
    (match y.left with
      | some st => (s.setLine key { w with st := st }).holdAs slice line st
      | none => ((s.dropLine key).dropDieL1 (slice / 32) line).holdNot slice line, y)
  | none =>
    match s.findSiding slice line with
    | some e =>
      let y : Yield := { data := some e.data, poison := e.poison, dirty := e.st.dirty, left := m.after e.st }
      (match y.left with
        | some st => (s.setSiding slice (mapIf (fun e => e.line == line) (fun e => { e with st := st })
            (s.siding slice))).holdAs slice line st
        | none => (if e.issued then s else s.retireEntry slice line).holdNot slice line, y)
    | none => (s.holdNot slice line, {})

/-- A probe meets a tablet hold (12 R375, R378). -/
def State.meetHold (s : State) (slice key : Nat) (w : Line) : State :=
  let s := s.setLine key { w with probed := true }
  { s with co := { s.co with holdProbes := nset slice (satInc (nget 0 s.co.holdProbes slice)) s.co.holdProbes } }

/-! ## Home agents' counts -/

/-- CO_HA_STATUS.QUEUE_PEAK sees `n` requests queued (12 R363). -/
def State.notePeak (s : State) (agent n : Nat) : State :=
  if (nget 0 s.co.queuePeak agent).toNat < n then
    { s with co := { s.co with queuePeak := nset agent (BitVec.ofNat 10 n) s.co.queuePeak } }
  else s

/-- CO_HA_STATUS.PROBES counts `n` probes sent. -/
def State.countProbes (s : State) (agent n : Nat) : State :=
  if n = 0 then s
  else { s with co := { s.co with probesSent := nset agent (satAdd (nget 0 s.co.probesSent agent) n) s.co.probesSent } }

/-- CO_HA_STATUS.FAR_ATOMICS counts one (12 Table 12.8). -/
def State.countFar (s : State) (agent : Nat) : State :=
  { s with co := { s.co with farAtomics := nset agent (satInc (nget 0 s.co.farAtomics agent)) s.co.farAtomics } }

/-! ## Accesses past the die caches (12 R371, R378; log 74) -/

/-- The home agent takes such an access: the copies of its line are recalled, or read, with
dirty data written back, and the line's data given. With others before it, a hold running
or the queue full it is held up, and nothing else of it counts. -/
def State.recallLine (s : State) (line : Nat) (remove : Bool) : State × LineData × Bool :=
  let agent := homeAgent (64 * line)
  let now := s.lineNow line
  if s.mustWait line then
    ({ s with co := { s.co with stalled := line :: s.co.stalled } }, now)
  else
    let from_ := (s.holders line).filter fun h => remove || h.2 != .S
    let dirty := (s.dirtyCopy line).isSome
    let s := (s.notePeak agent ((s.agentReqs agent).length + 1)).countProbes agent from_.length
    let s := forEach from_ (fun h s => (s.yieldLine h.1 line (if remove then .remove else .read)).1) s
    (if dirty then s.hbmWriteLine line now.1 now.2 else s, now)

/-- Such a read of a line (12 Table 12.2). -/
def State.bypassReadLine (s : State) (line : Nat) : State × LineData × Bool := s.recallLine line false

/-- Such a write to a line. A whole line clears the poison mark, a narrower write keeps it;
`mark` poisons what it writes (18 R529, R530). -/
def State.bypassWriteLine (s : State) (line : Nat) (d : LineData) (mark : Bool) : State :=
  let r := s.recallLine line true
  let bad := mark || (r.2.2 && !whole d)
  State.hbmWriteLine (r.1.dropL1 line none) line (mergeData r.2.1 d) bad

/-- What held an access up: a line within its hold has been probed (12 R378). -/
def State.heldUp (s : State) (lines : List Nat) : State :=
  forEach lines (fun l s =>
    match firstIf (fun p => p.2.line == l && p.2.holdEnd.isSome && !p.2.probed) s.co.lines with
    | some (key, w) => if s.lineTaken l then s else s.meetHold (key / 32768) key w
    | none => s) s

/-- An access past the die caches acts once the home agents of all its lines serve it; until
then it has no other effect than to probe the lines held (log 74). -/
def State.whenServed (f : State → State) (s : State) : State :=
  let t := f { s with co := { s.co with stalled := [] } }
  if t.co.stalled.isEmpty then { t with co := { t.co with stalled := s.co.stalled } } else s.heldUp t.co.stalled

/-- Bytes of local HBM read past the die caches, and whether one of their lines is
poisoned. -/
def State.bypassRead (s : State) (a n : Nat) : State × List Byte × Bool :=
  let lines := (List.range ((a + n + 63) / 64 - a / 64)).map fun i => a / 64 + i
  let r := lines.foldl (fun (p : State × LineData × Bool) l =>
      let q := p.1.bypassReadLine l
      (q.1, p.2.1 ++ q.2.1, p.2.2 || q.2.2)) (s, [], false)
  (r.1, s.byteVals a ((r.2.1.drop (a % 64)).take n), n != 0 && r.2.2)

/-- The bytes of a run from `a` up that fall in line `l`. -/
def lineBytes (a : Nat) (bs : List (Option Byte)) (l : Nat) : LineData :=
  (List.range 64).map fun i =>
    if a ≤ 64 * l + i then (match nth bs (64 * l + i - a) with | some b => b | none => none) else none

/-- Bytes of local HBM written past the die caches. -/
def State.bypassWrite (s : State) (a : Nat) (bs : List (Option Byte)) (mark : Bool) : State :=
  forEach ((List.range ((a + bs.length + 63) / 64 - a / 64)).map fun i => a / 64 + i)
    (fun l s => s.bypassWriteLine l (lineBytes a bs l) mark) s

end Sys2Proof.Machine
end

