-- ==== Sys2Proof/Machine/DepotTable.lean ====
section
/-!
DEFINITION. The Depot's entry tables in HBM (14 R422-R426) and the namespace
slots (R427, R428).
-/
namespace Sys2Proof.Machine

/-- A Depot entry (14 Table 14.1). -/
structure DxEntry where
  digest : W64
  page : Nat
  age : Nat
  refs : Nat
  tokens : Nat
  slot : Nat
  pinned : Bool
  valid : Bool
  tpp : Nat
  inserted : W64
  deriving DecidableEq, Repr

/-- Base of the table of quarter `j`: DX_TABLE_BASE_j holds bits 44:23 (14 Table 14.4). -/
def State.tableBase (s : State) (j : Nat) : Nat := (nget 0 s.dx.base j).toNat * 2 ^ 23

/-- Local address of way `w` of the bucket of a digest (14 R422). -/
def State.entryAddr (s : State) (digest : W64) (w : Nat) : Nat :=
  s.tableBase (bits digest 1 0) + 512 * bits digest 15 2 + 32 * w

/-- An entry from its 32 bytes. -/
def entryOf (bs : List Byte) : DxEntry :=
  let d0 := ofBytes (bs.take 8)
  let d1 := ofBytes ((bs.drop 8).take 8)
  let d2 := BitVec.ofNat 64 (ofBytes ((bs.drop 16).take 8))
  { digest := BitVec.ofNat 64 d0, page := d1 % 2 ^ 56, age := d1 / 2 ^ 56
    refs := bits d2 23 0, tokens := bits d2 30 24, slot := bits d2 37 32, pinned := bit d2 38
    valid := bit d2 39, tpp := bits d2 41 40, inserted := BitVec.ofNat 64 (ofBytes (bs.drop 24)) }

/-- The 32 bytes of an entry. -/
def DxEntry.bytes (e : DxEntry) : List Byte :=
  toBytes 8 e.digest.toNat ++ toBytes 8 (pack [(0, e.page % 2 ^ 56), (56, e.age % 256)]).toNat
    ++ toBytes 8 (pack [(0, e.refs % 2 ^ 24), (24, e.tokens % 128), (32, e.slot % 64), (38, b2n e.pinned),
        (39, b2n e.valid), (40, e.tpp % 4)]).toNat
    ++ toBytes 8 e.inserted.toNat

/-- A way read past the die caches (14 R424). A poisoned entry is a free way (18 R529). -/
def State.readEntry (s : State) (a : Nat) : State × DxEntry :=
  let r := s.bypassRead a 32
  let e := entryOf r.2.1
  (r.1, if r.2.2 then { e with valid := false } else e)

def State.writeEntry (s : State) (a : Nat) (e : DxEntry) : State :=
  s.bypassWrite a (e.bytes.map some) false

/-- Whether a local address lies in one of the tables. -/
def State.inTable (s : State) (a : Nat) : Bool :=
  (List.range 4).any fun j => decide (s.tableBase j ≤ a) && decide (a < s.tableBase j + 2 ^ 23)

/-- Addresses of the entries that may be in use, rising: those of lines that HBM, or a copy
newer than HBM, holds anything of. -/
def State.scanEntries (s : State) : List Nat :=
  let lines := forEach
    (s.mem.cells.map (fun p => p.1 / 64) ++ s.co.lines.map (fun p => p.2.line)
      ++ (s.co.siding.flatMap Prod.snd).map Siding.line ++ s.co.grants.map Grant.line ++ s.co.resps.map Resp.line
      ++ (s.co.queue.flatMap Prod.snd).map HReq.line)
    (fun l m => nset l () m) ([] : NMap Unit)
  (lines.flatMap fun p => [64 * p.1, 64 * p.1 + 32]).filter s.inTable

/-- The entry at an address, from the newest data of its line. A poisoned entry is a free way
(18 R529). -/
def State.entryNow (s : State) (a : Nat) : DxEntry :=
  let now := s.lineNow (a / 64)
  let e := entryOf (s.byteVals a ((now.1.drop (a % 64)).take 32))
  if now.2 then { e with valid := false } else e

/-- Valid entries with namespace slot `i` in the package (14 Table 14.4). -/
def State.nsEntries (s : State) (i : Nat) : Nat :=
  sumBy (fun a => let e := s.entryNow a; if e.valid && e.slot == i then 1 else 0) s.scanEntries

/-- Declarations in force, of loaded regions. -/
def State.loadedDecls (s : State) : List (Nat × Decl) :=
  s.regions.filterMap fun p => if p.2.st.loaded then p.2.decl.map fun d => (p.1, d) else none

/-- Quota of a namespace value: the sum over the loaded regions that name it (14 R427). -/
def State.nsQuota (s : State) (v : W64) : Nat :=
  sumBy (fun p => if p.2.ns = some v then p.2.quota else 0) s.loadedDecls

/-- The slot that holds a namespace value. -/
def State.nsSlot (s : State) (v : W64) : Option Nat := (firstIf (fun p => p.2 == v) s.dx.ns).map Prod.fst

/-- Slots that no loaded region names and no entry carries become empty (14 R428). -/
def State.nsRefresh (s : State) : State :=
  let named := s.loadedDecls.filterMap fun p => p.2.ns
  { s with dx := { s.dx with ns := s.dx.ns.filter fun p => named.contains p.2 || s.nsEntries p.1 != 0 } }

/-- The lowest empty slot, if any. -/
def freeSlot (ns : NMap W64) : Option Nat := firstIf (fun i => !nhas ns i) (List.range 64)

/-- A value takes the slot that holds it, or the lowest empty one (14 R427); none
where 64 slots are held. -/
def takeSlot (ns : NMap W64) (v : W64) : Option (NMap W64) :=
  if ns.any (fun p => p.2 == v) then some ns
  else (freeSlot ns).map fun i => nset i v ns

/-- Every copy of a line of the tables gone, and every transaction on one ended. -/
def Coherence.without (co : Coherence) (gone : Nat → Bool) : Coherence :=
  { co with
    lines := co.lines.filter fun p => !gone p.2.line
    siding := (co.siding.map fun p => (p.1, p.2.filter fun e => !gone e.line)).filter fun p => !p.2.isEmpty
    dir := co.dir.filter fun p => !gone p.1
    net := co.net.filter fun q => !gone q.line
    queue := (co.queue.map fun p => (p.1, p.2.filter fun q => !gone q.line)).filter fun p => !p.2.isEmpty
    probes := co.probes.filter fun p => !gone p.line
    resps := co.resps.filter fun r => !gone r.line
    grants := co.grants.filter fun g => !gone g.line
    wbs := co.wbs.filter fun w => !gone w.line
    acks := co.acks.filter fun a => !gone a.2
    fwds := co.fwds.filter fun f => !gone f.req.line }

/-- Every entry invalid and every namespace slot empty (14 R425): no core runs that could
still want a line of the tables. -/
def State.depotClear (s : State) : State :=
  let gone (l : Nat) : Bool := s.inTable (64 * l)
  let s := { s with
    dx := { s.dx with ns := [] }
    poison := s.poison.filter fun l => !gone l
    co := s.co.without gone
    cores := s.cores.map fun p => (p.1, { p.2 with l1 := p.2.l1.filter fun w => !gone w.2.line }) }
  forN 4 (fun j s => { s with mem := s.mem.clear (s.tableBase j) (s.tableBase j + 2 ^ 23) }) s

/-- Whether the four table bases are placed as 14 R423 asks. -/
def State.tablesPlaced (s : State) : Bool :=
  let b := (List.range 4).map s.tableBase
  b.all (fun x => decide (x + 2 ^ 23 ≤ 0x48_0000_0000)) && decide b.Nodup

end Sys2Proof.Machine
end

