-- ==== Sys2Proof/Machine/Region.lean ====
section
/-!
DEFINITION. Regions: what park, isolate, start, red flag and reset do to a
region and its cores (03 R82, 04 R123-R130, 05 R177, 06 R190, 18 R532-R535).
-/
namespace Sys2Proof.Machine

/-! ## Cores of a region -/

/-- The given change made to every listed core that satisfies a test. -/
def State.mapCores (s : State) (p : Nat → Bool) (f : Nat → Core → Core) : State :=
  { s with cores := s.cores.map fun q => if p q.1 then (q.1, f q.1 q.2) else q }

/-- Word `w` of minor frame `m` of a core (03 Table 3.4). -/
def Core.frameWord (k : Core) (m w : Nat) : W32 := nget 0 k.cfg (m * 256 + w)

/-- Source `i` becomes pending (06 Table 6.1). -/
def Core.raise (k : Core) (i : Nat) : Core := { k with intPending := k.intPending ||| BitVec.ofNat 32 (2 ^ i) }

/-- The pending bit of a source clears. -/
def Core.unpend (k : Core) (i : Nat) : Core := { k with intPending := k.intPending &&& ~~~BitVec.ofNat 32 (2 ^ i) }

/-- Whether core `c` runs: its region runs, it was started there and has not
stopped (03 R82, 15 R456). -/
def State.running (s : State) (c : Nat) : Bool :=
  let k := s.core c
  (s.region (regionOf c)).st.isRunning && k.active && !k.stopped

/-- Source 4 in every running core of the package (04 R117, 18 R532). -/
def State.regionError (s : State) : State := s.mapCores s.running fun _ k => k.raise 4

/-- Whether the borders of core `c`'s region are isolated (04 R124). -/
def State.isolated (s : State) (c : Nat) : Bool := (s.region (regionOf c)).st.isolated

/-- Stores and atomics that no ordering point has accepted (18 R533). -/
def Access.unaccepted (a : Access) : Bool :=
  a.stage == .issued && (match a.kind with | .store => true | .atomic _ => true | _ => false)

/-- What stays of a stopped core's accesses: the accepted stores and atomics. -/
def Access.survives (a : Access) : Bool :=
  (a.stage == .atSlice || a.stage == .sent)
    && (match a.kind with | .store => true | .atomic _ => true | _ => false)

/-- Addresses of the bytes an access touches. -/
def touched (a : Nat) : List (Option Byte) → List Nat
  | [] => []
  | some _ :: t => a :: touched (a + 1) t
  | none :: t => touched (a + 1) t

/-- Maximal runs of contiguous addresses: first address and length. -/
def runsOf : NMap Unit → List (Nat × Nat)
  | [] => []
  | (a, _) :: t =>
    match runsOf t with
    | (b, n) :: r => if b = a + 1 then (a, n + 1) :: r else (a, 1) :: (b, n) :: r
    | [] => [(a, 1)]

/-- The runs of lost bytes of a core, in canonical form (18 R533). -/
def State.lostRuns (s : State) (c : Nat) : List (Nat × Nat) :=
  runsOf (forEach ((s.core c).accs.filter Access.unaccepted)
    (fun a m => forEach (touched (s.canonical a.addr) a.bytes) (fun x m => nset x () m) m) [])

/-- Whether an operation is a Depot command that has reached its engine: it completes,
and its result is discarded (14 R445). -/
def Core.depotSent (k : Core) (o : Op) : Bool :=
  decide (0x710 ≤ o.port) && decide (o.port ≤ 0x714)
    && !(k.accs.any fun a => decide (a.op < o.id) && a.stage != .served)

/-- A core stops at the point it has reached: what it has not issued or had
accepted is gone (18 R532, R533). -/
def Core.halt (k : Core) : Core :=
  { k with ops := k.ops.filter k.depotSent, accs := (k.accs.filter Access.survives).map fun a => { a with accepted := true }
           due := [], waiting := false, guest := none
           waiti := false, slotVec := none, slotCv := none, slotMx := none, slotMv := none, parkFilled := 0, l1 := []
           carry := none, carriedDue := [], trainIn := [], trainSkip := 0, active := false }

/-- Every core of the region stops: its waits in other packages are withdrawn (13 R417), and
lost stores are logged (18 R533). -/
def State.haltRegion (s : State) (r : Nat) : State :=
  let s := s.withdrawRemote r
  let mine := (s.cores.map Prod.fst).filter fun c => regionOf c == r
  let s := forEach mine (fun c s => forEach (s.lostRuns c) (fun run s =>
      s.log 0x07 (r / 4) (some r) (srcCore c) run.1 run.2) s) s
  s.mapCores (fun c => regionOf c == r) fun _ k => k.halt

/-- Doorbells held for a parked region are answered REGION_ISOLATED (04 Table 4.4). -/
def State.refuseDoorbells (s : State) (r : Nat) : State :=
  let held := (s.cores.filter fun p => regionOf p.1 == r && bit p.2.intPending 2).map Prod.fst
  forEach held (fun c s =>
    { (s.modCore c fun k => k.unpend 2) with
      hi := { s.hi with dbIsolated := satInc s.hi.dbIsolated, errKind := 2
                        errAddr := Config.doorbellAddr c } }) s

/-- What isolation does beyond the border itself (04 R124, Table 4.4, 13 R414,
R417): held doorbells of a parked region, semaphores, waiting-room entries, L1s. -/
def State.isolateEffects (s : State) (r : Nat) (parked : Bool) : State :=
  let s := if parked then s.refuseDoorbells r else s
  let s := s.abandonOwned r
  let s := s.dropWaiters r
  s.mapCores (fun c => regionOf c == r) fun _ k => { k with l1 := [] }

/-! ## Park, isolate, unisolate -/

/-- A PARK reaches the region (04 R123, R128): running cores begin to stop. -/
def State.parkRegion (s : State) (r : Nat) : State :=
  s.modRegion r fun g => if g.st.isRunning then { g with parking := true } else g

/-- ISOLATE of a parked region (04 R124). -/
def State.isolateRegion (s : State) (r : Nat) : State :=
  let g := s.region r
  if g.st = .parked then
    State.isolateEffects (s.setRegion r { g with st := .parkedIsolated }) r true
  else s

/-- Every core has stopped (04 R123, Table 4.10); an aborted load isolates the
region as well (04 R107). -/
def State.parkDone (s : State) (r : Nat) : State :=
  let g := s.region r
  let s := s.setRegion r
    { g with parking := false, thenIsolate := false
             st := match g.st with
               | .running => .parked
               | .startedIsolated => .parkedIsolated
               | x => x }
  if g.thenIsolate then s.isolateRegion r else s

/-- PARK with its hold (04 R129): source 1 host, 2 signal box. -/
def State.parkHeld (s : State) (r src : Nat) : State :=
  State.parkRegion (s.modRegion r fun g => { g with parkHold := true, parkSrc := BitVec.ofNat 2 src }) r

/-- UNISOLATE by the image (03 R582, 04 R128, R129). -/
def State.unisolateRegion (s : State) (r : Nat) : State :=
  s.modRegion r fun g =>
    if g.resetHold then (if g.st.loaded then { g with unisoHeld := true } else g)
    else match g.st with
      | .parkedIsolated => { g with st := .parked }
      | .startedIsolated => { g with st := .running }
      | _ => g

/-! ## Start and run -/

/-- A core when its region starts (05 R177, 06 R190, 07 R231, 10 R296): registers,
ports and descriptors at their reset values, g62 at CP_STACK_TOP, enables, priorities and
train neighbours from the structure frame; one of the rectangle runs, with INT_MODE and
ENTRY from the declaration (03 R82). -/
def Core.start (pkg c : Nat) (d : Decl) (inside : Bool) (k : Core) : Core :=
  let z := Core.reset pkg c
  { z with
    gpr := [(62, z.stackTop.cur)], cfg := k.cfg, cfgBad := k.cfgBad
    pc := if inside then BitVec.ofNat 11 d.entry else 0
    intMode := { cur := if inside then d.intMode.setWidth 64 else 0 }
    intEnable := k.frameWord 50 24
    intPriority := pack [(0, (k.frameWord 50 25).toNat), (32, (k.frameWord 50 26).toNat)]
    train := BitVec.ofNat 32 (bits (k.frameWord 50 16) 10 0 + bits (k.frameWord 50 17) 10 0 * 65536)
    active := inside, nextId := k.nextId, accs := k.accs.filter Access.survives }

/-- Every core of the region starts; those outside the declared rectangle stay parked
(03 R82, 06 R190). -/
def State.startCores (s : State) (r : Nat) (d : Decl) : State :=
  let s := s.mapCores (fun c => regionOf c == r && !inDecl r d c) fun c k => Core.start s.pkg.toNat c d false k
  forEach (declCores r d) (fun c s => s.setCore c (Core.start s.pkg.toNat c d true (s.core c))) s

/-- The region runs from its ENTRY bundles, isolated or not as it stands. -/
def State.runFromEntry (s : State) (r : Nat) : State :=
  let g := s.region r
  match g.decl with
  | none => s
  | some d =>
    let g := { g with hasRun := true, startHeld := false, unisoHeld := false
                      cls := BitVec.ofNat 2 d.cls, floor := d.floor, weight := d.weight
                      st := if g.st.isolated then .startedIsolated else .running }
    State.startCores (s.setRegion r g) r d

/-- START of the image reaches the region (04 R128, R129): a hold keeps it
parked, a red flag or an unloaded state outranks it. -/
def State.startRegion (s : State) (r : Nat) : State :=
  let g := s.region r
  if g.st = .parkedIsolated ∨ g.st = .writing ∨ g.st = .parked then
    if g.parkHold || g.resetHold then
      s.setRegion r { g with startHeld := true, st := if g.st = .writing then .parkedIsolated else g.st }
    else
      s.runFromEntry r
  else s

/-- Whether RUN takes effect (04 R129). -/
def State.runsOn (s : State) (r : Nat) : Bool :=
  let g := s.region r
  g.st == .parked && !g.parkHold && !g.resetHold

/-- RUN (04 R129): resume, or start one that has not run since its last load. -/
def State.runRegion (s : State) (r : Nat) : State :=
  let g := s.region r
  if s.runsOn r then
    if g.hasRun then s.setRegion r { g with st := .running } else s.runFromEntry r
  else s

/-- The host clears holds (04 R129, Table 4.9): when none remains, a held START
runs, after a held UNISOLATE. -/
def State.clearHolds (s : State) (r : Nat) (park reset : Bool) : State :=
  let g := s.region r
  let g := if park && g.parkHold then
      { g with parkHold := false, parkSrc := 0, parkedBudget := false, parkedTrip := false } else g
  let g := if reset then { g with resetHold := false } else g
  let runs := !g.parkHold && !g.resetHold && g.startHeld && (g.st == .parked || g.st == .parkedIsolated)
  let g := if runs && g.unisoHeld then { g with st := .parked } else g
  let s := s.setRegion r g
  if runs then s.runFromEntry r else s

/-! ## Unloading and the red flag -/

/-- The bad yard words of a region rewritten with zeros (18 R535). -/
def State.mendYards (s : State) (r : Nat) : State :=
  let mine : Nat → Bool := fun w => match decodeLocal w with | .yard c _ => regionOf c == r | _ => false
  forEach (s.yardBad.filter mine)
    (fun w s => { s with mem := s.mem.writeN w (List.replicate 8 (some 0)) })
    { s with yardBad := s.yardBad.filter fun w => !mine w }

/-- The region unloaded: no image, no reservation, isolated (04 R108, R122). START_HELD
stays until the held START runs or the region is admitted again (Table 4.10). -/
def State.unloadRegion (s : State) (r : Nat) : State :=
  State.nsRefresh (s.modRegion r fun g =>
    { g with st := .unloaded, parking := false, thenIsolate := false, hasRun := false, decl := none })

/-- The red flag (18 R532) on a region that does not carry it yet. It is no write to
RGN_CTRL and leaves LAST_WRITER alone (DESIGN CHOICE, log 69). -/
def State.redFlagEffects (s : State) (r : Nat) : State :=
  let parked := (s.region r).st == .parked
  let s := s.haltRegion r
  let s := s.modRegion r fun g => { g with st := .red, parking := false, thenIsolate := false }
  let s := s.isolateEffects r parked
  let s := s.regionError
  s.alert 3

/-- A detection that red-flags a region (18 R532, R534): its log entry, then the
red flag unless the region carries one. -/
def State.redFlag (s : State) (r kind : Nat) (src : Source) (addr detail : Nat) : State :=
  let s := s.log kind (r / 4) (some r) src addr detail
  if (s.region r).st = .red then s else s.redFlagEffects r

/-- RESET of a region (04 Table 4.8, R129; 18 R533, R535). -/
def State.resetRegion (s : State) (r : Nat) (src : Source) : State :=
  let parked := (s.region r).st == .parked
  let s := s.haltRegion r
  let s := s.isolateEffects r parked
  let s := s.unloadRegion r
  let s := s.mendYards r
  if src = srcHost then s.modRegion r fun g => { g with resetHold := true } else s

/-- CLEAR_RED by the host (04 Table 4.8, 18 R535). -/
def State.clearRedFlag (s : State) (r : Nat) : State :=
  if (s.region r).st = .red then State.mendYards (s.unloadRegion r) r else s

/-! ## RGN_CTRL and RGN_HOLD -/

/-- LAST_WRITER of RGN_CTRL (04 R130). -/
def State.rgnWriter (s : State) (r : Nat) (src : Source) : State :=
  s.modRegion r fun g => { g with lastWriter := src }

/-- RGN_CTRL.PARK (04 R123, R128, R129). -/
def State.ctrlPark (s : State) (r : Nat) (src : Source) : State :=
  if src = srcHost then State.rgnWriter (s.parkHeld r 1) r src
  else if src = srcSignalBox then State.rgnWriter (s.parkHeld r 2) r src
  else if (s.region r).st.isRunning then State.rgnWriter (s.parkRegion r) r src
  else s

/-- RGN_CTRL.RUN. -/
def State.ctrlRun (s : State) (r : Nat) (src : Source) : State :=
  if s.runsOn r then State.rgnWriter (s.runRegion r) r src else s

/-- RGN_CTRL.RESET. -/
def State.ctrlReset (s : State) (r : Nat) (src : Source) : State :=
  State.rgnWriter (s.resetRegion r src) r src

/-- RGN_CTRL.CLEAR_RED: from another source it is ignored and counted (04 R129). -/
def State.ctrlClearRed (s : State) (r : Nat) (src : Source) : State :=
  if src = srcHost then
    if (s.region r).st = .red then State.rgnWriter (s.clearRedFlag r) r src else s
  else s.modRegion r fun g => { g with ignored := satInc g.ignored }

/-- A write to RGN_CTRL: the more restrictive commands first (04 R128). -/
def State.rgnCtrl (s : State) (r v : Nat) (src : Source) : State :=
  let s := onlyIf (v.testBit 2) (fun s => s.ctrlReset r src) s
  let s := onlyIf (v.testBit 3) (fun s => s.ctrlClearRed r src) s
  let s := onlyIf (v.testBit 0) (fun s => s.ctrlPark r src) s
  onlyIf (v.testBit 1) (fun s => s.ctrlRun r src) s

/-- A write to RGN_HOLD (04 R129). -/
def State.rgnHold (s : State) (r : Nat) (park reset : Bool) (src : Source) : State :=
  if !park && !reset then s
  else if src = srcHost then s.clearHolds r park reset
  else s.modRegion r fun g => { g with ignored := satInc g.ignored }

end Sys2Proof.Machine
end

