-- ==== Sys2Proof/WellFormed.lean ====
section
/-!
DEFINITION. Which commands name units that the package has (01 R21, R27-R29, and
the counts each unit's chapter gives) with operands of a size the device takes.
-/
namespace Sys2Proof

/-- A request to a semaphore names a core or one of the 65,536 semaphores (13 R394). -/
def SemReq.wf : SemReq → Bool
  | .core c => c < 25600
  | .direct _ sem _ => sem < 65536

/-- A Depot request names a core or one of the 64 command slots (14 R446). -/
def DxReq.wf : DxReq → Bool
  | .core c => c < 25600
  | .slot n => n < 64

/-- A carried signal belongs to a core, one of 64 queues, or a packet (13 R408). -/
def CarryReq.wf : CarryReq → Bool
  | .core c => c < 25600
  | .queue q => q < 64
  | .packet => true

/-- A telemetry channel that exists (15 Table 15.2). -/
def Channel.wf : Channel → Bool
  | .regionCurrent r | .regionVoltage r => r < 64
  | .junctionCurrent j => j < 4
  | .regionTemp s => s < 512
  | .hbmTemp h => h < 8

/-- Slices, home agents or sections an engine name selects (18 R531). -/
def Engine.units : Engine → Nat
  | .homeAgent => 64
  | .semaphore => 16
  | .depot => 4

/-- Frames of a core, or route frames of a port (03 Tables 3.3-3.5). -/
def PatrolTarget.wf : PatrolTarget → Bool
  | .frame c minor => c < 25600 && minor < 51
  | .route p minor => p < 12 && minor < 16

/-- A codeword carries 20 units of 32 bytes (17 R507). -/
def Codeword.wf : Codeword → Bool
  | .discarded => true
  | .decoded _ _ units => units.length == 20 && units.all fun u => u.length == 32

/-- An access within BAR2 that crosses no 4 KiB boundary, as PCIe asks (16 R482; log 11). -/
def bar2Fits (offset len : Nat) : Bool :=
  0 < len && offset % 4096 + len ≤ 4096 && offset + len ≤ 2 ^ 36

/-- The command names units that exist. -/
def Instr.WellFormed : Instr → Bool
  | .perstNRise .. | .perstNAssert | .railInRange .. | .railOutOfRange .. | .timebaseTick .. => true
  | .refLost | .refclkLock | .refLostClear | .hbmReady | .bootStoreScan | .hbmTrainTimeout _ => true
  | .winProducedWrite .. | .go | .abort | .sync | .nop | .declare | .admission | .writeCfg => true
  | .setFar | .writeFrames | .bcastFrames | .frameApply | .bcastFrameApply | .park => true
  | .regionParked r prog => r < 64 && prog.all fun p => p.1 < 25600
  | .isolate | .checkEnd | .waitRightAway | .raRelease | .rightAwayRise | .rightAwayFall => true
  | .raQualified | .rightAwayTimeout | .raLowEvent | .start | .unisolate | .loadEnd => true
  | .rgnCtrlPark r _ | .run r _ | .reset r _ | .clearRed r _ => r < 64
  | .rgnHoldClear r _ _ _ => r < 64
  | .registerWrite .. => true
  | .bundleExecute c _ _ _ => c < 25600
  | .scalarOpComplete c unit => c < 25600 && unit < 3
  | .memoryResponse c _ _ _ | .storeAccepted c _ _ | .fenceComplete c | .guestAck c => c < 25600
  | .guestTimeout c | .guestLogicInterrupt c | .cpTimerCmpWrite c _ | .coreTimer c => c < 25600
  | .interruptEntry c _ | .exceptionEntry c | .convertComplete c | .vectorOpComplete c => c < 25600
  | .intervalStep c _ | .trainHeader c | .matrixOpComplete c _ | .tmoveComplete c => c < 25600
  | .remoteYardAccess c _ _ | .sliceAccess c _ _ => c < 25600
  | .sidingIssue slice => slice < 512
  | .sidingRetire _ => true
  | .awRangeWrite n _ _ => n < 64
  | .awAttrWrite n _ _ => n < 65
  | .homeRequest _ | .forwardedRequest _ | .probe _ | .probeResponse _ | .lineGrant _ => true
  | .tabletHoldEnd slice _ => slice < 512
  | .writebackArrival _ => true
  | .farAtomic agent => agent < 64
  | .coPredClear _ => true
  | .signal q | .wait q | .trywait q | .claim q | .release q | .read q | .revive q | .init q => q.wf
  | .waitDeadline sem => sem < 65536
  | .carriedSignal q => q.wf
  | .semaphoreResult c _ => c < 25600
  | .lookup q | .lookupBlock q | .insert q | .pin q | .depotRelease q | .ageScan q => q.wf
  | .depotAsyncComplete c => c < 25600
  | .depotSlotTrigger slot _ _ => slot < 64
  | .epoch => true
  | .brakeReevaluate r => r < 64
  | .telemetrySample ch _ _ => ch.wf
  | .picture | .pwrCapNAssert .. | .pwrCapNRelease | .sbBoardCeilWrite .. | .thermtripClear => true
  | .configRequest offset size _ => (size == 1 || size == 2 || size == 4) && offset % size == 0
      && offset < 4096
  | .bar2Read o len _ => bar2Fits o len
  | .bar2Write o bytes _ => bar2Fits o bytes.length
  | .bar2AtomicOp op o size _ _ _ => bar2Fits o size && (size == 4 || size == 8 || (size == 16 && op == .cas))
  | .hostReadFailure c _ => c < 25600
  | .hiCoreDbWrite _ | .functionLevelReset => true
  | .msixUnmask vector => vector < 2048
  | .hiQTailWrite q _ _ | .queueEnableWrite q _ | .queueReset q => q < 64
  | .dmaDescriptorStart q _ _ | .dmaDescriptorComplete q _ _ => q < 64
  | .codewordReceive p cw => p < 12 && cw.wf
  | .markerCodeword p => p < 12
  | .packetSend p vc => p < 12 && vc < 4
  | .packetReceive p | .linkControl p | .replayTimeout p => p < 12
  | .remoteRequest _ | .respTimeout _ => true
  | .trainingComplete p peerPkg peerPort => p < 12 && peerPkg < 2048 && peerPort < 16
  | .portFail p | .mlPortEnableWrite p _ _ | .retrain p _ => p < 12
  | .timebaseExchange .. => true
  | .configPatrol t _ => t.wf
  | .hbmScrub line _ => line < 0x1_2000_0000
  | .engineRecovered e unit _ => unit < e.units
  | .ecHeadWrite _ | .smbusReady | .identity | .status | .alertRead | .alertWrite .. => true
  | .alertResponse | .boardCeilRead | .boardCeilWrite .. | .power | .temps | .regAddr .. => true
  | .regDataRead | .regDataWrite .. | .flashRead .. | .program .. | .slotErase .. => true
  | .eraseBlockDone | .commit .. | .rescan .. => true
  | .uartDataWrite u _ | .uartTxByte u | .uartRxByte u _ => u < 2
  | .extest | .idcode | .samplePreload .. | .clamp | .highz => true
  | .bypass code => !([0, 1, 2, 4, 5].contains code.toNat)
  | .gpioFuncWrite p _ _ | .gpioParkEnd p _ | .extEdge p => p < 16
  | .tpoEdge n => n < 4
  | .pmbusPoll b _ => b < 16
  | .registerRead .. => true
  | .pcieLinkUp .. | .flashCommandDone | .resumedEraseTimeout => true

end Sys2Proof
end

