-- ==== Sys2Proof/Machine/DeviceAccess.lean ====
section
/-!
DEFINITION. Accesses to this package's HBM and yards that come from outside the
fabric: host BAR2, DMA, other packages (12 Table 12.2, 11 R333, R334, 01 R44).
-/
namespace Sys2Proof.Machine

/-! ## Yards with errors (18 Table 18.1) -/

/-- The first word of [a, a + n) that holds an uncorrectable error. -/
def State.firstBadWord (s : State) (a n : Nat) : Option Nat := firstIf s.yardWordBad (wordsOf a n)

/-- An access met an uncorrectable error of core `c`'s yard: its region is
red-flagged (18 R525, Table 18.6). -/
def State.uncorrYard (s : State) (c w : Nat) : State :=
  let s := { s with yardBad := if s.yardBad.contains w then s.yardBad else w :: s.yardBad }
  s.redFlag (regionOf c) 0x01 (srcCore c) (s.canonical (s.pkg.toNat * 2 ^ 45 + w)) (w - yardBase c)

/-- The ECC that a command reports for the words an access reads (log 6):
corrected errors are counted, an uncorrectable one marks the first word. -/
def State.yardEcc (s : State) (a : Nat) : Ecc → State
  | .clean => s
  | .corrected => s.corrected 0
  | .uncorrectable => { s with yardBad := if s.yardBad.contains (a / 8 * 8) then s.yardBad else (a / 8 * 8) :: s.yardBad }

/-- Words that a yard write of `bs` from `a` up merges into, and so reads (11 R331). -/
def mergedWords (a : Nat) (bs : List (Option Byte)) : List Nat :=
  (wordsOf a bs.length).filter fun w =>
    (laneOf a bs w).any (fun b => b.isSome) && (laneOf a bs w).any (fun b => b.isNone)

/-- The first of them that holds an uncorrectable error. -/
def State.firstBadMerge (s : State) (a : Nat) (bs : List (Option Byte)) : Option Nat :=
  firstIf s.yardWordBad (mergedWords a bs)

/-- The same report for a yard write: one that covers whole words reads none (11 R331). -/
def State.mergeEcc (s : State) (a : Nat) (bs : List (Option Byte)) (ecc : Ecc) : State :=
  match mergedWords a bs with
  | w :: _ => s.yardEcc w ecc
  | [] => s

/-! ## ECC of caches and HBM (18 R525; log 6) -/

/-- A line becomes poisoned in HBM, with its log entry (18 R528, Table 18.6). -/
def State.poisonHbm (s : State) (line : Nat) : State :=
  if s.poison.contains line then s
  else State.log (s.markPoison line true) 0x03 (16 + homeAgent (64 * line) / 16) none srcErrorLog
    (s.canonical (s.pkg.toNat * 2 ^ 45 + 64 * line)) 2

/-- The ECC that HBM reports for a line that is read (18 R525, R526; log 6). -/
def State.hbmEcc (s : State) (line : Nat) : Ecc → State
  | .clean => s
  | .corrected => s.corrected 3
  | .uncorrectable => s.poisonHbm line

/-- A poisoned line is logged (18 Table 18.6). -/
def State.logPoison (s : State) (slice line detail : Nat) : State :=
  s.log 0x03 (slice / 32) none srcErrorLog (s.canonical (s.pkg.toNat * 2 ^ 45 + 64 * line)) detail

/-- What the storage that an access meets reports: the set, the siding or HBM. -/
def State.sliceEcc (s : State) (slice line : Nat) (ecc : Ecc) : State :=
  match s.findLine slice line, s.findSiding slice line with
  | some (key, w), _ =>
    (match ecc with
      | .clean => s
      | .corrected => s.corrected 2
      | .uncorrectable =>
        if w.poison then s else (s.setLine key { w with poison := true }).logPoison slice line 0)
  | none, some e =>
    (match ecc with
      | .clean => s
      | .corrected => s.corrected 2
      | .uncorrectable =>
        if e.poison then s
        else (s.setSiding slice (mapIf (fun e => e.line == line) (fun e => { e with poison := true })
          (s.siding slice))).logPoison slice line 1)
  | none, none => s.hbmEcc line ecc

/-- The ECC that an access past the die caches meets: of the copy that supplies the line, or
of HBM. -/
def State.lineEcc (s : State) (line : Nat) (ecc : Ecc) : State :=
  match firstIf (fun h => h.2.dirty) (s.holders line) with
  | some h => s.sliceEcc h.1 line ecc
  | none => s.hbmEcc line ecc

/-! ## Pieces within one line -/

/-- [a, a + n) cut at line boundaries: address, offset and length of each piece. -/
def pieces (a n : Nat) : List (Nat × Nat × Nat) :=
  (List.range (if n = 0 then 0 else (a + n + 63) / 64 - a / 64)).map fun i =>
    let lo := max a (64 * (a / 64 + i))
    let hi := min (a + n) (64 * (a / 64 + i) + 64)
    (lo, lo - a, hi - lo)

/-- Result of one piece: how it was answered, its bytes, and whether they are poisoned. -/
structure Answer where
  st : RespStatus := .ok
  bytes : List Byte := []
  poison : Bool := false
  deriving DecidableEq, Repr

/-- A read of a piece of local memory. -/
def State.readPiece (s : State) (a n : Nat) : State × Answer :=
  match decodeLocal a with
  | .hbm x =>
    if s.pw.hbm = .ready then
      let r := s.bypassRead x n
      (r.1, { bytes := r.2.1, poison := r.2.2 })
    else (s, { st := .unmapped })
  | .yard c o =>
    if 0x2_0000 < o + n then (s, { st := .unmapped })
    else if s.isolated c then (s, { st := .isolated })
    else match s.firstBadWord a n with
      | some w => (s.uncorrYard c w, { st := .isolated })
      | none => (s, { bytes := (s.yardRead a n).1 })
  | _ => (s, { st := .unmapped })

/-- A write of a piece of local memory; `mark` poisons an HBM line. -/
def State.writePiece (s : State) (a : Nat) (bs : List (Option Byte)) (mark : Bool) : State × RespStatus :=
  match decodeLocal a with
  | .hbm x => if s.pw.hbm = .ready then (s.bypassWrite x bs mark, .ok) else (s, .unmapped)
  | .yard c o =>
    if 0x2_0000 < o + bs.length then (s, .unmapped)
    else if s.isolated c then (s, .isolated)
    else
      let r := s.yardWrite a bs
      if r.2 then
        (match s.firstBadMerge a bs with
          | some w => (s.uncorrYard c w, .isolated)
          | none => (r.1, .ok))
      else (r.1, .ok)
  | _ => (s, .unmapped)

/-- What a read of many pieces gives: the bytes (none where a piece failed), the
lowest failure, the first poisoned address. -/
structure RangeRead where
  bytes : List (Option Byte) := []
  bad : Option (Nat × RespStatus) := none
  poison : Option Nat := none
  deriving DecidableEq, Repr

/-- The report of a command for the first word, or line, that an access from outside reads. -/
def State.readEcc (s : State) (a n : Nat) (ecc : Ecc) : State :=
  match (if n = 0 then .unmapped else decodeLocal a) with
  | .hbm x => if s.pw.hbm = .ready then s.lineEcc (x / 64) ecc else s
  | .yard c _ => if s.isolated c then s else s.yardEcc a ecc
  | _ => s

/-- The same for the words that a write from outside merges into. -/
def State.writeEcc (s : State) (a : Nat) (bs : List (Option Byte)) (ecc : Ecc) : State :=
  match decodeLocal a with
  | .yard c _ => if s.isolated c then s else s.mergeEcc a bs ecc
  | _ => s

/-- A read of a range of local memory, piece by piece in ascending order. -/
def State.readRange (s : State) (a n : Nat) : State × RangeRead :=
  (pieces a n).foldl (fun (p : State × RangeRead) q =>
    let r := p.1.readPiece q.1 q.2.2
    if r.2.st = .ok then
      (r.1, { p.2 with
        bytes := p.2.bytes ++ r.2.bytes.map some
        poison := if r.2.poison && p.2.poison.isNone then some q.1 else p.2.poison })
    else
      (r.1, { p.2 with
        bytes := p.2.bytes ++ List.replicate q.2.2 none
        bad := if p.2.bad.isNone then some (q.2.1, r.2.st) else p.2.bad })) (s, {})

/-- A write of a range of local memory: the lowest failure, if any. -/
def State.writeRange (s : State) (a : Nat) (bs : List (Option Byte)) (mark : Bool) :
    State × Option (Nat × RespStatus) :=
  (pieces a bs.length).foldl (fun (p : State × Option (Nat × RespStatus)) q =>
    let r := p.1.writePiece q.1 ((bs.drop q.2.1).take q.2.2) mark
    (r.1, if r.2 ≠ .ok ∧ p.2.isNone then some (q.2.1, r.2) else p.2)) (s, none)

end Sys2Proof.Machine
end

