-- ==== Sys2Proof/Machine/MoriqPort.lean ====
section
/-!
DEFINITION. One Moriq port (17 R505-R514, R521-R524): its states and the
switch-over, received codewords, acknowledgements, credits and replay, the
timebase exchange.
-/
namespace Sys2Proof.Machine

/-! ## States and switch-over -/

/-- The port at link-up or while it is down: nothing queued, counts kept (17 R512). -/
def Port.clear (k : Port) (st : PortSt) : Port :=
  { k with
    st := st, txSeq := 0, rxSeq := 0, replay := [], sendQ := [], credit := [], used := [], freed := []
    rxCur := [], resync := false, rxPkts := [], stalls := 0, sentAt := 0 }

/-- A packet goes in front of what waits on a port (the ordering fence, 17 R522). -/
def State.enqueueFront (s : State) (p : Nat) (cls : Bool) (k : Packet) : State :=
  let vc := k.vc.toNat
  s.modPort p fun port =>
    { port with sendQ := nset vc ({ k with cls := cls } :: nget [] port.sendQ vc) port.sendQ }

/-- A request of this package that finds no route is answered NO_ROUTE here (17 R517). -/
def State.refuseOwn (s : State) (k : Packet) : State :=
  let mine : Pending → Bool := fun w => w.pkg == k.dest.toNat && w.id == k.credit.toNat
  State.countNoRoute { s with ml := { s.ml with
    waits := mapIf mine (fun w => { w with refused := true }) s.ml.waits } }

/-- A packet without a route: a request is answered NO_ROUTE, anything else is
dropped and logged (17 R517). -/
def State.unroutable (s : State) (k : Packet) : State :=
  if k.ptype = 1 then
    if k.src = s.pkg then s.refuseOwn k else s.answer k.src.toNat k.addr.toNat k.credit.toNat .noRoute []
  else s.dropPacket k.dest.toNat

/-- A packet of a port that left UP goes first on its destination's alternate port. -/
def State.reroute (s : State) (k : Packet) : State :=
  match s.route k.via k.dest.toNat with
  | some (p, cls) => s.enqueueFront p cls k
  | none => s.unroutable k

/-- The packets that a port has not seen acknowledged, in SEQ order, then those it
had not sent. -/
def Port.unsent (k : Port) : List Packet := k.replay ++ k.sendQ.flatMap Prod.snd

/-- A port leaves UP for the state `st` (17 R522, R524). -/
def State.leaveUp (s : State) (p : Nat) (st : PortSt) : State :=
  let lost := (s.port p).unsent
  let s := s.modPort p fun k => k.clear st
  let parent := s.ml.parentEn && s.ml.parent.toNat == p
  let s := { s with
    tb := if parent then { s.tb with synced := false, good := 0 } else s.tb
    ml := { s.ml with
      switched := if s.ml.switched.contains p then s.ml.switched else p :: s.ml.switched
      switchovers := satInc s.ml.switchovers } }
  State.hostEvent (forEach lost.reverse (fun k s => s.reroute k) s) 5

/-- Port `p` enters the state `st`; a change of its STATE is event 5 (16 Table 16.4). -/
def State.portTo (s : State) (p : Nat) (st : PortSt) : State :=
  let t := s.modPort p fun k => k.clear st
  if (s.port p).st = st then t else t.hostEvent 5

/-- The port enters a state other than UP. -/
def State.portDown (s : State) (p : Nat) (st : PortSt) : State :=
  if (s.port p).st = .up then s.leaveUp p st else s.portTo p st

/-- PORT_FAIL (17 Table 17.5): the port is FAILED until its retraining completes. -/
def execPortFail (p : Nat) (s : State) : Host.Outcome State Fault Refusal :=
  need (Instr.portFail p).WellFormed s fun s => whenUp s fun s =>
    if (s.port p).st = .up then s.leaveUp p .failed else s

/-- ENABLE of a port written (17 R521). -/
def State.portEnable (s : State) (p : Nat) (enable : Bool) (src : Source) : State :=
  let s := s.modPort p fun k => { k with enable := enable, writer := src }
  if !enable then s.portDown p .disabled
  else if (s.port p).st = .disabled then s.portTo p .training
  else s

/-- RETRAIN of a port written (17 Table 17.5). -/
def State.portRetrain (s : State) (p : Nat) (src : Source) : State :=
  if (s.port p).enable then State.modPort (s.portDown p .training) p fun k => { k with writer := src } else s

/-- ML_PORT_ENABLE_WRITE. -/
def execMlPortEnableWrite (p : Nat) (enable : Bool) (src : Source) (s : State) :
    Host.Outcome State Fault Refusal :=
  need (Instr.mlPortEnableWrite p enable src).WellFormed s fun s => whenUp s fun s => s.portEnable p enable src

/-- RETRAIN. -/
def execRetrain (p : Nat) (src : Source) (s : State) : Host.Outcome State Fault Refusal :=
  need (Instr.retrain p src).WellFormed s fun s => whenUp s fun s => s.portRetrain p src

/-- TRAINING_COMPLETE: the port comes up with full credits (17 R512, Table 17.5). -/
def execTrainingComplete (p peerPkg peerPort : Nat) (s : State) : Host.Outcome State Fault Refusal :=
  need (Instr.trainingComplete p peerPkg peerPort).WellFormed s fun s => whenUp s fun s =>
    let st := (s.port p).st
    if (s.port p).enable && (st == .training || st == .failed) then
      State.modPort (s.portTo p .up) p fun k =>
        { k with peerPkg := BitVec.ofNat 11 peerPkg, peerPort := BitVec.ofNat 4 peerPort }
    else s

/-! ## Sending on the link -/

/-- Units of a packet: its header and its payload (17 R509). -/
def Packet.units (k : Packet) : Nat := 1 + (k.payload.length + 31) / 32

/-- Receive buffer of a virtual channel, in units (17 Table 17.3). -/
def vcBuffer (vc : Nat) : Nat := if vc = 3 then 32 else 256

def Packet.creditKey (k : Packet) : Nat := 2 * k.vc.toNat + b2n k.cls

/-- Units that the sender may still send in a virtual channel and class (17 R512). -/
def Port.room (k : Port) (key : Nat) : Nat :=
  vcBuffer (key / 2) - (nget 0 k.used key + 2 ^ 24 - nget 0 k.credit key) % 2 ^ 24

/-- Whether a packet's credits are held and the replay buffer of 64 KiB has room. -/
def Port.canSend (k : Port) (pk : Packet) : Bool :=
  decide (pk.units ≤ k.room pk.creditKey)
    && decide (32 * (sumBy Packet.units k.replay + pk.units) ≤ 65536)

/-- ACK: the highest link SEQ received in order (17 Table 17.2). -/
def Port.ack (k : Port) : W16 := k.rxSeq - 1

/-- The front packet of a virtual channel leaves the port (17 R510, R512, R514). -/
def State.sendFront (s : State) (p vc : Nat) : State :=
  let k := s.port p
  match nget [] k.sendQ vc with
  | [] => s
  | pk :: rest =>
    if k.canSend pk then
      let pk := { pk with seq := k.txSeq, ack := k.ack }
      let k := { k with
        txSeq := k.txSeq + 1
        sentAt := if k.replay.isEmpty then s.pw.now else k.sentAt
        replay := k.replay ++ [pk]
        used := nset pk.creditKey ((nget 0 k.used pk.creditKey + pk.units) % 2 ^ 24) k.used
        sendQ := nset vc rest k.sendQ }
      State.emit (s.setPort p k) (.packet p pk)
    else s

/-- A TYPE 3 packet for a virtual channel and class (17 R510, R512). -/
def State.sendControl (s : State) (p key : Nat) : State :=
  let k := s.port p
  s.emit (.packet p { ptype := 3, ack := k.ack, credit := BitVec.ofNat 32 (key / 2 + 4 * (key % 2) + 256 * nget 0 k.freed key) })

/-- The unacknowledged packets go out again in order, and REPLAYS counts (17 R514). -/
def State.resend (s : State) (p : Nat) : State :=
  let k := s.port p
  if 8 ≤ k.stalls then s.leaveUp p .failed
  else
    let s := s.setPort p { k with replays := satInc k.replays, stalls := k.stalls + 1, sentAt := s.pw.now }
    forEach k.replay (fun pk s => s.emit (.packet p { pk with ack := k.ack })) s

/-- What stays in the replay buffer once `ack` covers it. -/
def dropAcked (ack : W16) (l : List Packet) : List Packet :=
  if l.any (fun k => k.seq == ack) then (l.dropWhile fun k => k.seq != ack).drop 1 else l

/-- An ACK arrives: covered packets leave the replay buffer. -/
def State.takeAck (s : State) (p : Nat) (ack : W16) : State :=
  let k := s.port p
  let left := dropAcked ack k.replay
  if left.length = k.replay.length then s
  else s.setPort p { k with replay := left, stalls := 0, sentAt := s.pw.now }

/-- REPLAY_TIMEOUT: 2 µs without ACK progress (17 R514). -/
def execReplayTimeout (p : Nat) (s : State) : Host.Outcome State Fault Refusal :=
  need (Instr.replayTimeout p).WellFormed s fun s => whenUp s fun s =>
    let k := s.port p
    if s.portUp p && !k.replay.isEmpty && decide (k.sentAt + 2000 ≤ s.pw.now) then s.resend p else s

/-- A packet with a bad CRC is discarded, counted, and answered with the last good SEQ (17 R514). -/
def State.badCrc (s : State) (p key : Nat) : State :=
  State.sendControl (s.modPort p fun k => { k with crcErr := satInc k.crcErr }) p key

/-- LINK_CONTROL: the TYPE 3 packet at the front is taken. One that returns no
credit asks for a resend (17 R512, R514; log 27). -/
def State.linkControlAt (s : State) (p : Nat) : State :=
  let k := s.port p
  match k.rxPkts with
  | [] => s
  | c :: rest =>
    if c.ptype = 3 then
      let s := s.setPort p { k with rxPkts := rest }
      if c.crcOk then
        let key := 2 * bits c.credit 1 0 + bits c.credit 2 2
        let count := bits c.credit 31 8
        let news := nget 0 k.credit key != count
        let s := s.modPort p fun k => { k with credit := nset key count k.credit }
        let s := s.takeAck p c.ack
        if news || (s.port p).replay.isEmpty then s else s.resend p
      else s.badCrc p c.creditKey
    else s

def execLinkControl (p : Nat) (s : State) : Host.Outcome State Fault Refusal :=
  need (Instr.linkControl p).WellFormed s fun s => whenUp s fun s => s.linkControlAt p

/-! ## Receiving -/

/-- The packet that a header unit and its payload units spell (17 Table 17.2). -/
def packetOf (units : List (List Byte)) : Packet :=
  let bs := units.flatten
  let d0 := BitVec.ofNat 64 (ofBytes (bs.take 8))
  let d1 := BitVec.ofNat 64 (ofBytes ((bs.drop 8).take 8))
  let d2 := BitVec.ofNat 64 (ofBytes ((bs.drop 16).take 8))
  let len := bits d0 24 16
  { ptype := BitVec.ofNat 4 (bits d0 3 0), vc := BitVec.ofNat 2 (bits d0 5 4), cls := bit d0 6, carry := bit d0 7
    op := BitVec.ofNat 8 (bits d0 15 8), len := len, seq := BitVec.ofNat 16 (bits d0 47 32)
    ack := BitVec.ofNat 16 (bits d0 63 48), dest := BitVec.ofNat 11 (bits d1 10 0)
    src := BitVec.ofNat 11 (bits d1 26 16), tseq := BitVec.ofNat 32 (bits d1 63 32)
    addr := BitVec.ofNat 45 (bits d2 44 0), credit := BitVec.ofNat 32 (ofBytes ((bs.drop 24).take 4))
    crcOk := decide (ofBytes ((bs.drop 28).take 4)
      = crc32Of (((bs.take 28) ++ (bs.drop 32)).map BitVec.toNat))
    payload := (bs.drop 32).take len }

/-- LEN of a header unit. -/
def unitLen (u : List Byte) : Nat := ofBytes ((u.drop 2).take 2) % 512

/-- One unit of the stream (17 R509). -/
def Port.takeUnit (k : Port) (u : List Byte) : Port :=
  match k.rxCur with
  | [] =>
    if (u.take 8).all (fun b => b == 0) then k
    else if unitLen u = 0 then { k with rxPkts := k.rxPkts ++ [packetOf [u]] }
    else { k with rxCur := [u] }
  | h :: t =>
    let cur := h :: t ++ [u]
    if cur.length = 1 + (unitLen h + 31) / 32 then { k with rxCur := [], rxPkts := k.rxPkts ++ [packetOf cur] }
    else { k with rxCur := cur }

/-- The units of a data codeword; after a discarded one they count from FIRST_HDR on. -/
def Port.takeUnits (k : Port) (first : Nat) (units : List (List Byte)) : Port :=
  if k.resync then
    if first < 20 then (units.drop first).foldl Port.takeUnit { k with resync := false } else k
  else units.foldl Port.takeUnit k

/-- A packet cut short by a discarded codeword fails its CRC (17 R509). -/
def Port.cutShort (k : Port) : Port :=
  match k.rxCur with
  | [] => k
  | us => { k with rxCur := [], rxPkts := k.rxPkts ++ [{ packetOf us with crcOk := false }] }

/-- CODEWORD_RECEIVE (17 R507-R509). -/
def execCodewordReceive (p : Nat) (cw : Codeword) (s : State) : Host.Outcome State Fault Refusal :=
  need (Instr.codewordReceive p cw).WellFormed s fun s => whenUp s fun s =>
    if s.portUp p then
      s.modPort p fun k =>
        match cw with
        | .discarded => { k.cutShort with uncorr := satInc k.uncorr, resync := true }
        | .decoded corrected ctl units =>
          let k := if corrected then { k with corrected := satInc k.corrected } else k
          if bits ctl 19 18 = 0 then k.takeUnits (bits ctl 4 0) units else k
    else s

/-- MARKER_CODEWORD (17 R507). -/
def execMarkerCodeword (p : Nat) (s : State) : Host.Outcome State Fault Refusal :=
  need (Instr.markerCodeword p).WellFormed s fun s => whenUp s fun s =>
    if s.portUp p then s.emit (.marker p) else s

/-! ## Timebase -/

/-- The offset to the parent, in the unit of the timestamps (17 R523). -/
def tbOffsetOf (t1 t2 t3 t4 : W64) : Int :=
  ((t2 - t1).toInt - (t4 - t3).toInt) / 2

/-- TIMEBASE_EXCHANGE: timestamps in 1/16 ns (log 29). The first exchange after a
full load steps the count; later ones only slew it (17 R524). -/
def State.exchange (s : State) (off : Int) (parentSynced : Bool) : State :=
  let s := { s with ml := { s.ml with tbOffset := BitVec.ofInt 32 off } }
  if !s.tb.stepped then
    let now := s.tb.now + BitVec.ofInt 64 (off / 16)
    { s with
      tb := { s.tb with now := now, stepped := true, good := 0 }
      tf := { s.tf with nextPicture := now.toNat / 8000 } }
  else
    let good := if -4 ≤ off ∧ off ≤ 4 then s.tb.good + 1 else 0
    { s with tb := { s.tb with good := good, synced := s.tb.synced || (decide (16 ≤ good) && parentSynced) } }

def execTimebaseExchange (t1 t2 t3 t4 : W64) (parentSynced : Bool) (s : State) :
    Host.Outcome State Fault Refusal :=
  need (Instr.timebaseExchange t1 t2 t3 t4 parentSynced).WellFormed s fun s => whenUp s fun s =>
    if s.ml.parentEn && s.portUp s.ml.parent.toNat then s.exchange (tbOffsetOf t1 t2 t3 t4) parentSynced else s

end Sys2Proof.Machine
end

