-- ==== Sys2Proof/Machine/Faults.lean ====
section
/-!
DEFINITION. The configuration patrol, the HBM scrub, engine recovery and EC_HEAD
(18 R525-R536).
-/
namespace Sys2Proof.Machine

/-- FAR of a frame of core `c` (03 R88). -/
def farOf (c minor : Nat) : Nat := dieOf c * 2 ^ 18 + colOf c * 2 ^ 12 + rowOf c * 64 + minor

/-- Key of a 64-bit word of a frame in `Core.cfgBad`. -/
def cfgKey (minor w : Nat) : Nat := minor * 256 + w / 2 * 2

/-- An uncorrectable error in a frame of core `c`: its region is red-flagged (18
R525; Table 18.6). -/
def State.uncorrConfig (s : State) (c key detail : Nat) : State :=
  let s := s.modCore c fun k => { k with cfgBad := if k.cfgBad.contains key then k.cfgBad else key :: k.cfgBad }
  s.redFlag (regionOf c) 0x02 (srcCore c) 0 detail

/-- Die of a Moriq port (03 R89). -/
def dieOfPort (p : Nat) : Nat := 17 + p / 4

/-- An uncorrectable error in a route frame: ENABLE is forced to 0 (18 Table 18.1). -/
def State.uncorrRoute (s : State) (p : Nat) : State :=
  let s := s.log 0x09 (dieOfPort p) none srcErrorLog 0 p
  let s := s.modPort p fun k => { k with enable := false }
  s.portDown p .disabled

/-- EC_PATROL counts an upset that the patrol corrected (18 R527). -/
def State.patrolFixed (s : State) : State := { s with ec := { s.ec with patrol := satInc s.ec.patrol } }

/-- CONFIG_PATROL. Cores of a region being written are skipped (18 R527). -/
def State.patrolAt (s : State) (t : PatrolTarget) (ecc : Ecc) : State :=
  match t with
  | .frame c minor =>
    if (s.region (regionOf c)).st = .writing then s
    else if ecc = .uncorrectable ∨ (s.core c).cfgBad.any (fun k => k / 256 == minor) then
      s.uncorrConfig c (match firstIf (fun k => k / 256 == minor) (s.core c).cfgBad with
        | some k => k | none => cfgKey minor 0) (farOf c minor)
    else if ecc = .corrected then s.patrolFixed else s
  | .route p _ =>
    match ecc with
    | .clean => s
    | .corrected => s.patrolFixed
    | .uncorrectable => s.uncorrRoute p

def execConfigPatrol (t : PatrolTarget) (ecc : Ecc) (s : State) : Host.Outcome State Fault Refusal :=
  need (Instr.configPatrol t ecc).WellFormed s fun s => whenUp s fun s => s.patrolAt t ecc

/-- HBM_SCRUB (18 R528). -/
def execHbmScrub (line : Nat) (ecc : Ecc) (s : State) : Host.Outcome State Fault Refusal :=
  need (Instr.hbmScrub line ecc).WellFormed s fun s => whenUp s fun s =>
    if s.pw.hbm = .ready then s.hbmEcc line ecc else s

/-- Number of an engine in an ENGINE_RECOVERED entry, and its die. -/
def engineCode : Engine → Nat
  | .homeAgent => 0 | .semaphore => 1 | .depot => 2

def engineDie (e : Engine) (unit : Nat) : Nat :=
  match e with
  | .homeAgent => 16 + unit / 16
  | .semaphore => unit
  | .depot => 16 + unit

/-- What an engine found in its own state: a correctable error is counted (18 R526, Table
18.2); from an uncorrectable one it recovers, and since nothing accepted is lost or applied
twice, the entry is all that shows (18 R531, Table 18.6). -/
def State.engineEcc (s : State) (e : Engine) (unit : Nat) : Ecc → State
  | .clean => s
  | .corrected => s.corrected (match e with | .homeAgent => 5 | .semaphore => 4 | .depot => 6)
  | .uncorrectable => s.log 0x08 (engineDie e unit) none srcErrorLog 0 (engineCode e + 256 * unit)

/-- ENGINE_RECOVERED. -/
def execEngineRecovered (e : Engine) (unit : Nat) (ecc : Ecc) (s : State) : Host.Outcome State Fault Refusal :=
  need (Instr.engineRecovered e unit ecc).WellFormed s fun s => whenUp s fun s => s.engineEcc e unit ecc

/-- A write of EC_HEAD (18 R536). -/
def State.ecHead (s : State) (v : W32) : State :=
  let d := (v - s.ec.head).toNat
  if 2 ^ 31 ≤ d then s
  else { s with ec := { s.ec with head := if d ≤ (s.ec.tail - s.ec.head).toNat then v else s.ec.tail } }

/-- EC_HEAD_WRITE. -/
def execEcHeadWrite (v : W32) (s : State) : Host.Outcome State Fault Refusal :=
  need (Instr.ecHeadWrite v).WellFormed s fun s => whenUp s fun s => s.ecHead v

end Sys2Proof.Machine
end

