-- ==== Sys2Proof/Machine/CPorts.lean ====
section
/-!
DEFINITION. The control ports of a core (05 R173-R182, Tables 5.9-5.14) and its
instruction store, reached by moves and through the control-port window.
-/
namespace Sys2Proof.Machine

/-! ## Instruction store (03 Table 3.4) -/

/-- Key of word `j` of bundle `b` in `Core.cfg`. -/
def bundleKey (b j : Nat) : Nat := b / 64 * 256 + 4 * (b % 64) + j

/-- The bundle at an index. -/
def Core.bundleAt (k : Core) (b : Nat) : BitVec 128 :=
  BitVec.ofNat 128 ((List.range 4).foldl
    (fun a j => a + (nget 0 k.cfg (bundleKey b j)).toNat * 2 ^ (32 * j)) 0)

/-- The bundle at an index replaced, whole (R179). -/
def Core.putBundle (k : Core) (b : Nat) (v : BitVec 128) : Core :=
  { k with
    cfg := (List.range 4).foldl (fun m j => nset (bundleKey b j) (v.extractLsb' (32 * j) 32) m) k.cfg
    cfgBad := k.cfgBad.filter fun x => x != bundleKey b 0 && x != bundleKey b 2 }

/-- Whether a bundle may be held ahead of execution (R178). -/
def Core.heldAhead (k : Core) (b : Nat) : Bool :=
  decide ((b + 2048 - k.pc.toNat) % 2048 < if k.waiting then 5 else 4)

/-- A bundle written by the core itself, or by another agent, whose write a
running core may see late (R180, R181; log 18). -/
def Core.writeBundle (k : Core) (own running : Bool) (b : Nat) (v : BitVec 128) : Core :=
  let old := k.bundleAt b
  let ahead :=
    if own then nerase b k.ahead
    else if running && k.heldAhead b && !nhas k.ahead b then nset b old k.ahead
    else k.ahead
  { k.putBundle b v with ahead := ahead }

/-! ## Settling (R174, R175) -/

/-- What is pending on a core. -/
structure Pend where
  exc : Option W64 := none
  round : Option W64 := none
  seed : Option W64 := none
  vec : Option W64 := none
  base : Option W64 := none
  top : Option W64 := none
  mode : Option W64 := none
  guest : Option W64 := none
  l1 : Option W64 := none
  deriving DecidableEq, Repr

/-- The pending values as they stand, and the core that holds none. -/
def Core.takePending (k : Core) : Core × Pend :=
  ({ k with
      excEnable := { k.excEnable with pend := none }, roundDefault := { k.roundDefault with pend := none }
      seedBase := { k.seedBase with pend := none }, vectorBase := { k.vectorBase with pend := none }
      stackBase := { k.stackBase with pend := none }, stackTop := { k.stackTop with pend := none }
      intMode := { k.intMode with pend := none }, guestTimeout := { k.guestTimeout with pend := none }
      l1Enable := { k.l1Enable with pend := none } },
   { exc := k.excEnable.pend, round := k.roundDefault.pend, seed := k.seedBase.pend, vec := k.vectorBase.pend
     base := k.stackBase.pend, top := k.stackTop.pend, mode := k.intMode.pend, guest := k.guestTimeout.pend
     l1 := k.l1Enable.pend })

/-- A value in force replaced by a pending one. -/
def Rws.apply (r : Rws) (p : Option W64) : Rws :=
  match p with
  | some v => { r with cur := v }
  | none => r

/-- The pending values come into force: CP_SEED_BASE reseeds the lanes (07 R231),
and CP_L1_ENABLE turned off empties the L1 (R176). -/
def Core.applyPending (k : Core) (p : Pend) : Core :=
  let off := bit k.l1Enable.cur 0 && (match p.l1 with | some v => !bit v 0 | none => false)
  { k with
    excEnable := k.excEnable.apply p.exc, roundDefault := k.roundDefault.apply p.round
    seedBase := k.seedBase.apply p.seed, vectorBase := k.vectorBase.apply p.vec
    stackBase := k.stackBase.apply p.base, stackTop := k.stackTop.apply p.top
    intMode := k.intMode.apply p.mode, guestTimeout := k.guestTimeout.apply p.guest
    l1Enable := k.l1Enable.apply p.l1
    l1 := if off then [] else k.l1
    lanes := if p.seed.isSome then [] else k.lanes
    laneSeed := match p.seed with | some v => v.setWidth 32 | none => k.laneSeed }

def Core.unsettled (k : Core) : Bool :=
  k.excEnable.pend.isSome || k.roundDefault.pend.isSome || k.seedBase.pend.isSome
    || k.vectorBase.pend.isSome || k.stackBase.pend.isSome || k.stackTop.pend.isSome
    || k.intMode.pend.isSome || k.guestTimeout.pend.isSome || k.l1Enable.pend.isSome

/-- What a read of an RWS port returns. -/
def Rws.shown (r : Rws) : W64 := r.pend.getD r.cur

/-- CP_GUEST_TIMEOUT in force, in ns. -/
def Core.guestLimit (k : Core) : Nat := max 16 (bits k.guestTimeout.cur 19 0)

/-! ## Reads -/

/-- Global address of byte 0 of a core's yard. -/
def State.yardGlobal (s : State) (c : Nat) : Nat := s.pkg.toNat * 2 ^ 45 + yardBase c

/-- CP_STATUS (Table 5.10). -/
def Core.statusWord (k : Core) : W64 :=
  pack [(8, k.ops.length), (2, b2n k.guest.isSome), (1, b2n k.shadow), (0, b2n k.unsettled)]

/-- CP_CORE_ID (Table 5.11). -/
def coreIdWord (pkg c : Nat) : W64 :=
  pack [(56, colOf c), (48, rowOf c), (32, pkg), (24, dieOf c), (16, regionOf c), (0, c)]

/-- The value of control port `p` of core `c` (Table 5.9). -/
def State.cpValue (s : State) (c p : Nat) : W64 :=
  let k := s.core c
  match p with
  | 0x800 => k.statusWord
  | 0x801 => coreIdWord s.pkg.toNat c
  | 0x802 => 0x0001_0000
  | 0x803 => k.pennant.setWidth 64
  | 0x804 => k.excEnable.shown
  | 0x805 => k.roundDefault.shown
  | 0x806 => k.seedBase.shown
  | 0x807 => k.vectorBase.shown
  | 0x808 => k.stackBase.shown
  | 0x809 => k.stackTop.shown
  | 0x80A => k.intMode.shown
  | 0x80B => k.intEnable.setWidth 64
  | 0x80C => k.intPriority
  | 0x80D => k.intPending.setWidth 64
  | 0x80E => k.timerCmp
  | 0x80F => k.guestTimeout.shown
  | 0x810 => k.guestTimeouts.setWidth 64
  | 0x811 => k.l1Enable.shown
  | 0x813 => k.isIndex.setWidth 64
  | 0x814 => (k.bundleAt k.isIndex.toNat).setWidth 64
  | 0x815 => (k.bundleAt k.isIndex.toNat).extractLsb' 64 64
  | 0x816 => BitVec.ofNat 64 (s.yardGlobal c)
  | 0x817 => k.train.setWidth 64
  | 0x818 => k.perfBundles
  | 0x819 => k.perfWaits
  | _ => 0

/-- Whether a read of an instruction-store port meets an error (18 R525). -/
def Core.isReadBad (k : Core) (p : Nat) : Bool :=
  (p == 0x814 && k.cfgBad.contains (bundleKey k.isIndex.toNat 0))
    || (p == 0x815 && k.cfgBad.contains (bundleKey k.isIndex.toNat 2))

/-- What a read does: CP_GUEST_STATUS clears once read whole, CP_IS_HI moves the
index on. `m` marks the bits read. -/
def State.cpReadEffect (s : State) (c p : Nat) (m : W64) : State :=
  let k := s.core c
  let s := match p with
    | 0x810 => if bits m 31 0 = 0xFFFF_FFFF then s.setCore c { k with guestTimeouts := 0 } else s
    | 0x815 => s.setCore c { k with isIndex := k.isIndex + 1 }
    | _ => s
  if k.isReadBad p then s.uncorrConfig c (bundleKey k.isIndex.toNat (if p = 0x814 then 0 else 2)) k.isIndex.toNat
  else s

/-! ## Writes -/

/-- A value held pending on an RWS port of the given bits. -/
def Rws.write (r : Rws) (v m field : W64) : Rws :=
  { r with pend := some (mergeMask r.shown v m &&& field) }

/-- Whether the region's RWP fields take a write: while it is parked, or during a load (00
Table 0.3). -/
def State.takesRwp (s : State) (r : Nat) : Bool :=
  s.cc.load.isSome || (match (s.region r).st with
    | .parked | .parkedIsolated | .writing => true
    | _ => false)

/-- A write of CP_TIMER_CMP: source 1 clears where the value lies in the future (06
Table 6.1). -/
def State.timerWrite (s : State) (c : Nat) (v : W64) : State :=
  s.modCore c fun k =>
    let k := { k with timerCmp := v }
    if s.tb.now < v then k.unpend 1 else k

/-- A write of control port `p` of core `c`. `own` says that the core itself makes
it, `m` marks the bits written. A settle is applied at once. A write of half of CP_IS_HI
writes the bundle with the old other half and moves the index on, as a read of either half
does (R179 speaks of whole accesses: DESIGN CHOICE, log 72). -/
def State.cpWrite (s : State) (c p : Nat) (v m : W64) (own : Bool) : State :=
  let k := s.core c
  let low : W64 := 0xFFFF_FFFF
  match p with
  | 0x803 => s.setCore c { k with pennant := k.pennant &&& ~~~((v &&& m).setWidth 10) }
  | 0x804 => s.setCore c { k with excEnable := k.excEnable.write v m 0xF }
  | 0x805 => s.setCore c { k with roundDefault := k.roundDefault.write v m 0x1F07 }
  | 0x806 => s.setCore c { k with seedBase := k.seedBase.write v m low }
  | 0x807 => s.setCore c { k with vectorBase := k.vectorBase.write v m 0x7FF }
  | 0x808 => s.setCore c { k with stackBase := k.stackBase.write v m 0xFF_FFFF_FFFF_FFFF }
  | 0x809 => s.setCore c { k with stackTop := k.stackTop.write v m 0xFF_FFFF_FFFF_FFFF }
  | 0x80A => s.setCore c { k with intMode := k.intMode.write v m low }
  | 0x80B => s.setCore c { k with intEnable := (mergeMask (k.intEnable.setWidth 64) v m).setWidth 32 }
  | 0x80C => s.setCore c { k with intPriority := mergeMask k.intPriority v m }
  | 0x80E => s.timerWrite c (mergeMask k.timerCmp v m)
  | 0x80F => s.setCore c { k with guestTimeout := k.guestTimeout.write v m 0xF_FFFF }
  | 0x811 => s.setCore c { k with l1Enable := k.l1Enable.write v m 1 }
  | 0x812 => s.setCore c { k with ahead := [] }
  | 0x813 => s.setCore c { k with isIndex := (mergeMask (k.isIndex.setWidth 64) v m).setWidth 11 }
  | 0x814 => s.setCore c { k with isLo := mergeMask k.isLo v m }
  | 0x815 =>
    let b := k.isIndex.toNat
    let hi := mergeMask ((k.bundleAt b).extractLsb' 64 64) v m
    s.setCore c { k.writeBundle own (s.running c) b (hi ++ k.isLo) with isIndex := k.isIndex + 1 }
  | 0x817 =>
    if s.takesRwp (regionOf c) then
      s.setCore c { k with train := (mergeMask (k.train.setWidth 64) v m &&& 0x07FF_07FF).setWidth 32 }
    else s.modRegion (regionOf c) fun g => { g with ignored := satInc g.ignored }
  | 0x818 => s.setCore c { k with perfBundles := mergeMask k.perfBundles v m }
  | 0x819 => s.setCore c { k with perfWaits := mergeMask k.perfWaits v m }
  | 0x8FF => s.setCore c (k.takePending.1.applyPending k.takePending.2)
  | _ => s

/-- CP_TIMER_CMP_WRITE. -/
def execCpTimerCmpWrite (c : Nat) (v : W64) (s : State) : Host.Outcome State Fault Refusal :=
  need (Instr.cpTimerCmpWrite c v).WellFormed s fun s => whenUp s fun s => s.timerWrite c v

/-- CORE_TIMER: source 1 is pending while TB_NOW ≥ CP_TIMER_CMP (06 Table 6.1). -/
def execCoreTimer (c : Nat) (s : State) : Host.Outcome State Fault Refusal :=
  need (Instr.coreTimer c).WellFormed s fun s => whenUp s fun s =>
    if (s.core c).timerCmp ≤ s.tb.now then s.modCore c fun k => k.raise 1 else s

end Sys2Proof.Machine
end

