-- ==== Sys2Proof/Machine/Ports.lean ====
section
/-!
DEFINITION. Bundles and the port map of a core (05 R131-R147): which ports a move
may read, write or fire, and which operation each trigger starts.
-/
namespace Sys2Proof.Machine

/-! ## Port roles (05 Tables 5.1, 5.3-5.8; 07 Table 7.6; 08 Table 8.6; 09 Table 9.5; 10
Table 10.4; 13 Table 13.7; 14 Table 14.2) -/

inductive PortRole where
  | reserved
  | source     -- read only
  | operand    -- written only
  | result     -- read and written
  | trigger
  deriving DecidableEq, Repr

def inRange (lo hi p : Nat) : Bool := decide (lo ≤ p) && decide (p ≤ hi)

/-- Role of an ALU offset (Table 5.3). -/
def aluRole (o : Nat) : PortRole :=
  if o ≤ 1 then .operand else if o = 2 then .result
  else if inRange 0x10 0x2C o then .trigger else .reserved

/-- Role of a multiply and divide port (Table 5.4). -/
def mulRole (p : Nat) : PortRole :=
  if p = 0x100 then .operand
  else if p = 0x102 ∨ p = 0x103 then .result
  else if inRange 0x110 0x113 p then .trigger
  else .reserved

/-- Role of a scalar load and store port (Table 5.5). -/
def lsRole (p : Nat) : PortRole :=
  if inRange 0x140 0x142 p then .operand
  else if inRange 0x144 0x147 p then .result
  else if inRange 0x150 0x16F p then (if p % 8 = 7 then .reserved else .trigger)
  else if inRange 0x170 0x173 p || inRange 0x178 0x17F p then .trigger
  else .reserved

/-- Role of a control-flow or guard port (Tables 5.6, 5.7). -/
def flowRole (p : Nat) : PortRole :=
  if inRange 0x180 0x186 p then .trigger
  else if p = 0x190 then .source
  else if inRange 0x1C1 0x1C7 p then .result
  else if inRange 0x1C9 0x1CF p then .operand
  else if p = 0x1D0 then .result
  else .reserved

/-- Role of a vector unit port (08 Table 8.6, 09 Table 9.5). -/
def vecRole (p : Nat) : PortRole :=
  if p = 0x200 || inRange 0x202 0x205 p || p = 0x207 then .operand
  else if p = 0x201 || p = 0x209 || p = 0x20A then .source
  else if p = 0x206 || p = 0x208 || p = 0x20B then .result
  else if p = 0x210 || p = 0x211 || inRange 0x218 0x224 p || inRange 0x228 0x22B p
      || inRange 0x230 0x233 p || inRange 0x238 0x23D p then .trigger
  else if inRange 0x300 0x303 p || inRange 0x308 0x30F p || inRange 0x340 0x343 p
      || inRange 0x380 0x383 p then .trigger
  else if p = 0x350 || p = 0x394 || p = 0x395 then .result
  else if inRange 0x351 0x353 p || inRange 0x390 0x393 p || inRange 0x3C0 0x3C4 p then .operand
  else .reserved

/-- Role of a matrix or tile-mover port (10 Table 10.4). -/
def mxRole (p : Nat) : PortRole :=
  if p = 0x400 || inRange 0x420 0x424 p then .operand
  else if p = 0x401 then .result
  else if p = 0x402 || p = 0x403 || p = 0x429 then .source
  else if inRange 0x410 0x413 p || p = 0x418 || p = 0x428 then .trigger
  else .reserved

/-- Role of a conversion port (07 Table 7.6). -/
def cvRole (p : Nat) : PortRole :=
  if inRange 0x600 0x606 p then .operand
  else if p = 0x608 || p = 0x609 || inRange 0x620 0x627 p || p = 0x630 || p = 0x631 then .result
  else if p = 0x610 || p = 0x612 then .trigger
  else .reserved

/-- Role of a semaphore port (13 Table 13.7). -/
def smRole (p : Nat) : PortRole :=
  if inRange 0x680 0x682 p then .operand
  else if p = 0x684 || p = 0x685 || inRange 0x688 0x68B p then .result
  else if p = 0x686 then .source
  else if inRange 0x690 0x69A p then .trigger
  else .reserved

/-- Role of a Depot client port (14 Table 14.2). -/
def dxRole (p : Nat) : PortRole :=
  if inRange 0x700 0x706 p then .operand
  else if inRange 0x708 0x70B p then .result
  else if p = 0x70C then .source
  else if inRange 0x710 0x714 p then .trigger
  else .reserved

/-- Role of a fence or cache-operation port (05 Table 5.8). -/
def cacheRole (p : Nat) : PortRole :=
  if inRange 0x780 0x782 p || inRange 0x784 0x788 p then .trigger else .reserved

/-- Role of a port (05 Table 5.1). -/
def portRole (p : Nat) : PortRole :=
  if p < 0x040 then .result
  else if p < 0x080 then .source
  else if p < 0x0C0 then aluRole (p - 0x080)
  else if p < 0x100 then aluRole (p - 0x0C0)
  else if p < 0x140 then mulRole p
  else if p < 0x180 then lsRole p
  else if p < 0x200 then flowRole p
  else if p < 0x400 then vecRole p
  else if p < 0x600 then mxRole p
  else if p < 0x680 then cvRole p
  else if p < 0x700 then smRole p
  else if p < 0x780 then dxRole p
  else if p < 0x800 then cacheRole p
  else if p < 0x900 then .result
  else if p < 0xE00 then .reserved
  else if p < 0xF00 then .result
  else .source

def canRead (p : Nat) : Bool := portRole p == .source || portRole p == .result
def canWrite (p : Nat) : Bool := portRole p == .operand || portRole p == .result || portRole p == .trigger
def isTrigger (p : Nat) : Bool := portRole p == .trigger
def isGuest (p : Nat) : Bool := inRange 0xE00 0xEFF p
def isControl (p : Nat) : Bool := inRange 0x800 0x8FF p
def isFlow (p : Nat) : Bool := inRange 0x180 0x186 p

/-! ## Bundles (R131-R137) -/

/-- One enabled move. -/
structure Move where
  slot : Nat
  guard : Nat
  src : Nat
  dst : Nat
  width : Nat
  deriving DecidableEq, Repr

/-- Slot `i` of a bundle. -/
def slotOf (b : BitVec 128) (i : Nat) : Move :=
  let w := bits b (30 * i + 29) (30 * i)
  { slot := i, guard := w / 2 ^ 26, src := w / 2 ^ 14 % 4096, dst := w / 4 % 4096, width := w % 4 }

def bundleKind (b : BitVec 128) : Nat := bits b 127 124

/-- The enabled moves. -/
def bundleMoves (b : BitVec 128) : List Move :=
  ((List.range 4).filter fun i => bit b (120 + i)).map (slotOf b)

/-- The literal of a long-immediate bundle, sign-extended (R134, R135). -/
def bundleLit (b : BitVec 128) : W64 := BitVec.ofInt 64 (sval 60 (bits b 119 60))

/-- Whether a move breaks R135 or R144. -/
def Move.bad (long : Bool) (m : Move) : Bool :=
  !canRead m.src || !canWrite m.dst || (m.src == 0x07F && !long)

/-- The slot that makes a bundle illegal whatever its guards are (R133-R135, R144;
log 20), 0 for a fault of the whole bundle. -/
def bundleFault (b : BitVec 128) : Option Nat :=
  let kind := bundleKind b
  if 1 < kind then some 0
  else if kind = 1 ∧ (bit b 122 ∨ bit b 123) then some 0
  else (firstIf (Move.bad (kind == 1)) (bundleMoves b)).map Move.slot

/-- The bits that a width carries (R137). -/
def carried (width : Nat) (v : W64) : W64 := BitVec.ofNat 64 (v.toNat % 2 ^ (8 * 2 ^ width))

/-- Whether guard `g` passes under predicates p1–p7 (R145). -/
def guardPasses (preds : BitVec 8) (g : Nat) : Bool :=
  if g = 0 then true
  else if g < 8 then bit preds g
  else if g = 8 then false
  else !bit preds (g - 8)

/-! ## Operations and their result ports (R149, R151) -/

/-- The long units. -/
inductive LongUnit where
  | vec | mx | mv | cv
  deriving DecidableEq, Repr

/-- The long unit that a trigger belongs to (06 R192). -/
def longUnit (p : Nat) : Option LongUnit :=
  if inRange 0x200 0x3FF p then some .vec
  else if p = 0x428 then some .mv
  else if inRange 0x410 0x413 p then some .mx
  else if inRange 0x600 0x67F p then some .cv
  else none

def isUnit (u : LongUnit) (o : Op) : Bool := longUnit o.port == some u

/-- Scalar unit of a trigger: ALU0, ALU1, multiply and divide. -/
def scalarUnit (p : Nat) : Option Nat :=
  if inRange 0x080 0x0BF p then some 0
  else if inRange 0x0C0 0x0FF p then some 1
  else if inRange 0x110 0x113 p then some 2
  else none

def isLoadPort (p : Nat) : Bool := inRange 0x150 0x16E p
def isStorePort (p : Nat) : Bool := inRange 0x170 0x173 p
def isAtomicPort (p : Nat) : Bool := inRange 0x178 0x17F p
def isFence (p : Nat) : Bool := inRange 0x780 0x782 p

/-- Whether an asynchronous Depot command is asked for (14 Table 14.2). -/
def isAsync (ctl : W64) : Bool := bit ctl 6

/-- The result ports that an operation writes; `cap` holds its captured operands. VX_DONE
takes the elements of the vector operation last fired (08 R258). -/
def resultPorts (p : Nat) (cap : NMap W64) : List Nat :=
  if inRange 0x090 0x0AC p then [0x082]
  else if inRange 0x0D0 0x0EC p then [0x0C2]
  else if inRange 0x110 0x113 p then [0x102, 0x103]
  else if isLoadPort p then [0x144 + (p - 0x150) / 8]
  else if isAtomicPort p then [0x147]
  else if p = 0x23D then [0x209, 0x20B]
  else if inRange 0x340 0x343 p then [0x209, 0x350]
  else if p = 0x381 ∨ p = 0x383 then [0x209, 0x394, 0x395]
  else if inRange 0x200 0x3FF p then [0x209]
  else if p = 0x610 then [0x608]
  else if p = 0x612 then [0x609]
  else if p = 0x690 ∨ p = 0x699 then [0x685]
  else if inRange 0x691 0x697 p then [0x684]
  else if p = 0x698 then [0x688 + bits (nget 0 cap 0x682) 5 4]
  else if inRange 0x710 0x714 p then
    (if isAsync (nget 0 cap 0x703) then [0x70A, 0x70B] else [0x708, 0x709])
  else []

/-- The operand ports that a trigger captures (R150). -/
def operandRange (p : Nat) : Nat × Nat :=
  if p < 0x0C0 then (0x080, 0x081)
  else if p < 0x100 then (0x0C0, 0x0C1)
  else if p < 0x140 then (0x100, 0x100)
  else if p < 0x180 then (0x140, 0x142)
  else if p < 0x400 then (0x200, 0x3BF)
  else if p < 0x418 then (0x3C0, 0x3C4)
  else if p < 0x600 then (0x420, 0x424)
  else if p < 0x680 then (0x600, 0x606)
  else if p < 0x700 then (0x680, 0x682)
  else (0x700, 0x706)

/-- The operands of a trigger as they stand, with CP_ROUND_DEFAULT in force. -/
def Core.capture (k : Core) (p : Nat) : NMap W64 :=
  let r := operandRange p
  let own := k.ports.filter fun q => inRange r.1 r.2 q.1 && portRole q.1 == .operand
  if inRange 0x200 0x67F p then nset 0x805 k.roundDefault.cur own else own

/-- Whether operation `id` is in flight. -/
def Core.inFlight (k : Core) (id : Nat) : Bool := k.ops.any fun o => o.id == id

/-- Whether operation `id` lies in a suspend slot. -/
def Core.suspended (k : Core) (id : Nat) : Bool :=
  [k.slotVec, k.slotMx, k.slotMv, k.slotCv].any fun o => match o with
    | some o => o.id == id
    | none => false

/-- Whether a result port holds the result of the operation last fired that writes it: a
suspended one has not completed (R151). General registers and constants are none. -/
def Core.resultReady (k : Core) (p : Nat) : Bool :=
  match (if p < 0x080 then none else nfind k.portLast p) with
  | some id => !k.inFlight id && !k.suspended id
  | none => true

/-- Operation `o` enters flight. -/
def Core.launchOp (k : Core) (o : Op) : Core :=
  { k with
    ops := k.ops ++ [o]
    portLast := (resultPorts o.port o.cap).foldl (fun m p => nset p o.id m) k.portLast }

/-- A new operation of a trigger, with its operands captured, and the core whose next
number is used up. -/
def Core.newOp (k : Core) (p : Nat) (b : W64) : Core × Op :=
  ({ k with nextId := k.nextId + 1 },
   { id := k.nextId, port := p, bundle := k.pc.toNat, b := b, cap := k.capture p })

def Op.operand (o : Op) (p : Nat) : W64 := nget 0 o.cap p

/-- A result port takes a value of operation `id`, unless a later operation writes it
(R151). -/
def Core.deliver (k : Core) (id p : Nat) (v : W64) : Core :=
  if nget id k.portLast p = id then { k with ports := nset p v k.ports } else k

/-- An operation leaves flight with its results, in the order of its result ports. -/
def Core.finish (k : Core) (o : Op) (vs : List W64) : Core :=
  let k := { k with ops := k.ops.filter fun q => q.id != o.id }
  ((resultPorts o.port o.cap).zip vs).foldl (fun k q => k.deliver o.id q.1 q.2) k

/-- Flags ORed into the pennant. -/
def Core.flag (k : Core) (f : BitVec 10) : Core := { k with pennant := k.pennant ||| f }

/-- An exception is due (06 R203). -/
def Core.fault (k : Core) (d : Due) : Core := { k with due := k.due ++ [d] }

/-- The oldest operation in flight that satisfies a test. -/
def Core.oldest (k : Core) (f : Op → Bool) : Option Op := firstIf f k.ops

end Sys2Proof.Machine
end

