-- ==== Sys2Proof/Machine/Scalar.lean ====
section
/-!
DEFINITION. The ALUs and the multiply and divide unit (05 R154-R157).
-/
namespace Sys2Proof.Machine

/-- Number of ones among the low `n` bits. -/
def popCount : Nat → Nat → Nat
  | 0, _ => 0
  | n + 1, x => x % 2 + popCount n (x / 2)

/-- Leading zeros of a 64-bit value, 64 for 0. -/
def clz64 (x : W64) : Nat := if x = 0 then 64 else 63 - Nat.log2 x.toNat

/-- Trailing zeros among the low `n` bits. -/
def ctzN : Nat → Nat → Nat
  | 0, _ => 0
  | n + 1, x => if x % 2 = 1 then 0 else 1 + ctzN n (x / 2)

/-- The bytes of a value reversed. -/
def bswap64 (x : W64) : W64 := BitVec.ofNat 64 (ofBytes (toBytes 8 x.toNat).reverse)

/-- `a` sign-extended from bit `i`. -/
def sextFrom (a : W64) (i : Nat) : W64 := BitVec.ofInt 64 (sval (i + 1) a.toNat)

/-- `a` with the bits above bit `i` cleared. -/
def zextFrom (a : W64) (i : Nat) : W64 := BitVec.ofNat 64 (a.toNat % 2 ^ (i + 1))

def boolWord (b : Bool) : W64 := if b then 1 else 0

/-- The ALU operation at offset `o` of its unit (Table 5.3). -/
def aluValue (o : Nat) (a b c : W64) : W64 :=
  let sh := bits b 5 0
  match o with
  | 0x10 | 0x12 => a + b
  | 0x11 | 0x13 => a - b
  | 0x14 => a &&& b
  | 0x15 => a ||| b
  | 0x16 => a ^^^ b
  | 0x17 => a &&& ~~~b
  | 0x18 => a <<< sh
  | 0x19 => a >>> sh
  | 0x1A => a.sshiftRight sh
  | 0x1B => a.rotateLeft sh
  | 0x1C => boolWord (a == b)
  | 0x1D => boolWord (a != b)
  | 0x1E => boolWord (a.slt b)
  | 0x1F => boolWord (a.ult b)
  | 0x20 => boolWord (a.sle b)
  | 0x21 => boolWord (a.ule b)
  | 0x22 => if a.sle b then a else b
  | 0x23 => if a.sle b then b else a
  | 0x24 => if a.ule b then a else b
  | 0x25 => if a.ule b then b else a
  | 0x26 => if c ≠ 0 then a else b
  | 0x27 => sextFrom a sh
  | 0x28 => zextFrom a sh
  | 0x29 => BitVec.ofNat 64 (popCount 64 b.toNat)
  | 0x2A => BitVec.ofNat 64 (clz64 b)
  | 0x2B => BitVec.ofNat 64 (ctzN 64 b.toNat)
  | _ => bswap64 b

/-- IOVF of ADD and SUB (R154). -/
def aluFlags (o : Nat) (a b : W64) : BitVec 10 :=
  let past (z : Int) : Bool := decide (z < -(2 ^ 63)) || decide (2 ^ 63 ≤ z)
  if o = 0x10 then (if past (a.toInt + b.toInt) then 0x200 else 0)
  else if o = 0x11 then (if past (a.toInt - b.toInt) then 0x200 else 0)
  else 0

/-- RES, RES2 and the flags of a multiply or divide (R155, R156). -/
def mulValue (p : Nat) (a b : W64) : W64 × W64 × BitVec 10 :=
  match p with
  | 0x110 =>
    let z := a.toInt * b.toInt
    (BitVec.ofInt 64 z, BitVec.ofInt 64 (z / 2 ^ 64),
      if z < -(2 ^ 63) ∨ 2 ^ 63 ≤ z then 0x200 else 0)
  | 0x111 =>
    let z := a.toNat * b.toNat
    (BitVec.ofNat 64 z, BitVec.ofNat 64 (z / 2 ^ 64), 0)
  | 0x112 =>
    if b = 0 then (BitVec.allOnes 64, a, 0x100)
    else (BitVec.ofInt 64 (a.toInt.tdiv b.toInt), BitVec.ofInt 64 (a.toInt.tmod b.toInt),
      if a = 0x8000_0000_0000_0000 ∧ b = BitVec.allOnes 64 then 0x200 else 0)
  | _ =>
    if b = 0 then (BitVec.allOnes 64, a, 0x100)
    else (BitVec.ofNat 64 (a.toNat / b.toNat), BitVec.ofNat 64 (a.toNat % b.toNat), 0)

/-- Results and flags of a scalar operation. -/
def Op.scalar (o : Op) : List W64 × BitVec 10 :=
  if o.port < 0x100 then
    let base := if o.port < 0x0C0 then 0x080 else 0x0C0
    let a := o.operand base
    ([aluValue (o.port - base) a o.b (o.operand (base + 1))], aluFlags (o.port - base) a o.b)
  else
    let r := mulValue o.port (o.operand 0x100) o.b
    ([r.1, r.2.1], r.2.2)

/-- The traps that flags raise when enabled (R154, R156, R157). -/
def Core.intTraps (k : Core) (f : BitVec 10) : Core :=
  let k := if bit f 8 && bit k.excEnable.cur 0 then k.fault { code := 6 } else k
  if bit f 9 && bit k.excEnable.cur 1 then k.fault { code := 7 } else k

/-- The oldest operation of a scalar unit completes (R151, R157). -/
def Core.scalarDone (k : Core) (unit : Nat) : Core :=
  match k.oldest fun o => scalarUnit o.port == some unit with
  | some o =>
    let r := o.scalar
    Core.intTraps ((k.finish o r.1).flag r.2) r.2
  | none => k

/-- SCALAR_OP_COMPLETE. -/
def execScalarOpComplete (c unit : Nat) (s : State) : Host.Outcome State Fault Refusal :=
  need (Instr.scalarOpComplete c unit).WellFormed s fun s => whenUp s fun s =>
    s.modCore c fun k => k.scalarDone unit

end Sys2Proof.Machine
end

