-- ==== Sys2Proof/Machine/Vector.lean ====
section
/-!
DEFINITION. The long-vector unit: registers, selector words, operations, reductions
and softmax (08 R243-R266, 09 R273-R292). An operation is performed, in firing order,
at VECTOR_OP_COMPLETE, or up to the element at which an entry suspends it.
-/
namespace Sys2Proof.Machine

/-! ## Registers (08 R243, 07 R216) -/

def Core.vregOf (k : Core) (r : Nat) : BitVec 8192 := nget 0 k.vreg r
def Core.mregOf (k : Core) (r : Nat) : BitVec 1024 := nget 0 k.mreg r

/-- Element `i`, `w` bits wide, of a vector register. -/
def Core.elem (k : Core) (r w i : Nat) : Nat := ((k.vregOf r).toNat >>> (w * i)) % 2 ^ w

def Core.putElem (k : Core) (r w i x : Nat) : Core :=
  let old := (k.vregOf r).toNat
  let cur := (old >>> (w * i)) % 2 ^ w
  { k with vreg := nset r (BitVec.ofNat 8192 (old - cur * 2 ^ (w * i) + x % 2 ^ w * 2 ^ (w * i))) k.vreg }

def Core.maskBit (k : Core) (r i : Nat) : Bool := bit (k.mregOf r) i

def Core.putMask (k : Core) (r i : Nat) (b : Bool) : Core :=
  let one : BitVec 1024 := BitVec.ofNat 1024 (2 ^ i)
  { k with mreg := nset r (if b then k.mregOf r ||| one else k.mregOf r &&& ~~~one) k.mreg }

/-- State of lane generator `i` (07 R229-R231). -/
def Core.lane (k : Core) (i : Nat) : W32 := nget (seedLane k.laneSeed i) k.lanes i

/-- One step of lane `i`, with its top `n` bits as the random bits. -/
def Core.drawLane (k : Core) (i n : Nat) : Core × Nat :=
  let x := stepLane (k.lane i)
  ({ k with lanes := nset i x k.lanes }, topBits x n)

/-! ## Formats and selector words (08 Tables 8.1, 8.2) -/

/-- Width of an FMT code that Table 8.1 accepts. -/
def fmtWidth : Nat → Option Nat
  | 0x0 => some 64
  | 0x1 | 0xE => some 32
  | 0x2 | 0x3 => some 16
  | 0x4 | 0x5 | 0x6 | 0x7 | 0xC => some 8
  | _ => none

/-- Whether a code is of the arithmetic class, and whether it is floating point. -/
def arithCode (c : Nat) : Bool := c ≤ 3 || c == 0xC || c == 0xE
def floatCode (c : Nat) : Bool := c ≤ 3

/-- Width by the VX_CFG now held; free under a code without one (log 34). -/
def cfgWidth (cfg : W64) : Nat := (fmtWidth (bits cfg 3 0)).getD (Config.vecWidth (bits cfg 3 0))

/-- VL of a VX_CFG (R244). -/
def cfgVl (cfg : W64) : Nat := min (bits cfg 26 16) (8192 / cfgWidth cfg)

/-- An operation's format, length, selector and operands. -/
structure VecCfg where
  port : Nat
  code : Nat
  w : Nat
  vl : Nat
  src1 : Nat
  src2 : Nat
  dst : Nat
  mreg : Nat
  men : Bool
  mzero : Bool
  scalar2 : Bool
  scalar : W64
  round : Rnd
  deriving DecidableEq, Repr

def Op.vec (o : Op) : VecCfg :=
  let cfg := o.operand 0x200
  { port := o.port, code := bits cfg 3 0, w := cfgWidth cfg, vl := cfgVl cfg
    src1 := bits o.b 4 0, src2 := bits o.b 9 5, dst := bits o.b 14 10, mreg := bits o.b 17 15
    men := bit o.b 18, mzero := bit o.b 19, scalar2 := bit o.b 20, scalar := o.operand 0x203
    round := rndOf (o.operand 0x204).toNat (o.operand 0x805) }

/-- Whether an element is active (R249). -/
def Core.laneOn (k : Core) (v : VecCfg) (i : Nat) : Bool := !v.men || k.maskBit v.mreg i

def isMaskOp (p : Nat) : Bool := inRange 0x238 0x23D p
def isCompare (p : Nat) : Bool := inRange 0x230 0x233 p
def isReduction (p : Nat) : Bool := inRange 0x340 0x342 p

/-- What a trigger refuses as ILLEGAL_BUNDLE (08 R247, 09 R273, R280; log 35). -/
def vecIllegal (p code : Nat) : Bool :=
  if (fmtWidth code).isNone then true
  else if p = 0x221 ∨ p = 0x222 then !(code == 0xC || code == 0xE)
  else if inRange 0x218 0x220 p || isCompare p || inRange 0x340 0x343 p then !arithCode code
  else if inRange 0x300 0x30F p || inRange 0x380 0x383 p then !floatCode code
  else false

/-- Whether a vector operation steps lane generators (07 R228, R229; 08 R251, R252, R274;
log 36): in mode 5, each that writes elements of its destination, but for those on integer
formats and the functions that round to nearest. -/
def vecDraws (v : VecCfg) : Bool :=
  v.round.mode == 5 && v.code != 0xC && v.code != 0xE
    && (v.port == 0x210 || inRange 0x218 0x22B v.port || inRange 0x300 0x302 v.port)

/-- Registers that an operation reads and writes: vector register r is r, mask
register m is 32 + m, the lane generators are 40 (R256). -/
def Op.regSets (o : Op) : List Nat × List Nat :=
  match longUnit o.port with
  | some .vec =>
    let v := o.vec
    let mask := if v.men then [32 + v.mreg] else []
    let lanes := if vecDraws v then [40] else []
    if o.port = 0x210 then (mask ++ lanes ++ [v.dst], v.dst :: lanes)
    else if o.port = 0x211 then (v.src1 :: mask, [])
    else if o.port = 0x23D then ([32 + v.src1 % 8], [])
    else if isMaskOp o.port then ([32 + v.src1 % 8, 32 + v.src2 % 8], [32 + v.dst % 8])
    else if isCompare o.port then
      (v.src1 :: (if v.scalar2 then [] else [v.src2]) ++ mask, [32 + v.dst % 8])
    else if isReduction o.port || o.port = 0x381 then (v.src1 :: mask, [])
    else if o.port = 0x343 ∨ o.port = 0x383 then ([], [])
    else (v.src1 :: (if v.scalar2 then [] else [v.src2]) ++ mask ++ lanes ++ [v.dst], v.dst :: lanes)
  | some .cv =>
    if o.port = 0x612 then ([], [])
    else
      let m := o.operand 0x606
      let lanes := if (rndOf (o.operand 0x604).toNat (o.operand 0x805)).mode = 5 then [40] else []
      (bits (o.operand 0x600) 4 0 :: bits (o.operand 0x602) 4 0 :: (if bit m 3 then [32 + bits m 2 0] else [])
        ++ lanes,
       bits (o.operand 0x601) 4 0 :: bits (o.operand 0x602) 4 0 :: lanes)
  | some .mx =>
    let e := o.operand 0x3C0
    (if bit e 0 && bit e 17 then [bits e 16 12] else [], [])
  | _ => ([], [])

def meets (a b : List Nat) : Bool := a.any fun x => b.contains x

/-- Whether an operation in flight before number `id` stands in the way of an access
to these registers (R256). -/
def Core.regBusy (k : Core) (id : Nat) (rs ws : List Nat) : Bool :=
  k.ops.any fun q =>
    decide (q.id < id) && (let t := q.regSets; meets rs t.2 || meets ws t.2 || meets ws t.1)

/-! ## One element (08 Table 8.3, R251-R253; 09 Table 9.1) -/

/-- The format of a floating-point FMT code. -/
def vecFmt (code : Nat) : Option Fmt := if code ≤ 3 then fmtOf code else none

def floatOp (f : Fmt) (v : VecCfg) (rd : Rnd) (x y d : Nat) : Num :=
  match v.port with
  | 0x218 => f.add rd x y
  | 0x219 => f.add rd x (f.flipSign y)
  | 0x21A => f.mul rd x y
  | 0x21B => f.fma rd false x y d
  | 0x21C => f.fma rd true x y d
  | 0x21D => f.minMax false x y
  | 0x21E => f.minMax true x y
  | 0x21F => f.abs x
  | 0x220 => f.negate x
  | 0x300 => f.divide rd x y
  | 0x301 => f.recip rd x
  | 0x302 => f.root rd x
  | p => f.func v.code p rd x

/-- A saturated integer of width `w` (07 Table 7.5 for integers). -/
def satInt (w : Nat) (z : Int) : Num :=
  let hi : Int := 2 ^ (w - 1) - 1
  if hi < z then { bits := uval w hi, fl := flSaturated }
  else if z < -hi - 1 then { bits := uval w (-hi - 1), fl := flSaturated }
  else { bits := uval w z }

def intOp (w p x y d : Nat) : Num :=
  let a := sval w x
  let b := sval w y
  match p with
  | 0x218 => { bits := uval w (a + b) }
  | 0x219 => { bits := uval w (a - b) }
  | 0x21A => { bits := uval w (a * b) }
  | 0x21B => { bits := uval w (a * b + sval w d) }
  | 0x21C => { bits := uval w (sval w d - a * b) }
  | 0x21D => { bits := if a ≤ b then x else y }
  | 0x21E => { bits := if a ≤ b then y else x }
  | 0x21F => { bits := if x = 2 ^ (w - 1) then Config.vecEdge p w % 2 ^ w else a.natAbs }
  | 0x220 => { bits := if x = 2 ^ (w - 1) then Config.vecEdge p w % 2 ^ w else uval w (-a) }
  | 0x221 => satInt w (a + b)
  | _ => satInt w (a - b)

/-- The result for raw bits x, y and the old destination d. -/
def vecCalc (v : VecCfg) (rd : Rnd) (x y d : Nat) : Num :=
  match v.port with
  | 0x223 => { bits := x }
  | 0x224 => { bits := v.scalar.toNat % 2 ^ v.w }
  | 0x228 => { bits := x &&& y }
  | 0x229 => { bits := x ||| y }
  | 0x22A => { bits := x ^^^ y }
  | 0x22B => { bits := x &&& (y ^^^ (2 ^ v.w - 1)) }
  | p =>
    match vecFmt v.code with
    | some f => floatOp f v rd.arith x y d
    | none => intOp v.w p x y d

/-- A comparison and its flags (R253). -/
def vecCompare (v : VecCfg) (x y : Nat) : Bool × Flags :=
  match vecFmt v.code with
  | some f =>
    let a := f.decode x
    let b := f.decode y
    let c := cmpVal a b
    let sig := a.quiet ||| b.quiet
    match v.port with
    | 0x230 => (c == .eq, sig)
    | 0x231 => (c != .eq, sig)
    | 0x232 => (c == .lt, if c = .unordered then flInvalid else 0)
    | _ => (c == .lt || c == .eq, if c = .unordered then flInvalid else 0)
  | none =>
    let a := sval v.w x
    let b := sval v.w y
    (match v.port with
      | 0x230 => decide (a = b)
      | 0x231 => decide (a ≠ b)
      | 0x232 => decide (a < b)
      | _ => decide (a ≤ b), 0)

/-- The trap that a lane's flags raise, if enabled (06 R198; 08 R254; 09 R277). -/
def Core.laneTrap (k : Core) (f : Flags) : Option Nat :=
  if bit f 1 && bit k.excEnable.cur 3 then some 8
  else if bit f 2 && bit k.excEnable.cur 2 then some 9
  else none

/-- Second operand of element `i`. -/
def Core.second (k : Core) (v : VecCfg) (i : Nat) : Nat :=
  if v.scalar2 then v.scalar.toNat % 2 ^ v.w else k.elem v.src2 v.w i

/-- What processing one element gives: the core and whether the element was written, or
the code of the trap at it with the element's flags. -/
abbrev Lane := (Core × Bool) ⊕ (Nat × Flags)

/-- The lane generator of an element that is written steps (07 R229): the core, and the
random bits. -/
def Core.laneDraw (k : Core) (v : VecCfg) (i : Nat) : Core × Nat :=
  if vecDraws v then k.drawLane i v.round.n else (k, 0)

/-- Element `i` of an operation with one result per element. -/
def Core.laneStep (k : Core) (v : VecCfg) (i : Nat) : Lane :=
  if isCompare v.port then
    if k.laneOn v i then
      let r := vecCompare v (k.elem v.src1 v.w i) (k.second v i)
      .inl ((k.putMask (v.dst % 8) i r.1).flag r.2, true)
    else if v.mzero then .inl (k.putMask (v.dst % 8) i false, true)
    else .inl (k, false)
  else if k.laneOn v i then
    let d := k.laneDraw v i
    let r := vecCalc v { v.round with r := d.2 } (k.elem v.src1 v.w i) (k.second v i) (k.elem v.dst v.w i)
    match k.laneTrap r.fl with
    | some code => .inr (code, r.fl)
    | none => .inl ((d.1.putElem v.dst v.w i r.bits).flag r.fl, true)
  else if v.mzero then .inl (k.putElem v.dst v.w i 0, true)
  else .inl (k, false)

/-! ## Reductions (09 R278-R283) -/

/-- The accumulation format; none for the 64-bit integers. -/
def accFmt (code : Nat) : Option Fmt :=
  if code = 0 then some fp64 else if code ≤ 3 then some fp32 else none

/-- An element widened exactly into the accumulation format; a NaN becomes the NaN of that
format (07 R219). -/
def widen (code w x : Nat) : Num :=
  match accFmt code, vecFmt code with
  | some a, some f => a.convert {} (f.decode x)
  | _, _ => { bits := uval 64 (sval w x) }

/-- A node with two values. -/
def redNode (code kind : Nat) (rd : Rnd) (x y : Nat) : Num :=
  match accFmt code with
  | some f =>
    match kind with
    | 1 => f.minMax true x y
    | 2 => f.minMax false x y
    | _ => f.add rd.nearest x y
  | none =>
    match kind with
    | 1 => { bits := if sval 64 x ≤ sval 64 y then y else x }
    | 2 => { bits := if sval 64 x ≤ sval 64 y then x else y }
    | _ => { bits := (x + y) % 2 ^ 64 }

/-- A node of the tree; an empty child passes the other one through. -/
def redPair (code kind : Nat) (rd : Rnd) (x y : Option Nat) : Option Nat × Flags :=
  match x, y with
  | none, b => (b, 0)
  | a, none => (a, 0)
  | some a, some b => let r := redNode code kind rd a b; (some r.bits, r.fl)

/-- One level of the tree. -/
def redLevel (code kind : Nat) (rd : Rnd) : List (Option Nat) → List (Option Nat) × Flags
  | a :: b :: t =>
    let p := redPair code kind rd a b
    let r := redLevel code kind rd t
    (p.1 :: r.1, p.2 ||| r.2)
  | l => (l, 0)

/-- The root over leaves, after at most `n` levels. -/
def redTree (code kind : Nat) (rd : Rnd) : Nat → List (Option Nat) → Option Nat × Flags
  | 0, l => (l.headD none, 0)
  | n + 1, l =>
    if l.length ≤ 1 then (l.headD none, 0)
    else
      let p := redLevel code kind rd l
      let r := redTree code kind rd n p.1
      (r.1, p.2 ||| r.2)

/-- The value of an empty root (Table 9.3). The integer formats of VREDMAX and VREDMIN
have none that the spec states (log 37). -/
def redEmpty (code kind : Nat) : Nat :=
  match accFmt code with
  | some f => if kind = 1 then f.inf true else if kind = 2 then f.inf false else 0
  | none => if kind = 1 ∨ kind = 2 then Config.vecEdge (0x340 + kind) 64 % 2 ^ 64 else 0

/-- A reduction of leaves. -/
def reduce (code kind : Nat) (rd : Rnd) (l : List (Option Nat)) : Num :=
  let r := redTree code kind rd 12 l
  { bits := r.1.getD (redEmpty code kind), fl := r.2 }

/-- The raw elements from `i` to below `n`, none where inactive. -/
def Core.leavesFrom (k : Core) (v : VecCfg) (i n : Nat) : List (Option W64) :=
  (List.range (n - i)).map fun j =>
    if k.laneOn v (i + j) then some (BitVec.ofNat 64 (k.elem v.src1 v.w (i + j))) else none

/-- Leaves widened into the accumulation format, with their flags. -/
def widenLeaves (v : VecCfg) (l : List (Option W64)) : List (Option Nat) × Flags :=
  l.foldr (fun x p => match x with
    | some b => let r := widen v.code v.w b.toNat; (some r.bits :: p.1, r.fl ||| p.2)
    | none => (none :: p.1, p.2)) ([], 0)

/-! ## Softmax (09 R285-R288) -/

/-- A pair (m, s) in the accumulation format, and the flags of forming it. -/
structure SmPair where
  m : Nat
  s : Nat
  fl : Flags := 0
  deriving DecidableEq, Repr

/-- s × e^(x − m). -/
def smScaled (f : Fmt) (rd : Rnd) (s x m : Nat) : Num :=
  let d := f.add rd x (f.flipSign m)
  let e := f.exp rd d.bits
  let p := f.mul rd s e.bits
  { bits := p.bits, fl := d.fl ||| e.fl ||| p.fl }

/-- The larger of two values that are not NaN. -/
def fmax (f : Fmt) (x y : Nat) : Nat := (f.minMax true x y).bits

/-- merge (R286); a signalling NaN in either pair sets INVALID (07 R219). -/
def smMerge (f : Fmt) (rd : Rnd) (a b : SmPair) : SmPair :=
  let ma := f.decode a.m
  let mb := f.decode b.m
  let fl := a.fl ||| b.fl ||| ma.quiet ||| mb.quiet ||| (f.decode a.s).quiet ||| (f.decode b.s).quiet
  if ma.isNan || mb.isNan then { m := f.nan, s := f.nan, fl := fl }
  else if ma = .inf false ∧ mb = .inf false then
    let r := f.add rd a.s b.s
    { m := a.m, s := r.bits, fl := fl ||| r.fl }
  else if ma = .inf false then { m := a.m, s := (f.canon a.s).bits, fl := fl }
  else if mb = .inf false then { m := b.m, s := (f.canon b.s).bits, fl := fl }
  else
    let m := fmax f a.m b.m
    if f.decode m = .inf true then { m := f.inf true, s := 0, fl := fl }
    else
      let x := smScaled f rd a.s a.m m
      let y := smScaled f rd b.s b.m m
      let r := f.add rd x.bits y.bits
      { m := m, s := r.bits, fl := fl ||| x.fl ||| y.fl ||| r.fl }

/-- The lowest leaf whose step in forming a partial pair overflows. -/
def smOver (f : Fmt) (rd : Rnd) (l : List (Option Nat)) : Option Nat :=
  let m := (l.filterMap id).foldl (fmax f) (f.inf true)
  firstIf (fun i => match nth l i with
    | some (some x) => bit (f.add rd x (f.flipSign m)).fl 2
    | _ => false) (List.range l.length)

/-- The partial pair over leaves in the accumulation format (R286). -/
def smPartial (f : Fmt) (code : Nat) (rd : Rnd) (l : List (Option Nat)) : SmPair :=
  let xs := l.filterMap id
  let infs := (xs.filter fun x => f.decode x == .inf false).length
  if xs.any fun x => (f.decode x).isNan then { m := f.nan, s := f.nan, fl := flInvalid }
  else if 0 < infs then { m := f.inf false, s := (f.round rd false false infs 0 false).bits }
  else
    let m := xs.foldl (fmax f) (f.inf true)
    if f.decode m = .inf true then { m := m, s := 0 }
    else
      let es := l.map fun x => x.map fun x =>
        let d := f.add rd x (f.flipSign m)
        let e := f.exp rd d.bits
        (e.bits, d.fl ||| e.fl)
      let fl := es.foldl (fun a e => match e with | some q => a ||| q.2 | none => a) (0 : Flags)
      let r := reduce code 0 rd (es.map fun e => e.map Prod.fst)
      { m := m, s := r.bits, fl := fl ||| r.fl }

/-- One element of VSMAPPLY (R287), converted under VX_ROUND in every format; `nan` says
that some active element is NaN. -/
def smApply (v : VecCfg) (f t : Fmt) (pair : SmPair) (nan : Bool) (x : Nat) : Num :=
  let rd := v.round.nearest
  let m := f.decode pair.m
  let x' := (widen v.code v.w x).bits
  let one := (f.round {} false false 1 0 false).bits
  let out : Num :=
    if m.isNan || nan then { bits := f.nan, fl := flInvalid }
    else if m = .inf true ∨ (f.decode pair.s).isZero then { bits := 0, fl := flEmptyRow }
    else if m = .inf false then
      (if f.decode x' = .inf false then f.divide rd one pair.s else { bits := 0 })
    else
      let d := f.add rd x' (f.flipSign pair.m)
      let e := f.exp rd d.bits
      let q := f.divide rd e.bits pair.s
      { bits := q.bits, fl := d.fl ||| e.fl ||| q.fl }
  let r := t.convert v.round.steady (f.decode out.bits)
  { bits := r.bits, fl := out.fl ||| r.fl }

/-- Whether some active element is NaN. -/
def Core.rowNan (k : Core) (v : VecCfg) (f : Fmt) : Bool :=
  (List.range v.vl).any fun i => k.laneOn v i && (f.decode (k.elem v.src1 v.w i)).isNan

/-- Element `i` of VSMAPPLY: inactive elements become +0 (R289). -/
def Core.applyStep (k : Core) (v : VecCfg) (f t : Fmt) (pair : SmPair) (nan : Bool) (i : Nat) : Lane :=
  if k.laneOn v i then
    let r := smApply v f t pair nan (k.elem v.src1 v.w i)
    match k.laneTrap r.fl with
    | some code => .inr (code, r.fl)
    | none => .inl ((k.putElem v.dst v.w i r.bits).flag r.fl, true)
  else .inl (k.putElem v.dst v.w i 0, true)

/-! ## Running an operation -/

/-- The elements from `i` on, `n` of them: the core, the first element not done, the
elements written, and a trap. The flags of an element that traps are set (R254). -/
def eachLane (f : Core → Nat → Lane) : Nat → Nat → Core → Core × Nat × Nat × Option Nat
  | 0, i, k => (k, i, 0, none)
  | n + 1, i, k =>
    match f k i with
    | .inr t => (k.flag t.2, i, 0, some t.1)
    | .inl r =>
      let q := eachLane f n (i + 1) r.1
      (q.1, q.2.1, q.2.2.1 + b2n r.2, q.2.2.2)

/-- VX_SM_M and VX_SM_S of an operation, in the accumulation format. -/
def Op.pair (o : Op) (f : Fmt) (m s : Nat) : SmPair :=
  { m := (o.operand m).toNat % 2 ^ f.width, s := (o.operand s).toNat % 2 ^ f.width }

/-- Results to be written to the result ports of an operation. -/
abbrev VecEnd := Core × Op × List W64 × Option Nat

/-- Whether element `i` lies wholly in bytes a load has received. -/
def Op.loaded (o : Op) (w i : Nat) : Nat :=
  ofBytes ((List.range (w / 8)).map fun j => (nget none o.buf (i * (w / 8) + j)).getD 0)

/-- Element `i` of VLOAD or VSTORE, whose memory accesses are done. -/
def Core.memStep (o : Op) (v : VecCfg) (k : Core) (i : Nat) : Lane :=
  if k.laneOn v i then
    if o.port = 0x210 then .inl ((k.laneDraw v i).1.putElem v.dst v.w i (o.loaded v.w i), true) else .inl (k, true)
  else if v.mzero && o.port == 0x210 then .inl (k.putElem v.dst v.w i 0, true)
  else .inl (k, false)

/-- Mask operations (Table 8.3): the core and VX_MCOUNT. -/
def Core.maskOp (k : Core) (v : VecCfg) : Core × List W64 :=
  let a := k.mregOf (v.src1 % 8)
  let b := k.mregOf (v.src2 % 8)
  let put (x : BitVec 1024) : Core × List W64 := ({ k with mreg := nset (v.dst % 8) x k.mreg }, [])
  match v.port with
  | 0x238 => put (a &&& b)
  | 0x239 => put (a ||| b)
  | 0x23A => put (a ^^^ b)
  | 0x23B => put (~~~a)
  | 0x23C => put (BitVec.ofNat 1024 (2 ^ min v.scalar.toNat 1024 - 1))
  | _ => (k, [BitVec.ofNat 64 (popCount v.vl a.toNat)])

/-- A long operation's elements from its index to `stop`, with its progress. -/
def Core.runLanes (k : Core) (o : Op) (f : Core → Nat → Lane) (stop : Nat) : VecEnd :=
  let q := eachLane f (stop - o.index) o.index k
  (q.1, { o with index := q.2.1, pos := o.pos + q.2.2.1 }, [], q.2.2.2)

/-- The pass of an operation that only reads elements: they join its leaves. -/
def Core.runLeaves (k : Core) (o : Op) (v : VecCfg) (stop : Nat) : Op :=
  { o with leaves := o.leaves ++ k.leavesFrom v o.index stop, index := max o.index stop }

/-- The apply pass: whether the row holds a NaN is kept in `occ` (1 no, 2 yes). -/
def Core.runApply (k : Core) (o : Op) (v : VecCfg) (f t : Fmt) (pair : SmPair) (stop : Nat) : VecEnd :=
  let o := if o.occ = 0 then { o with occ := if k.rowNan v t then 2 else 1 } else o
  k.runLanes o (fun k i => k.applyStep v f t pair (o.occ == 2) i) stop

/-- A softmax operation run to element `stop` of its pass, and to element `next` of the
pass after it. An overflow of a pair traps (07 R222): at the lowest element whose step
overflows, or, where the merge does, past the last one (log 58). -/
def Core.runSoftmax (k : Core) (o : Op) (v : VecCfg) (f t : Fmt) (stop next : Nat) : VecEnd :=
  let rd := v.round.nearest
  match o.port with
  | 0x383 =>
    let r := smMerge f rd (o.pair f 0x390 0x391) (o.pair f 0x392 0x393)
    (match k.laneTrap r.fl with
      | some code => (k.flag r.fl, o, [], some code)
      | none => (k.flag r.fl, { o with index := v.vl }, [BitVec.ofNat 64 r.m, BitVec.ofNat 64 r.s], none))
  | 0x382 => k.runApply o v f t (o.pair f 0x390 0x391) stop
  | _ =>
    if o.pass = 0 then
      let o := k.runLeaves o v stop
      if o.index < v.vl then (k, o, [], none)
      else
        let l := widenLeaves v o.leaves
        let r := smMerge f rd (smPartial f v.code rd l.1)
          (if o.port = 0x381 then o.pair f 0x390 0x391 else { m := f.inf true, s := 0 })
        let fl := r.fl ||| l.2
        match k.laneTrap fl with
        | some code =>
          let i := (smOver f rd l.1).getD v.vl
          (k.flag fl, { o with index := i, leaves := o.leaves.take i }, [], some code)
        | none =>
          if o.port = 0x381 then (k.flag fl, o, [BitVec.ofNat 64 r.m, BitVec.ofNat 64 r.s], none)
          else
            let o := { o with pass := 1, index := 0, leaves := [], res := BitVec.ofNat 64 r.m, res2 := BitVec.ofNat 64 r.s }
            Core.runApply (k.flag fl) o v f t { m := r.m, s := r.s } next
    else k.runApply o v f t { m := o.res.toNat, s := o.res2.toNat } stop

/-- An operation run up to element `stop` of its pass, and up to `next` of the second pass
that VSOFTMAX may then come to: the core, the operation's progress, the results once it is
complete, a trap. -/
def Core.runVec (k : Core) (o : Op) (stop next : Nat) : VecEnd :=
  let v := o.vec
  let p := o.port
  if p = 0x210 ∨ p = 0x211 then k.runLanes o (Core.memStep o v) stop
  else if isMaskOp p then
    let r := k.maskOp v
    (r.1, { o with pos := if p = 0x23D then 0 else 1024, index := v.vl }, r.2, none)
  else if isReduction p then
    let o := k.runLeaves o v stop
    if o.index < v.vl then (k, o, [], none)
    else
      let l := widenLeaves v o.leaves
      let r := reduce v.code (p - 0x340) v.round l.1
      (k.flag (r.fl ||| l.2), o, [BitVec.ofNat 64 r.bits], none)
  else if p = 0x343 then
    let kind := bits o.b 1 0 % 3
    let width := match accFmt v.code with | some f => f.width | none => 64
    let side : Nat → Nat → Option Num := fun q i =>
      if bit (o.operand 0x353) i then none
      else
        let x := (o.operand q).toNat % 2 ^ width
        some (match accFmt v.code with | some f => f.canon x | none => { bits := x })
    let a := side 0x351 0
    let b := side 0x352 1
    let fl (x : Option Num) : Flags := match x with | some x => x.fl | none => 0
    let r := redPair v.code kind v.round (a.map Num.bits) (b.map Num.bits)
    (k.flag (r.2 ||| fl a ||| fl b), { o with index := v.vl }
     , [BitVec.ofNat 64 (r.1.getD (redEmpty v.code kind))], none)
  else if inRange 0x380 0x383 p then
    match accFmt v.code, vecFmt v.code with
    | some f, some t => k.runSoftmax o v f t stop next
    | _, _ => (k, o, [], none)
  else k.runLanes o (fun k i => k.laneStep v i) stop

/-! ## Completion and faults -/

/-- The element at which an operation stops: its length, or the first one that an
address or a response forbids. -/
def Op.vecStop (o : Op) : Nat := match o.limit with | some n => min n o.vec.vl | none => o.vec.vl

/-- Whether every memory access of an operation has been answered, or accepted. -/
def Core.accsDone (k : Core) (id : Nat) : Bool := !(k.accs.any fun a => a.op == id && !a.accepted)

/-- A stopped operation leaves flight for its suspend slot; where the slot is held by
an outer operation it is abandoned (06 R194, R199; log 38). -/
def Core.toVecSlot (k : Core) (o : Op) : Core :=
  let k := { k with ops := k.ops.filter (fun q => q.id != o.id), accs := k.accs.filter (fun a => a.op != o.id || a.accepted) }
  match k.slotVec with
  | none => { k with
      slotVec := some o
      due := mapIf (fun d => d.waitOp == some o.id) (fun d => { d with filled := d.filled ||| 1 }) k.due }
  | some _ => k

/-- A lane trap stops an operation at its lowest faulting element (06 R199, R198). -/
def Core.vecTrap (k : Core) (o : Op) (code : Nat) : Core :=
  Core.toVecSlot (k.fault { code := code, waitOp := some o.id }) o

/-- An operation leaves flight with VX_DONE and its other results (R258). An MPOP of no
element writes nothing (R246). -/
def Core.vecEnd (k : Core) (o : Op) (vs : List W64) : Core :=
  k.finish o (BitVec.ofNat 64 o.pos :: (if o.port = 0x23D ∧ o.vec.vl = 0 then [] else vs))

/-- An operation that is performed: it completes, or stops at an element. -/
def Core.vecDone (k : Core) (o : Op) : Core :=
  let r := k.runVec o o.vecStop o.vec.vl
  match r.2.2.2 with
  | some code => r.1.vecTrap r.2.1 code
  | none => if o.limit.isSome then r.1.toVecSlot r.2.1 else r.1.vecEnd r.2.1 r.2.2.1

/-- Whether an operation is a VLOAD or VSTORE. -/
def Op.vecMem (o : Op) : Bool := o.port == 0x210 || o.port == 0x211

/-- Whether the registers of a vector operation are free of earlier operations (R256). -/
def Core.vecFree (k : Core) (o : Op) : Bool := let t := o.regSets; !k.regBusy o.id t.1 t.2

/-- Whether the oldest vector operation can be performed (R255, R256, R263). -/
def Core.vecReady (k : Core) (o : Op) : Bool := o.stage != .queued && k.accsDone o.id && k.vecFree o

/-- Whether the unit has issued every group of a vector operation in flight: it stops at no
element, and waits for no register that its groups read (R255). -/
def Core.vecIssued (k : Core) (o : Op) : Bool :=
  o.limit.isNone && o.stage != .queued
    && (o.port == 0x210 || (k.vecFree o && (k.runVec o o.vecStop o.vec.vl).2.2.2.isNone))

end Sys2Proof.Machine
end

