-- ==== Sys2Proof/Machine/Convert.lean ====
section
/-!
DEFINITION. The conversion unit (07 R236-R242, Table 7.6). Operations run one at a time
in firing order.
-/
namespace Sys2Proof.Machine

/-! ## Formats (07 Tables 7.2, 7.3) -/

def isMx (c : Nat) : Bool := inRange 0x6 0xB c

/-- Width of an element of a format code. -/
def codeWidth (c : Nat) : Nat :=
  match c with
  | 0x0 => 64
  | 0x1 | 0xE => 32
  | 0x2 | 0x3 => 16
  | 0x8 | 0x9 => 6
  | 0xA | 0xD => 4
  | _ => 8

/-- EMAX of an MX element format (R237). -/
def mxEmax (c : Nat) : Int :=
  match c with
  | 0x6 => 8 | 0x7 => 15 | 0x8 => 2 | 0x9 => 4 | 0xA => 2 | _ => 0

/-- An integer as a value, in units of 2^e. -/
def intVal (z e : Int) : Val := .fin (decide (z < 0)) z.natAbs e

/-- A value multiplied by 2^k. -/
def Val.scale (v : Val) (k : Int) : Val :=
  match v with
  | .fin s m e => .fin s m (e + k)
  | x => x

/-- An element of a format code, its block scale byte taken in for an MX format
(R223, R238). -/
def codeValue (c x scale : Nat) : Val :=
  if isMx c && scale == 255 then .nan false
  else
    let k : Int := if isMx c then (scale : Int) - 127 else 0
    match fmtOf c with
    | some f => (f.decode x).scale k
    | none => if c = 0xB then intVal (sval 8 x) (k - 6) else intVal (sval (codeWidth c) x) 0

/-- A value rounded to a signed integer of `w` bits in units of 2^u (Table 7.5). -/
def toInteger (w : Nat) (u : Int) (rd : Rnd) (v : Val) : Num :=
  let hi : Int := 2 ^ (w - 1) - 1
  match v with
  | .nan _ => { bits := 0, fl := flInvalid }
  | .inf s => { bits := uval w (if s then -hi - 1 else hi), fl := flSaturated }
  | .fin s m e =>
    let p := roundAt rd s m e u false
    let z : Int := if s then -(p.1 : Int) else p.1
    if hi < z then { bits := uval w hi, fl := flSaturated ||| flInexact }
    else if z < -hi - 1 then { bits := uval w (-hi - 1), fl := flSaturated ||| flInexact }
    else { bits := uval w z, fl := if p.2 then flInexact else 0 }

/-- A value rounded once into a target that has no block scale (R236). -/
def toCode (c : Nat) (rd : Rnd) (v : Val) : Num :=
  if c = 0xC then toInteger 8 0 rd v
  else if c = 0xD then toInteger 4 0 rd v
  else match fmtOf c with
    | some f => f.convert rd v
    | none => { bits := 0 }

/-- A value, its block scale divided out, rounded into an MX element (Table 7.5). -/
def toMxElement (c : Nat) (rd : Rnd) (v : Val) : Num :=
  match fmtOf c with
  | some f =>
    (match v with
      | .nan _ => { bits := 0, fl := flInvalid }
      | .inf s => { bits := f.signBit s + f.maxEnc, fl := flSaturated }
      | .fin s m e => f.round rd true s m e false)
  | none => toInteger 8 (-6) rd v

/-! ## Block scales (R237, R223) -/

/-- The larger of two magnitudes that are not NaN. -/
def maxMag (a b : Val) : Val :=
  let abs : Val → Val := fun v => match v with | .inf _ => .inf false | .fin _ m e => .fin false m e | x => x
  match cmpVal (abs a) (abs b) with
  | .lt => abs b
  | _ => abs a

/-- X of a block's values after CV_SCALE; none where one is NaN. -/
def blockScale (c : Nat) (vs : List Val) : Option Int :=
  if vs.any Val.isNan then none
  else
    match vs.foldl maxMag (.fin false 0 0) with
    | .fin _ m e => if m = 0 then some (-127) else some (max (-127) (min 127 (leading m e - mxEmax c)))
    | _ => some 127

/-! ## One conversion -/

/-- The operands of a CONVERT. `from_` and `scales` are the source register and the
scale register as they stood when the operation began (R233; log 39). -/
structure CvCfg where
  src : Nat
  dst : Nat
  sdst : Nat
  sc : Nat
  dc : Nat
  k : Int
  men : Bool
  mreg : Nat
  round : Rnd
  amaxEn : Bool
  amax : Nat
  count : Nat
  from_ : BitVec 8192
  scales : BitVec 8192
  deriving DecidableEq, Repr

def clampScale (z : Int) : Int := max (-254) (min 254 z)

/-- The count used (R241). -/
def cvCount (fmt b : W64) : Nat :=
  min (bits b 10 0) (min (8192 / codeWidth (bits fmt 3 0)) (8192 / codeWidth (bits fmt 11 8)))

def Core.cvOf (k : Core) (o : Op) : CvCfg :=
  let fmt := o.operand 0x603
  let rw := o.operand 0x604
  let src := bits (o.operand 0x600) 4 0
  let sdst := bits (o.operand 0x602) 4 0
  { src := src, dst := bits (o.operand 0x601) 4 0, sdst := sdst, sc := bits fmt 3 0, dc := bits fmt 11 8
    k := clampScale (sval 16 (bits (o.operand 0x605) 15 0))
    men := bit (o.operand 0x606) 3, mreg := bits (o.operand 0x606) 2 0
    round := rndOf rw.toNat (o.operand 0x805), amaxEn := bit rw 22, amax := bits rw 21 20
    count := cvCount fmt o.b
    from_ := match o.held with | some p => p.1 | none => k.vregOf src
    scales := match o.held with | some p => p.2 | none => k.vregOf sdst }

def Core.cvActive (k : Core) (v : CvCfg) (i : Nat) : Bool :=
  !v.men || (if i < 1024 then k.maskBit v.mreg i else Config.maskBeyond (k.mregOf v.mreg) i)

/-- Source element `i`. -/
def CvCfg.value (v : CvCfg) (i : Nat) : Val :=
  let w := codeWidth v.sc
  codeValue v.sc ((v.from_.toNat >>> (w * i)) % 2 ^ w) ((v.scales.toNat >>> (8 * (i / 32))) % 256)

/-- The scale of element `i`'s block; masked-off elements are not read. -/
def Core.cvBlock (k : Core) (v : CvCfg) (i : Nat) : Option Int :=
  let j := i / 32
  blockScale v.dc (((List.range 32).map fun n => 32 * j + n).filterMap fun e =>
    if e < v.count && k.cvActive v e then some ((v.value e).scale v.k) else none)

/-- The running maximum takes an element (R236). -/
def Core.observe (k : Core) (a : Nat) (x : Val) : Core :=
  match x with
  | .nan _ => { k with nanSeen := k.nanSeen ||| BitVec.ofNat 4 (2 ^ a) }
  | x =>
    let mag : Val := match x with | .inf _ => .inf false | .fin _ m e => .fin false m e | q => q
    { k with amax := nset a (BitVec.ofNat 64
        (fp64.minMax true (nget 0 k.amax a).toNat (fp64.result {} mag).bits).bits) k.amax }

/-- Random bits of element `i`. -/
def Core.cvDraw (k : Core) (v : CvCfg) (i : Nat) : Core × Nat :=
  if v.round.mode = 5 then
    (if i < 1024 then k.drawLane i v.round.n else (k, Config.laneBeyond (k.lane (i % 1024)) i % 2 ^ v.round.n))
  else (k, 0)

/-- Element `i` of a conversion (R236, R238). -/
def Core.cvStep (v : CvCfg) (k : Core) (i : Nat) : Lane :=
  let block := if isMx v.dc && i % 32 == 0 then k.cvBlock v i else none
  let k := if isMx v.dc && i % 32 == 0 then
      k.putElem v.sdst 8 (i / 32) (match block with | some x => (x + 127).toNat | none => 255) else k
  if k.cvActive v i then
    let x := v.value i
    let d := k.cvDraw v i
    let rd := { v.round with r := d.2 }
    let y := x.scale v.k
    let r : Num :=
      if isMx v.dc then
        (match k.cvBlock v i with
          | some e => toMxElement v.dc rd (y.scale (-e))
          | none => { bits := 0, fl := flInvalid })
      else toCode v.dc rd y
    match k.laneTrap (r.fl &&& flOverflow) with
    | some code => .inr (code, r.fl)
    | none =>
      let k := (d.1.putElem v.dst (codeWidth v.dc) i r.bits).flag r.fl
      .inl (if v.amaxEn then k.observe v.amax x else k, true)
  else .inl (k, false)

/-! ## SCALE_FROM_MAX (R239) -/

/-- The largest finite value of a target format. -/
def codeMax (c : Nat) : Val :=
  match fmtOf c with
  | some f => f.decode f.maxEnc
  | none =>
    if c = 0xB then .fin false 127 (-6) else .fin false (2 ^ (codeWidth c - 1) - 1) 0

/-- The largest k from `z` down, in `n` steps, for which a × 2^k fits. -/
def fitScale (a top : Val) : Nat → Int → Int
  | 0, z => z
  | n + 1, z =>
    match cmpVal (a.scale z) top with
    | .gt => fitScale a top n (z - 1)
    | _ => z

/-- CV_SCALE_RES and the flags. -/
def scaleFromMax (a : W64) (c : Nat) : W64 × Flags :=
  if c = 0xF then (Config.scaleReserved a, 0)
  else match fp64.decode a.toNat with
    | .fin s m e => if m = 0 then (0, 0) else (BitVec.ofInt 64 (fitScale (.fin s m e) (codeMax c) 508 254), 0)
    | _ => (0, flInvalid)

/-! ## Running -/

/-- A conversion run up to element `stop`; it keeps its source for a resume, which so gives
the results of an uninterrupted run (R233). -/
def Core.runCv (k : Core) (o : Op) (stop : Nat) : VecEnd :=
  let v := k.cvOf o
  k.runLanes { o with held := some (v.from_, v.scales) } (Core.cvStep v) stop

/-- A stopped conversion goes to its suspend slot, or is abandoned where the slot is
held (06 R194, R199; log 38). -/
def Core.toCvSlot (k : Core) (o : Op) : Core :=
  let k := { k with ops := k.ops.filter fun q => q.id != o.id }
  match k.slotCv with
  | none => { k with
      slotCv := some o
      due := mapIf (fun d => d.waitOp == some o.id) (fun d => { d with filled := d.filled ||| 8 }) k.due }
  | some _ => k

/-- The oldest conversion is performed. -/
def Core.cvDone (k : Core) (o : Op) : Core :=
  if o.port = 0x612 then
    let r := scaleFromMax (nget 0 k.amax (bits o.b 1 0)) (bits o.b 11 8)
    (k.finish o [r.1]).flag r.2
  else
    let n := cvCount (o.operand 0x603) o.b
    let r := k.runCv o n
    match r.2.2.2 with
    | some code => Core.toCvSlot (r.1.fault { code := code, waitOp := some o.id }) r.2.1
    | none => r.1.finish o [BitVec.ofNat 64 n]

/-- What a CONVERT trigger refuses (Table 7.6). -/
def cvIllegal (fmt : W64) : Bool :=
  let s := bits fmt 3 0
  let d := bits fmt 11 8
  s == 0xF || d == 0xF || d == 0xE || (isMx s && isMx d)

/-- CONVERT_COMPLETE. -/
def execConvertComplete (c : Nat) (s : State) : Host.Outcome State Fault Refusal :=
  need (Instr.convertComplete c).WellFormed s fun s => whenUp s fun s =>
    s.modCore c fun k =>
      match k.oldest (isUnit .cv) with
      | some o => if k.regBusy o.id o.regSets.1 o.regSets.2 then k else k.cvDone o
      | none => k

end Sys2Proof.Machine
end

