-- ==== Sys2Proof/Machine/Order.lean ====
section
/-!
DEFINITION. The accesses of a core in program order, and what each must wait for (12
R381-R390, 13 R405-R407, 10 R324, 03 R86).
-/
namespace Sys2Proof.Machine

/-! ## Destinations (12 R381) -/

inductive Dest where
  | hbm | yard (c : Nat) | package (p : Nat) | host | sysreg | cport (c : Nat) | sem | depot | nowhere
  deriving DecidableEq, Repr

/-- The destination of a global address. -/
def State.destOf (s : State) (a : Nat) : Dest :=
  if s.isLocal a then
    match decodeLocal (localOf a) with
    | .hbm _ => .hbm
    | .yard c _ => .yard c
    | .cport c _ => .cport c
    | .sem .. => .sem
    | .depot _ => .depot
    | .sysreg _ => .sysreg
    | .host _ => .host
    | .unmapped => .nowhere
  else .package (pkgOf a)

/-- Whether a global address may hold vector or tile-mover data (08 R260). -/
def memoryLike (a : Nat) : Bool :=
  match decodeLocal (localOf a) with
  | .hbm _ | .yard .. | .host _ => true
  | _ => false

/-! ## Accesses -/

def AccKind.isLoad : AccKind → Bool
  | .load | .atomic _ => true
  | _ => false

/-- Ordered as a store (12 R389). -/
def AccKind.isStore : AccKind → Bool
  | .store | .atomic _ | .clean | .flush | .prefetch => true
  | _ => false

def AccKind.isAtomic : AccKind → Bool
  | .atomic _ => true
  | _ => false

def AccKind.isFence : AccKind → Bool
  | .fence _ => true
  | _ => false

/-- A load has its value, a store is visible. -/
def Access.done (a : Access) : Bool := a.stage == .served

/-- Program order (12 R382): the order of firing, and of the accesses of one
operation. -/
def Access.before (x y : Access) : Bool := x.op < y.op || (x.op == y.op && x.id < y.id)

/-- Whether two accesses touch a byte in common; the package's own bytes have two
global addresses (01 R33). -/
def State.overlaps (s : State) (x y : Access) : Bool :=
  let a := s.canonical x.addr
  let b := s.canonical y.addr
  decide (a < b + y.bytes.length) && decide (b < a + x.bytes.length)

/-- Whether a store's data is known: a VSTORE takes it from its register when its
access is performed. -/
def Core.dataKnown (k : Core) (x : Access) : Bool :=
  x.stage != .issued || !(k.ops.any fun o => o.id == x.op && o.port == 0x211)

/-- Whether a later load of the same bytes may take them from an earlier store that
is not yet visible (12 R385). -/
def State.forwards (s : State) (k : Core) (x : Access) : Bool :=
  x.kind == .store && memoryLike x.addr && k.dataKnown x
    && (match s.destOf x.addr with | .host => false | _ => true)

/-- Whether a destination is the yard of a core other than `c`. -/
def Dest.remoteYard (c : Nat) : Dest → Bool
  | .yard d => d != c
  | _ => false

/-- Whether earlier access `x` of core `c`, not yet done, keeps access `y` waiting (12 Tables
12.3, 12.4, R388). Accesses to one remote yard keep their order (11 R332). -/
def State.holds (s : State) (c : Nat) (k : Core) (x y : Access) : Bool :=
  match x.kind with
  | .fence p => if p = 0x781 then y.kind.isStore else true
  | .invalL1 | .invalL1All => false
  | _ =>
    if x.kind.isAtomic || y.kind.isAtomic then true
    else if y.kind.isStore then x.kind.isLoad || s.destOf x.addr == s.destOf y.addr
    else if x.kind.isLoad then s.destOf x.addr == s.destOf y.addr
    else (s.overlaps x y && !s.forwards k x)
      || ((s.destOf x.addr).remoteYard c && s.destOf x.addr == s.destOf y.addr)

/-! ## Operations whose accesses are not listed one by one -/

/-- Bytes [a, a + n) of the yard of core `c`, if the global address lies there. -/
def State.ownRange (s : State) (c a n : Nat) : Option (Nat × Nat) :=
  if s.isLocal a then
    match decodeLocal (localOf a) with
    | .yard d o => if d = c then some (o, o + n) else none
    | _ => none
  else none

def crosses (a b : Nat × Nat) : Bool := decide (a.1 < b.2) && decide (b.1 < a.2)

/-- Rows and bytes per row of a TMOVE (10 Table 10.4). -/
def Op.mvRows (o : Op) : Nat := bits (o.operand 0x422) 11 0
def Op.mvBytes (o : Op) : Nat := bits (o.operand 0x422) 31 16
def Op.mvSrc (o : Op) (r : Nat) : Nat := (bits (o.operand 0x420) 55 0 + r * bits (o.operand 0x423) 23 0) % 2 ^ 56
def Op.mvDst (o : Op) (r : Nat) : Nat := (bits (o.operand 0x421) 55 0 + r * bits (o.operand 0x424) 23 0) % 2 ^ 56

/-- Whether a byte range meets the rows of a TMOVE still to be written. -/
def State.mvWrites (s : State) (o : Op) (a n : Nat) : Bool :=
  let a := s.canonical a
  (List.range o.mvRows).any fun r =>
    let d := s.canonical (o.mvDst r)
    decide (o.index ≤ r) && decide (a < d + o.mvBytes) && decide (d < a + n)

/-- Whether a TMOVE still has rows to load from the destination of an address. -/
def State.mvReads (s : State) (o : Op) (a : Nat) : Bool :=
  (List.range o.mvRows).any fun r => decide (o.index ≤ r) && s.destOf (o.mvSrc r) == s.destOf a

/-- Whether it still has rows to store there. -/
def State.mvStores (s : State) (o : Op) (a : Nat) : Bool :=
  (List.range o.mvRows).any fun r => decide (o.index ≤ r) && s.destOf (o.mvDst r) == s.destOf a

/-- Whether an operation in flight has stores to the destination of an address that are not
among the core's accesses yet. -/
def State.sendsTo (s : State) (o : Op) (a : Nat) : Bool :=
  match longUnit o.port with
  | some .mv => s.mvStores o a
  | some .vec => o.stage == .queued
  | _ => false

/-- Whether an earlier TMOVE in flight keeps an access waiting: its rows are loads and
stores at its place in program order (10 R323). -/
def State.moveHolds (s : State) (c : Nat) (o : Op) (y : Access) : Bool :=
  y.kind.isAtomic || y.kind.isStore
    || s.mvReads o y.addr || ((s.destOf y.addr).remoteYard c && s.mvStores o y.addr) || s.mvWrites o y.addr y.bytes.length

/-- Whether an earlier matrix operation in flight does: it loads from its own yard and stores
there, at its place in firing order (10 R324; 12 R384). -/
def State.mxHolds (s : State) (c : Nat) (o : Op) (y : Access) : Bool :=
  y.kind.isAtomic || y.kind.isStore || (s.destOf y.addr == .yard c && o.port != 0x413)
    || (match s.ownRange c y.addr y.bytes.length with
      | some r => o.spans.any (crosses r)
      | none => false)

/-- Whether an earlier operation of a unit keeps an access waiting (10 R324; 13 R407; 14 R442,
R443; 12 R387, R388). The tile mover works on one operation at a time, and a VLOAD or VSTORE that
awaits its mask holds whatever follows it (08 R262). -/
def State.opHolds (s : State) (c : Nat) (o : Op) (y : Access) : Bool :=
  if o.port = 0x691 ∨ o.port = 0x692 then true
  else if inRange 0x710 0x714 o.port then !isAsync (o.operand 0x703) || (o.stage == .running && s.destOf y.addr == .depot)
  else if inRange 0x690 0x698 o.port && o.stage == .running && s.destOf y.addr == .sem then true
  else match longUnit o.port with
    | some .mv => s.moveHolds c o y || ((s.core c).ops.any fun q => q.id == y.op && q.port == 0x428)
    | some .mx => s.mxHolds c o y
    | some .vec => o.stage == .queued
    | _ => false

/-- Whether a request leaves its core's region, whose border is idle between START and
UNISOLATE (03 R86). -/
def State.atBorder (s : State) (c a : Nat) : Bool :=
  (s.region (regionOf c)).st == .startedIsolated
    && (match s.destOf a with
        | .yard d | .cport d => regionOf d != regionOf c
        | .nowhere => false
        | _ => true)

/-- Whether access `y` of core `c` must still wait. -/
def State.blocked (s : State) (c : Nat) (y : Access) : Bool :=
  let k := s.core c
  s.atBorder c y.addr
    || k.accs.any (fun x => x.before y && !x.done && s.holds c k x y)
    || k.ops.any (fun o => decide (o.id < y.op) && s.opHolds c o y)
    || (y.kind == .store && !k.dataKnown y && (match k.ops.filter fun o => o.id == y.op with
        | o :: _ => k.regBusy o.id o.regSets.1 o.regSets.2
            || k.accs.any (fun x => x.op == y.op && x.id < y.id && !x.done)
        | [] => false))

/-- Whether every load, and if `stores` every store, fired before operation `id` is
done: what a fence there waits for (12 Table 12.4). -/
def Core.fenced (k : Core) (id : Nat) (stores : Bool) : Bool :=
  !(k.accs.any fun x => decide (x.op < id) && !x.done && !x.kind.isFence
      && (x.kind.isLoad || (stores && x.kind.isStore)))
    && !(k.ops.any fun o => decide (o.id < id)
        && (longUnit o.port == some .mv || longUnit o.port == some .mx
            || (longUnit o.port == some .vec && o.stage == .queued)))

/-- Whether requests to another package find no way out (01 R34, 17 R517). -/
def State.noWayOut (s : State) (a : Nat) : Bool :=
  !s.isLocal a && (s.route s.ml.origin.toNat (pkgOf a)).isNone

/-! ## Bookkeeping -/

/-- A new access of operation `op`. -/
def Core.addAcc (k : Core) (op : Nat) (kind : AccKind) (addr : Nat) (bytes : List (Option Byte))
    (b c : W64) : Core :=
  { k with
    nextId := k.nextId + 1
    accs := k.accs ++ [{ id := k.nextId, op := op, kind := kind, addr := addr, bytes := bytes, b := b, c := c }] }

def Core.acc (k : Core) (id : Nat) : Option Access := firstIf (fun a => a.id == id) k.accs

def Core.modAcc (k : Core) (id : Nat) (f : Access → Access) : Core :=
  { k with accs := mapIf (fun a => a.id == id) f k.accs }

def Core.dropAcc (k : Core) (id : Nat) : Core := { k with accs := k.accs.filter fun a => a.id != id }

def Core.opOf (k : Core) (id : Nat) : Option Op := k.oldest fun o => o.id == id

/-- A store becomes visible: its record goes once the core also counts it accepted. -/
def Core.storeVisible (k : Core) (id : Nat) : Core :=
  match k.acc id with
  | some a => if a.accepted then k.dropAcc id else k.modAcc id fun a => { a with stage := .served }
  | none => k

/-- A load or atomic has its value. -/
def Core.loadServed (k : Core) (id : Nat) (got : List (Option Byte)) : Core :=
  match k.acc id with
  | some a => if a.accepted then k.dropAcc id
      else k.modAcc id fun a => { a with stage := .served, got := got }
  | none => k

/-- The signal that TMOVE number `move` carries: of one in flight, in its suspend slot or
complete. -/
def Core.carriedBy (k : Core) (move : Nat) : Option Carry :=
  firstIf (fun y => y.moves.contains move)
    (k.carriedDue ++ k.ops.filterMap Op.carry ++ (match k.slotMv with | some o => o.carry.toList | none => []))

/-- The operation without a signal that it shares with TMOVE number `move`. -/
def Op.dropCarry (o : Op) (move : Nat) : Op :=
  match o.carry with
  | some y => if y.moves.contains move then { o with carry := none } else o
  | none => o

/-- A transfer that fails does not apply its signal: the CARRY gives CANCELLED (13 R408,
R410). -/
def Core.cancelCarried (k : Core) (move : Nat) : Core :=
  match k.carriedBy move with
  | some y =>
    let k := { k with
      carriedDue := k.carriedDue.filter fun z => !z.moves.contains move
      ops := k.ops.map fun o => Op.dropCarry o move
      slotMv := k.slotMv.map fun o => Op.dropCarry o move }
    (match k.opOf y.op with
      | some o => k.finish o [semWord semCancelled 0]
      | none => k)
  | none => k

/-- An access is answered with an error; for a store that the core counts as accepted
the exception is due at once (05 R160). -/
def Core.refuseAcc (k : Core) (id : Nat) (st : RespStatus) : Core :=
  match k.acc id with
  | some a =>
    if a.accepted then
      let k := Core.cancelCarried (k.dropAcc id) a.op
      if k.active then k.fault { code := 3, addr := a.addr } else k
    else k.modAcc id fun a => { a with stage := .served, status := st }
  | none => k

/-- Bytes of the core's own earlier stores that are not yet visible, over what a load
found (12 R385). -/
def Core.overlay (k : Core) (canon : Nat → Nat) (y : Access) (got : List (Option Byte)) : List (Option Byte) :=
  forEach (k.accs.filter fun x => x.kind == .store && x.before y && !x.done)
    (fun x g => (List.range g.length).map fun i =>
      let a := canon y.addr + i
      let b := canon x.addr
      if b ≤ a then (match nth x.bytes (a - b) with
        | some (some b) => some b
        | _ => (nth g i).getD none)
      else (nth g i).getD none) got

/-- The data of a store: a VSTORE's comes from its register as it stands now (08 R256). -/
def Core.storeData (k : Core) (a : Access) : List (Option Byte) :=
  match k.opOf a.op with
  | some o =>
    if o.port = 0x211 ∧ a.stage = .issued then
      let v := o.vec
      let base := bits (o.operand 0x202) 55 0
      let reg := toBytes 1024 (k.vregOf v.src1).toNat
      (List.range a.bytes.length).map fun i =>
        match nth a.bytes i with
        | some (some _) => nth reg ((a.addr + i + 2 ^ 56 - base) % 2 ^ 56)
        | _ => none
    else a.bytes
  | none => a.bytes

/-- FENCE_COMPLETE: the oldest fence whose condition holds leaves flight (12 R387). -/
def Core.fenceDone (k : Core) : Core :=
  match k.oldest fun o => isFence o.port && k.fenced o.id (o.port != 0x780) with
  | some o =>
    { k with ops := k.ops.filter (fun q => q.id != o.id), accs := k.accs.filter (fun a => a.op != o.id) }
  | none => k

def execFenceComplete (c : Nat) (s : State) : Host.Outcome State Fault Refusal :=
  need (Instr.fenceComplete c).WellFormed s fun s => whenUp s fun s => s.modCore c Core.fenceDone

end Sys2Proof.Machine
end

