-- ==== Sys2Proof/Machine/DepotOps.lean ====
section
/-!
DEFINITION. The Depot's commands (14 R420, R430-R446), from cores and from the host's
command slots.
-/
namespace Sys2Proof.Machine

/-! ## Digests (R420) -/

def mixToken (x : W64) (t : W32) : W64 :=
  let y := (x ^^^ t.setWidth 64) * 0x9E37_79B9_7F4A_7C15
  y ^^^ (y >>> 31)

/-- The digest of one block of `tpp` tokens per page. -/
def blockDigest (parent : W64) (tpp : Nat) (toks : List W32) : W64 :=
  let x := toks.foldl mixToken (parent ^^^ (BitVec.ofNat 64 tpp <<< 56))
  let x := (x ^^^ (x >>> 29)) * 0xBF58_476D_1CE4_E5B9
  x ^^^ (x >>> 32)

/-- Digests of `n` blocks in order, each chained to the one before it. -/
def chainDigests (tpp : Nat) : Nat → W64 → List W32 → List W64
  | 0, _, _ => []
  | n + 1, parent, toks =>
    let d := blockDigest parent tpp (toks.take tpp)
    d :: chainDigests tpp n d (toks.drop tpp)

/-! ## Statuses and commands -/

def dxOk : Nat := 0x00
def dxEvicted : Nat := 0x01
def dxExists : Nat := 0x02
def dxFull : Nat := 0x03
def dxQuota : Nat := 0x04
def dxCollision : Nat := 0x05
def dxNotFound : Nat := 0x06
def dxRefLimit : Nat := 0x07
def dxUnderflow : Nat := 0x08
def dxBadArg : Nat := 0x09
def dxNoNamespace : Nat := 0x0A
def dxSkipped : Nat := 0x0E
def dxPending : Nat := 0x0F

/-- A result word (Table 14.3). -/
def dxWord (status count tokens : Nat) : W64 :=
  pack [(32, tokens % 65536), (8, count % 256), (0, status)]

/-- A command's operands (Table 14.2). -/
structure DxArgs where
  ns : W64
  addr : Nat
  dst : Nat
  tpp : Nat
  verify : Bool
  cont : Bool
  allNs : Bool
  threshold : Nat
  digest : W64
  page : Nat
  parent : W64
  b : W64
  deriving DecidableEq, Repr

def dxArgs (cap : NMap W64) (b : W64) : DxArgs :=
  let g := nget 0 cap
  let c := g 0x703
  { ns := g 0x700, addr := bits (g 0x701) 55 0, dst := bits (g 0x702) 55 0, tpp := bits c 1 0
    verify := bit c 4, cont := bit c 5, allNs := bit c 7, threshold := bits c 15 8
    digest := g 0x704, page := bits (g 0x705) 55 0, parent := g 0x706, b := b }

/-- Tokens per page of a TPP code. -/
def DxArgs.perPage (a : DxArgs) : Nat := 16 * 2 ^ a.tpp

/-! ## Lists in memory -/

/-- `n` bytes from a global address; those that are not in this package's HBM or yards,
or cannot be read, are free (log 45). -/
def State.listBytes (s : State) (a n : Nat) : State × List Byte :=
  if s.isLocal a then
    let r := s.readRange (localOf a) n
    (r.1, s.byteVals (localOf a) r.2.bytes)
  else (s, s.byteVals a (List.replicate n none))

/-- Bytes written to a list; those that cannot be written are not (log 45). -/
def State.listWrite (s : State) (a : Nat) (bs : List Byte) : State :=
  if s.isLocal a then (s.writeRange (localOf a) (bs.map some) false).1 else s

/-- 32-bit words of a byte string. -/
def wordsFrom : Nat → List Byte → List W32
  | 0, _ => []
  | n + 1, bs => BitVec.ofNat 32 (ofBytes (bs.take 4)) :: wordsFrom n (bs.drop 4)

/-- A record (R436). -/
def dxRecord (digest : W64) (page status : Nat) : List Byte :=
  toBytes 8 digest.toNat ++ toBytes 8 (page % 2 ^ 56 + status * 2 ^ 56)

/-! ## Buckets -/

/-- The ways of the bucket of a digest, with their addresses. -/
def State.bucket (s : State) (digest : W64) : State × List (Nat × DxEntry) :=
  (List.range 16).foldl (fun (p : State × List (Nat × DxEntry)) w =>
    let a := s.entryAddr digest w
    let r := p.1.readEntry a
    (r.1, p.2 ++ [(a, r.2)])) (s, [])

def DxEntry.holds (e : DxEntry) (digest : W64) : Bool := e.valid && e.digest == digest

def State.countCollision (s : State) : State :=
  { s with dx := { s.dx with collisions := satInc s.dx.collisions } }

/-- Whether the trailer of a page holds these tokens (R434); a poisoned or unreadable
trailer does not (18 R529). -/
def State.trailerMatches (s : State) (page : Nat) (toks : List W32) : State × Bool :=
  let a := page + s.dx.trailer.toNat * 64
  let n := 4 * toks.length
  if s.isLocal page && decide (localOf page + s.dx.trailer.toNat * 64 + n ≤ 0x48_0000_0000) then
    let r := s.readRange (localOf a) n
    let bs := s.byteVals (localOf a) r.2.bytes
    (r.1, r.2.bad.isNone && r.2.poison.isNone && wordsFrom toks.length bs == toks)
  else (s, false)

/-! ## LOOKUP -/

/-- What R430 refuses in a LOOKUP. -/
def State.lookupRefused (s : State) (a : DxArgs) : Option Nat :=
  if (s.nsSlot a.ns).isNone then some dxNoNamespace
  else if a.tpp = 3 ∨ 64 * a.perPage < a.b.toNat ∨ a.addr % 16 ≠ 0 ∨ a.dst % 16 ≠ 0 then some dxBadArg
  else none

/-- The walk at its start: tokens read, digests computed (R432). -/
def State.walkStart (s : State) (a : DxArgs) : State × DxWalk :=
  let n := a.b.toNat
  let r := s.listBytes a.addr (4 * n)
  let toks := wordsFrom n r.2
  let blocks := (n + a.perPage - 1) / a.perPage
  (r.1, { toks := toks, digests := chainDigests a.perPage blocks (if a.cont then a.parent else a.ns) toks })

/-- Whether an entry is of the namespace, page size and token count asked for. -/
def DxEntry.fits (e : DxEntry) (slot : Option Nat) (tpp tokens : Nat) : Bool :=
  some e.slot == slot && e.tpp == tpp && e.tokens == tokens

/-- The first of some ways whose trailer, where VERIFY asks for it, holds these tokens. -/
def State.verified (a : DxArgs) (toks : List W32) : State → List (Nat × DxEntry) → State × Option (Nat × DxEntry)
  | s, [] => (s, none)
  | s, p :: t =>
    let r := if a.verify then s.trailerMatches p.2.page toks else (s, true)
    if r.2 then (r.1, some p) else State.verified a toks r.1 t

/-- The entry that one block meets among the ways that its bucket read as, where `slot` is
the slot of the request's namespace: its status and page (R432, R433). -/
def State.hitIn (a : DxArgs) (slot : Option Nat) (digest : W64) (toks : List W32) (r : State × List (Nat × DxEntry)) :
    State × Nat × Nat :=
  let same := r.2.filter fun p => p.2.holds digest
  if same.isEmpty then (r.1, dxNotFound, 0)
  else
    let t := State.verified a toks r.1 (same.filter fun p => p.2.fits slot a.tpp toks.length)
    match t.2 with
    | none => (t.1.countCollision, dxCollision, 0)
    | some p =>
      if p.2.refs = 2 ^ 24 - 1 then (t.1, dxRefLimit, 0)
      else (t.1.writeEntry p.1 { p.2 with refs := p.2.refs + 1, age := 0 }, dxOk, p.2.page)

/-- The entry that one block meets: its status and page (R432, R433, R435). -/
def State.blockHit (s : State) (a : DxArgs) (digest : W64) (toks : List W32) : State × Nat × Nat :=
  State.hitIn a (s.nsSlot a.ns) digest toks (s.bucket digest)

/-- One block of a walk, with its record. -/
def State.walkBlock (s : State) (a : DxArgs) (w : DxWalk) : State × DxWalk :=
  match nth w.digests w.next with
  | none => (s, w)
  | some d =>
    let toks := (w.toks.drop (w.next * a.perPage)).take a.perPage
    let r : State × Nat × Nat := if w.stopped then (s, dxSkipped, 0) else s.blockHit a d toks
    let hit := r.2.1 == dxOk
    (r.1.listWrite (a.dst + 16 * w.next) (dxRecord d r.2.2 r.2.1),
     { w with next := w.next + 1, stopped := w.stopped || !hit
              hits := w.hits + b2n hit, tokens := w.tokens + (if hit then toks.length else 0)
              status := if w.stopped || hit then w.status else r.2.1 })

def DxWalk.ended (w : DxWalk) : Bool := decide (w.digests.length ≤ w.next)

/-! ## The other commands: result word, and the page returned in DX_RES2 -/

abbrev DxRes := State × W64 × Option W64

/-- The way to evict: the highest age, the lowest way on ties (R437). -/
def eldest : List (Nat × DxEntry) → Option (Nat × DxEntry)
  | [] => none
  | p :: t =>
    match eldest t with
    | some q => if p.2.age < q.2.age then some q else some p
    | none => some p

/-- Evicts the eldest of some ways for a new entry (R437). -/
def State.evictFor (s : State) (e : DxEntry) (l : List (Nat × DxEntry)) : DxRes :=
  match eldest l with
  | some p => (State.nsRefresh (s.writeEntry p.1 e), dxWord dxEvicted 0 0, some (BitVec.ofNat 64 p.2.page))
  | none => (s, dxWord dxFull 0 0, none)

/-- INSERT of an entry whose digest a way already holds (R437). -/
def State.insertHeld (s : State) (e : DxEntry) (p : Nat × DxEntry) : DxRes :=
  let o := p.2
  if o.fits (some e.slot) e.tpp e.tokens then
    if o.refs = 2 ^ 24 - 1 then (s, dxWord dxRefLimit 0 0, none)
    else (s.writeEntry p.1 { o with refs := o.refs + 1 }, dxWord dxExists 0 0, some (BitVec.ofNat 64 o.page))
  else (s.countCollision, dxWord dxCollision 0 0, none)

/-- INSERT of an entry that is new to its bucket (R437). -/
def State.insertNew (s : State) (e : DxEntry) (ways : List (Nat × DxEntry)) : DxRes :=
  let quota := s.nsQuota (nget 0 s.dx.ns e.slot)
  let cand := ways.filter fun p => p.2.valid && p.2.refs == 0 && !p.2.pinned
  let own := cand.filter fun p => p.2.slot == e.slot
  if quota ≤ s.nsEntries e.slot then
    (if own.isEmpty then
      ({ s with dx := { s.dx with quota := satInc s.dx.quota } }, dxWord dxQuota 0 0, none)
    else s.evictFor e own)
  else match firstIf (fun p => !p.2.valid) ways with
    | some p => (s.writeEntry p.1 e, dxWord dxOk 0 0, none)
    | none =>
      if cand.isEmpty then
        ({ s with dx := { s.dx with full := satInc s.dx.full } }, dxWord dxFull 0 0, none)
      else s.evictFor e cand

/-- INSERT of an entry into the ways that its bucket read as (R437). -/
def State.insertInto (e : DxEntry) (r : State × List (Nat × DxEntry)) : DxRes :=
  match r.2.filter fun p => p.2.holds e.digest with
  | p :: t => r.1.insertHeld e ((firstIf (fun q => q.2.fits (some e.slot) e.tpp e.tokens) (p :: t)).getD p)
  | [] => r.1.insertNew e r.2

/-- INSERT of an entry into its bucket (R437). -/
def State.insertEntry (s : State) (e : DxEntry) : DxRes := State.insertInto e (s.bucket e.digest)

/-- INSERT (R430, R437). -/
def State.dxInsert (s : State) (a : DxArgs) : DxRes :=
  match s.nsSlot a.ns with
  | none => (s, dxWord dxNoNamespace 0 0, none)
  | some slot =>
    let n := a.b.toNat
    let local' := s.isLocal a.page && decide (localOf a.page < 0x48_0000_0000)
    if a.tpp = 3 ∨ n = 0 ∨ a.perPage < n ∨ local' = false then (s, dxWord dxBadArg 0 0, none)
    else
      s.insertEntry { digest := a.digest, page := a.page, age := 0, refs := 1, tokens := n, slot := slot
                      pinned := false, valid := true, tpp := a.tpp, inserted := s.tb.now }

/-- PIN of an entry among the ways that its bucket read as. -/
def State.pinIn (a : DxArgs) (slot : Nat) (r : State × List (Nat × DxEntry)) : DxRes :=
  match firstIf (fun p => p.2.holds a.digest && p.2.slot == slot) r.2 with
  | some p => (r.1.writeEntry p.1 { p.2 with pinned := bit a.b 0 }, dxWord dxOk 0 0, none)
  | none => (r.1, dxWord dxNotFound 0 0, none)

/-- PIN (R439). -/
def State.dxPin (s : State) (a : DxArgs) : DxRes :=
  match s.nsSlot a.ns with
  | none => (s, dxWord dxNoNamespace 0 0, none)
  | some slot => State.pinIn a slot (s.bucket a.digest)

/-- RELEASE of an entry among the ways that its bucket read as. -/
def State.releaseIn (digest : W64) (page : Nat) (r : State × List (Nat × DxEntry)) : State × Option Nat :=
  match firstIf (fun p => p.2.holds digest && p.2.page == page) r.2 with
  | none => (r.1, some dxNotFound)
  | some p =>
    if p.2.refs = 0 then (r.1, some dxUnderflow)
    else (r.1.writeEntry p.1 { p.2 with refs := p.2.refs - 1 }, some dxOk)

/-- One record of a RELEASE: its status, or none where its page is 0 (R438). -/
def State.releaseOne (s : State) (rec : List Byte) : State × Option Nat :=
  let digest := BitVec.ofNat 64 (ofBytes (rec.take 8))
  let page := ofBytes (rec.drop 8) % 2 ^ 56
  if page = 0 then (s, none) else State.releaseIn digest page (s.bucket digest)

/-- RELEASE (R438); a count outside 1-64 is refused (log 45). -/
def State.dxRelease (s : State) (a : DxArgs) : DxRes :=
  let n := a.b.toNat
  if a.addr % 16 ≠ 0 ∨ n = 0 ∨ 64 < n then (s, dxWord dxBadArg 0 0, none)
  else
    let r := s.listBytes a.addr (16 * n)
    let q := (List.range n).foldl (fun (p : State × Nat × Nat) i =>
      let t := p.1.releaseOne ((r.2.drop (16 * i)).take 16)
      match t.2 with
      | none => (t.1, p.2)
      | some st => (t.1, if st = dxOk then p.2.1 + 1 else p.2.1, if p.2.2 = dxOk then st else p.2.2))
      (r.1, 0, dxOk)
    (q.1, dxWord q.2.2 q.2.1 0, none)

/-- One entry of a scan: the pages written so far, and whether one was left (R440). -/
def State.scanOne (a : DxArgs) (slot : Option Nat) (p : State × Nat × Bool) (x : Nat) : State × Nat × Bool :=
  let r := p.1.readEntry x
  let e := r.2
  if e.valid && (a.allNs || some e.slot == slot) && e.refs == 0 && !e.pinned then
    let age := min 255 (e.age + 1)
    if a.threshold ≠ 0 ∧ a.threshold ≤ age then
      (if p.2.1 < a.b.toNat then
        let s := r.1.writeEntry x { e with age := age, valid := false }
        (s.listWrite (a.addr + 8 * p.2.1) (toBytes 8 e.page), p.2.1 + 1, p.2.2)
      else (r.1.writeEntry x { e with age := age }, p.2.1, true))
    else (r.1.writeEntry x { e with age := age }, p.2)
  else (r.1, p.2)

/-- AGE_SCAN (R440). -/
def State.dxScan (s : State) (a : DxArgs) : DxRes :=
  let slot := s.nsSlot a.ns
  if !a.allNs && slot.isNone then (s, dxWord dxNoNamespace 0 0, none)
  else if a.addr % 16 ≠ 0 then (s, dxWord dxBadArg 0 0, none)
  else
    let q := s.scanEntries.foldl (State.scanOne a slot) (s, 0, false)
    (State.nsRefresh q.1, dxWord dxOk (b2n q.2.2) q.2.1, none)

/-- The commands that act at once. -/
def State.dxCommand (s : State) (port : Nat) (a : DxArgs) : DxRes :=
  match port with
  | 0x711 => s.dxInsert a
  | 0x712 => s.dxPin a
  | 0x713 => s.dxRelease a
  | _ => s.dxScan a

/-! ## Requesters -/

def isDepot (p : Nat) : Bool := inRange 0x710 0x714 p

/-- Whether a source has a command PENDING in a slot, and in which it came first. -/
def State.firstSlot (s : State) (src : Source) : Option Nat :=
  firstIf (fun n => (nget {} s.dx.slots n).cmd.isSome && (nget {} s.dx.slots n).src == src) s.dx.order

/-- The command that a requester's turn brings: the oldest of a core, once everything
before it is done (R442), or that of a slot. Those of one source keep their order (R431). -/
def State.dxNext (s : State) (q : DxReq) : Option (Nat × DxArgs × Option DxWalk) :=
  match q with
  | .core c =>
    let k := s.core c
    match k.oldest fun o => isDepot o.port && o.stage == .running with
    | some o =>
      if k.fenced o.id true && (s.region (regionOf c)).st != .startedIsolated && (s.firstSlot (srcCore c)).isNone then
        some (o.port, dxArgs o.cap o.b, o.walk)
      else none
    | none => none
  | .slot n =>
    let t := nget {} s.dx.slots n
    if s.firstSlot t.src = some n then t.cmd.map fun p => (p.1, dxArgs t.cap p.2, t.walk) else none

/-- The core's oldest Depot command changed. -/
def State.modDx (s : State) (q : DxReq) (f : Option DxWalk) : State :=
  match q with
  | .core c => s.modCore c fun k =>
      match k.oldest fun o => isDepot o.port && o.stage == .running with
      | some o => k.modOp o.id fun o => { o with walk := f }
      | none => k
  | .slot n =>
    let t := nget {} s.dx.slots n
    { s with dx := { s.dx with slots := nset n { t with walk := f } s.dx.slots } }

/-- The results of a command; a core that has been isolated gets none (R445). -/
def State.dxResult (s : State) (q : DxReq) (w : W64) (page : Option W64) : State :=
  match q with
  | .core c => s.modCore c fun k =>
      match k.oldest fun o => isDepot o.port && o.stage == .running with
      | some o =>
        if s.isolated c then { k with ops := k.ops.filter fun x => x.id != o.id }
        else if isAsync (o.operand 0x703) then
          k.modOp o.id fun o => { o with stage := .served, res := w, res2 := page.getD 0, pass := b2n page.isSome }
        else k.finish o (w :: page.toList)
      | none => k
  | .slot n =>
    let t := nget {} s.dx.slots n
    let ports := nset 0x708 w t.ports
    let ports := match page with | some v => nset 0x709 v ports | none => ports
    { s with dx := { s.dx with slots := nset n { ports := ports } s.dx.slots, order := s.dx.order.filter (· != n) } }

/-- A walk goes on, or ends with its result. -/
def State.dxWalkTo (s : State) (q : DxReq) (w : DxWalk) : State :=
  if w.ended then s.dxResult q (dxWord w.status w.hits w.tokens) none else s.modDx q (some w)

/-- LOOKUP: the walk begins. -/
def State.lookupStart (s : State) (q : DxReq) : State :=
  match s.dxNext q with
  | some (0x710, a, none) =>
    (match s.lookupRefused a with
      | some st => s.dxResult q (dxWord st 0 0) none
      | none => let r := s.walkStart a; r.1.dxWalkTo q r.2)
  | _ => s

/-- LOOKUP_BLOCK: the walk meets its next block. -/
def State.lookupBlock (s : State) (q : DxReq) : State :=
  match s.dxNext q with
  | some (0x710, a, some w) => let r := s.walkBlock a w; r.1.dxWalkTo q r.2
  | _ => s

/-- A command of the given port, if that is the requester's next one. -/
def State.dxServe (s : State) (q : DxReq) (port : Nat) : State :=
  match s.dxNext q with
  | some (p, a, _) =>
    if p = port then let r := s.dxCommand p a; r.1.dxResult q r.2.1 r.2.2 else s
  | none => s

def execLookup (q : DxReq) (s : State) : Host.Outcome State Fault Refusal :=
  need (Instr.lookup q).WellFormed s fun s => whenUp s fun s => State.whenServed (fun s => s.lookupStart q) s

def execLookupBlock (q : DxReq) (s : State) : Host.Outcome State Fault Refusal :=
  need (Instr.lookupBlock q).WellFormed s fun s => whenUp s fun s => State.whenServed (fun s => s.lookupBlock q) s

def execInsert (q : DxReq) (s : State) : Host.Outcome State Fault Refusal :=
  need (Instr.insert q).WellFormed s fun s => whenUp s fun s => State.whenServed (fun s => s.dxServe q 0x711) s

def execPin (q : DxReq) (s : State) : Host.Outcome State Fault Refusal :=
  need (Instr.pin q).WellFormed s fun s => whenUp s fun s => State.whenServed (fun s => s.dxServe q 0x712) s

def execDepotRelease (q : DxReq) (s : State) : Host.Outcome State Fault Refusal :=
  need (Instr.depotRelease q).WellFormed s fun s => whenUp s fun s => State.whenServed (fun s => s.dxServe q 0x713) s

def execAgeScan (q : DxReq) (s : State) : Host.Outcome State Fault Refusal :=
  need (Instr.ageScan q).WellFormed s fun s => whenUp s fun s => State.whenServed (fun s => s.dxServe q 0x714) s

/-- DEPOT_ASYNC_COMPLETE (R445): DX_ARES is filled and source 6 becomes pending. -/
def Core.asyncDone (k : Core) : Core :=
  match k.oldest fun o => isDepot o.port && o.stage == .served with
  | some o => Core.raise (k.finish o (o.res :: (if o.pass = 1 then [o.res2] else []))) 6
  | none => k

/-- The same at a core: the result for one that has been isolated is discarded. -/
def State.asyncComplete (s : State) (c : Nat) : State :=
  if s.isolated c then
    s.modCore c fun k => { k with ops := k.ops.filter fun o => !(isDepot o.port && o.stage == .served) }
  else s.modCore c Core.asyncDone

def execDepotAsyncComplete (c : Nat) (s : State) : Host.Outcome State Fault Refusal :=
  need (Instr.depotAsyncComplete c).WellFormed s fun s => whenUp s fun s => s.asyncComplete c

/-! ## Command slots (R446) -/

/-- A write of a trigger offset of slot `n`. -/
def State.slotTrigger (s : State) (n port : Nat) (v : W64) (src : Source) : State :=
  let t := nget {} s.dx.slots n
  if !isDepot port then s
  else if t.cmd.isSome then { s with dx := { s.dx with slotRejected := satInc s.dx.slotRejected } }
  else
    { s with dx := { s.dx with
        slots := nset n { t with cmd := some (port, v), src := src, cap := t.ports, walk := none } s.dx.slots
        order := s.dx.order ++ [n] } }

/-- DEPOT_SLOT_TRIGGER. -/
def execDepotSlotTrigger (slot port : Nat) (v : W64) (s : State) : Host.Outcome State Fault Refusal :=
  need (Instr.depotSlotTrigger slot port v).WellFormed s fun s => whenUp s fun s => s.slotTrigger slot port v srcHost

end Sys2Proof.Machine
end

