-- ==== Sys2Proof/Machine/Dma.lean ====
section
/-!
DEFINITION. The host DMA queues (16 R497-R504, Tables 16.5, 16.6): their registers, and
descriptors begun, ended and reset.
-/
namespace Sys2Proof.Machine

/-! ## Registers -/

/-- SIZE (16 Table 16.8). -/
def Queue.size (k : Queue) : Nat := if 1 ≤ k.log2.toNat ∧ k.log2.toNat ≤ 16 then 2 ^ k.log2.toNat else 2

/-- A write to HI_Q_TAIL (16 R498, R501). -/
def State.queueTail (s : State) (q : Nat) (v : W32) (src : Source) : State :=
  let k := s.queue q
  s.setQueue q (if (v - k.head).toNat ≤ k.size then { k with tail := v, tailWriter := src }
    else { k with rejected := satInc k.rejected })

/-- HI_Q_TAIL_WRITE. -/
def execHiQTailWrite (q : Nat) (v : W32) (src : Source) (s : State) : Host.Outcome State Fault Refusal :=
  need (Instr.hiQTailWrite q v src).WellFormed s fun s => whenUp s fun s => s.queueTail q v src

/-- QUEUE_ENABLE_WRITE (16 R499, R500). -/
def execQueueEnableWrite (q : Nat) (enable : Bool) (s : State) : Host.Outcome State Fault Refusal :=
  need (Instr.queueEnableWrite q enable).WellFormed s fun s => whenUp s fun s =>
    s.setQueue q { s.queue q with enable := enable }

/-! ## Completion -/

def dmaOk : Nat := 1
def dmaIsolated : Nat := 2
def dmaUnmapped : Nat := 3
def dmaHostError : Nat := 4
def dmaBadDescriptor : Nat := 5
def dmaAborted : Nat := 6
def dmaNoRoute : Nat := 7

/-- Completion status of a failed access (16 Table 16.6). -/
def dmaStatus : RespStatus → Nat
  | .ok => dmaOk
  | .isolated => dmaIsolated
  | .noRoute => dmaNoRoute
  | .unmapped => dmaUnmapped
  | .hostError | .poisoned => dmaHostError

/-- The completion word goes to its ring slot (16 R504). -/
def State.completionWord (s : State) (j : DmaJob) (status done : Nat) : State :=
  let bs := toBytes 8 (done % 2 ^ 32 * 2 ^ 32 + status)
  if j.host then s.hostWrite (j.slot + 0x38) bs false
  else if j.slotOk then (s.writeRange (localOf j.slot + 0x38) (bs.map some) false).1
  else s

/-- The status is counted; one other than OK raises event 6 (16 R504). -/
def State.countDma (s : State) (q status : Nat) : State :=
  let k := s.queue q
  let s := s.setQueue q { k with
    last := BitVec.ofNat 8 status
    counts := nset status (nget 0 k.counts status + 1) k.counts
    errors := if status = dmaOk then k.errors else satInc k.errors }
  if status = dmaOk then s else s.hostEvent 6

/-- HEAD moves past the descriptor (16 R499). -/
def State.retireDma (s : State) (q : Nat) : State :=
  let k := s.queue q
  s.setQueue q { k with head := k.head + 1, cur := none, carried := none, carriedSent := false }

/-- Doubleword `i` of a descriptor. -/
def DmaJob.word (j : DmaJob) (i : Nat) : W64 := (nth j.desc i).getD 0

def DmaJob.length (j : DmaJob) : Nat := bits (j.word 2) 31 0
def DmaJob.srcHost (j : DmaJob) : Bool := bit (j.word 3) 0
def DmaJob.dstHost (j : DmaJob) : Bool := bit (j.word 3) 1
def DmaJob.src (j : DmaJob) : Nat := if j.srcHost then (j.word 0).toNat else bits (j.word 0) 55 0
def DmaJob.dst (j : DmaJob) : Nat := if j.dstHost then (j.word 1).toNat else bits (j.word 1) 55 0

/-- The carried signal of a descriptor (16 Table 16.5). -/
def DmaJob.signal (j : DmaJob) : Option Carry :=
  if bit (j.word 3) 2 then
    some { sem := BitVec.ofNat 64 (bits (j.word 4) 55 0), n := BitVec.ofNat 64 (bits (j.word 5) 31 0)
           samePath := bit (j.word 3) 3 }
  else none

/-- The descriptor ends: completion word, counters, then the signal on OK, or HEAD
advances at once (16 R499, R504). -/
def State.endDma (s : State) (q : Nat) (j : DmaJob) (status done : Nat) : State :=
  let s := (s.completionWord j status done).countDma q status
  if status = dmaOk ∧ j.signal.isSome then
    s.setQueue q { s.queue q with cur := none, carried := j.signal }
  else s.retireDma q

/-! ## Start -/

/-- Whether a descriptor breaks 16 R502. -/
def DmaJob.malformed (j : DmaJob) : Bool :=
  (j.srcHost && j.dstHost) || j.length == 0
    || bits (j.word 2) 63 32 != 0 || bits (j.word 3) 63 4 != 0 || bits (j.word 4) 63 56 != 0
    || bits (j.word 5) 63 32 != 0 || j.word 6 != 0 || bits (j.word 7) 31 8 != 0
    || (bit (j.word 3) 2 && bits (j.word 4) 5 0 != 0)

/-- Aligned 256-byte blocks that [a, a + n) touches, as pieces (17 R518). -/
def blocks256 (a n : Nat) : List (Nat × Nat × Nat) :=
  (List.range (if n = 0 then 0 else (a + n + 255) / 256 - a / 256)).map fun i =>
    let lo := max a (256 * (a / 256 + i))
    let hi := min (a + n) (256 * (a / 256 + i) + 256)
    (lo, lo - a, hi - lo)

/-- The lower of two failures. -/
def lowest : Option (Nat × Nat) → Option (Nat × Nat) → Option (Nat × Nat)
  | some a, some b => if a.1 ≤ b.1 then some a else some b
  | a, none => a
  | none, b => b

/-- Whether a device address lies in another package's HBM or yards. -/
def State.remoteMemory (s : State) (a : Nat) : Bool :=
  !s.isLocal a && (match decodeLocal (localOf a) with | .hbm _ => true | .yard .. => true | _ => false)

/-- Requests of queue `q` to another package, block by block on VC2 (17 Table 17.3). -/
def State.dmaRequests (s : State) (q a n : Nat) (op : LinkOp) (payload : Nat → Nat → List Byte) :
    State × Option (Nat × Nat) :=
  (blocks256 a n).foldl (fun (p : State × Option (Nat × Nat)) b =>
    if s.remoteMemory b.1 then
      match p.1.request 2 (pkgOf b.1) op (localOf b.1) false (payload b.2.1 b.2.2)
          { pkg := pkgOf b.1, addr := localOf b.1, acc := b.2.1, queue := some q } with
      | some t => (t, p.2)
      | none => (p.1.countNoRoute, lowest p.2 (some (b.2.1, dmaNoRoute)))
    else (p.1, lowest p.2 (some (b.2.1, dmaUnmapped)))) (s, none)

/-- The bytes of a ring slot: from the host, or from this package's memory. -/
def State.fetchSlot (s : State) (k : Queue) (slot : Nat) (ring : HostAnswer) (ecc : Ecc) :
    State × DmaJob × Option Nat :=
  let j : DmaJob := { desc := [], host := k.baseHost, slot := slot }
  if k.baseHost then
    match ring with
    | .data bs =>
      if bs.length = 64 then (s, { j with desc := (List.range 8).map fun i => BitVec.ofNat 64 (ofBytes ((bs.drop (8 * i)).take 8)) }, none)
      else (s, j, some dmaHostError)
    | .failed => (s, j, some dmaHostError)
  else if s.isLocal slot then
    let r := (s.readEcc (localOf slot) 64 ecc).readRange (localOf slot) 64
    match r.2.bad with
    | some b => (r.1, { j with slotOk := decide (b.2 ≠ .unmapped) }, some (dmaStatus b.2))
    | none =>
      let bs := r.2.bytes.map fun b => b.getD 0
      (r.1, { j with desc := (List.range 8).map fun i => BitVec.ofNat 64 (ofBytes ((bs.drop (8 * i)).take 8)) }, none)
  else (s, { j with slotOk := false }, some dmaUnmapped)

/-- The bus address of a run of bytes in host memory, named by it or through the host window
(16 R490); none for a run elsewhere. -/
def State.dmaBus (s : State) (host : Bool) (a n : Nat) : Option Nat :=
  if host then some a
  else if s.isLocal a then
    match resolve (localOf a) n with
    | some (.host h) => some (s.hi.hwBase.toNat * 2 ^ 42 + h)
    | _ => none
  else none

/-- DMA_DESCRIPTOR_START (16 R497, R499, R502). -/
def State.startDma (s : State) (q : Nat) (ring : HostAnswer) (ecc : Ecc) : State :=
  let k := s.queue q
  let n := (k.tail - k.head).toNat
  if k.enable && k.cur.isNone && k.carried.isNone && k.aborted.isNone && n != 0 then
    let slot := k.addr.toNat * 64 + 64 * (k.head.toNat % k.size)
    let slot := if k.baseHost then slot else slot % 2 ^ 56
    let s := if k.baseHost then s.emit (.hostRead slot 64) else s
    let r := s.fetchSlot k slot ring ecc
    let j := r.2.1
    match r.2.2 with
    | some st => r.1.endDma q j st 0
    | none =>
      if j.malformed then r.1.endDma q j dmaBadDescriptor 0
      else if let some bus := r.1.dmaBus j.srcHost j.src j.length then
        State.emit (r.1.setQueue q { r.1.queue q with cur := some j }) (.hostRead bus j.length)
      else if s.isLocal j.src then r.1.setQueue q { r.1.queue q with cur := some j }
      else
        let t := r.1.dmaRequests q j.src j.length .read fun _ n => toBytes 4 n
        t.1.setQueue q { t.1.queue q with cur := some { j with bad := t.2 } }
  else s

def execDmaDescriptorStart (q : Nat) (ring : HostAnswer) (ecc : Ecc) (s : State) : Host.Outcome State Fault Refusal :=
  need (Instr.dmaDescriptorStart q ring ecc).WellFormed s fun s => whenUp s fun s =>
    State.whenServed (fun s => s.startDma q ring ecc) s

/-! ## Answers -/

/-- A host write of the bytes given, in ascending order; gaps are left unwritten. -/
def State.hostWriteGaps (s : State) (bus : Nat) (bs : List (Option Byte)) (poisoned : Bool) : State :=
  let runs := runsOf ((touched bus bs).map fun a => (a, ()))
  forEach runs (fun r s =>
    s.hostWrite r.1 ((bs.drop (r.1 - bus)).take r.2 |>.filterMap id) poisoned) s

/-- The answer to a request of queue `q` (17 R518): read data, or a failure. -/
def State.dmaAnswer (s : State) (q : Nat) (w : Pending) (st : RespStatus) (payload : List Byte) : State :=
  let k := s.queue q
  match k.cur with
  | some j =>
    let j := if st = .ok ∨ st = .poisoned then
        (if j.wrote then j
         else
           let got := (List.range payload.length).foldl
             (fun (m : NMap Byte) (i : Nat) => nset (w.acc + i) ((nth payload i).getD 0) m) j.buf
           { j with buf := got, poison := if st = .poisoned ∧ j.poison.isNone then some (w.pkg * 2 ^ 45 + w.addr) else j.poison })
      else { j with bad := lowest j.bad (some (w.acc, dmaStatus st)) }
    s.setQueue q { k with cur := some j }
  | none => if k.carriedSent then s.retireDma q else s

/-! ## Signal and reset -/

/-- The signal of a completed descriptor (13 R408; 16 R504). One that names no
semaphore block reaches none (log 33). -/
def State.dmaSignal (s : State) (q : Nat) : State :=
  let k := s.queue q
  match k.carried with
  | none => s
  | some c =>
    if k.carriedSent then s
    else if s.isLocal c.sem.toNat then
      match decodeLocal (localOf c.sem.toNat) with
      | .sem i _ => State.retireDma (s.semSignal i srcHost c.n.toNat).1 q
      | _ => s.retireDma q
    else
      let a := localOf c.sem.toNat
      match s.request 2 (pkgOf c.sem.toNat) (.sem 0x690) a true (toBytes 8 c.n.toNat)
          { pkg := pkgOf c.sem.toNat, addr := a, queue := some q } with
      | some t => t.setQueue q { t.queue q with carriedSent := true }
      | none => State.retireDma s.countNoRoute q

/-- Whether a completion word must wait for the line of its ring slot. -/
def State.slotWaits (s : State) (j : DmaJob) : Bool :=
  !j.host && j.slotOk && s.pw.hbm == .ready && (match decodeLocal (localOf j.slot) with
    | .hbm x => s.mustWait ((x + 0x38) / 64)
    | _ => false)

/-- RESET of a queue (16 R500): the current descriptor ends ABORTED. -/
def State.resetDma (s : State) (q : Nat) : State :=
  let s := match (s.queue q).cur with
    | some j =>
      let s := s.countDma q dmaAborted
      if s.slotWaits j then s.setQueue q { s.queue q with aborted := some j } else s.completionWord j dmaAborted 0
    | none => s
  let s := { s with ml := { s.ml with waits := s.ml.waits.filter fun w => w.queue != some q } }
  s.setQueue q { s.queue q with
    enable := false, head := 0, tail := 0, cur := none, carried := none, carriedSent := false }

/-- QUEUE_RESET. -/
def execQueueReset (q : Nat) (s : State) : Host.Outcome State Fault Refusal :=
  need (Instr.queueReset q).WellFormed s fun s => whenUp s fun s => s.resetDma q

end Sys2Proof.Machine
end

