-- ==== Sys2Proof/Machine/Flash.lean ====
section
/-!
DEFINITION. The configuration store as the boot ROM and the flash engine read it
(19 R556-R561, R564): descriptor, journal and slots.
-/
namespace Sys2Proof.Machine

/-- The state values of a slot (19 R559). -/
def slotEmpty : Nat := 0
def slotErased : Nat := 1
def slotWriting : Nat := 2
def slotCommitted : Nat := 3
def slotInterrupted : Nat := 4

def flashByte (f : Flash) (a : Nat) : Byte := nget 0xFF f.bytes a

def flashBytes (f : Flash) (a : Nat) : Nat → List Byte
  | 0 => []
  | n + 1 => flashByte f a :: flashBytes f (a + 1) n

/-- The 32-bit word at a store address. -/
def flashWord (f : Flash) (a : Nat) : Nat := ofBytes (flashBytes f a 4)

/-- A byte of the table set; 0xFF is not listed. -/
def setFlashByte (m : NMap Byte) (a : Nat) (b : Byte) : NMap Byte :=
  if b = 0xFF then nerase a m else nset a b m

/-- Programming can only clear bits of erased bytes. -/
def programBytes (f : Flash) (a : Nat) : List Byte → Flash
  | [] => f
  | b :: t => programBytes { f with bytes := setFlashByte f.bytes a (flashByte f a &&& b) } (a + 1) t

/-- Block `n` erased to 0xFF. -/
def eraseBlock (f : Flash) (n : Nat) : Flash :=
  { f with bytes := f.bytes.filter fun p => decide (p.1 / 65536 ≠ n) }

def byteNats (bs : List Byte) : List Nat := bs.map BitVec.toNat

/-- The descriptor (19 Table 19.6): base addresses of slots A and B, their size,
and the subsystem identifier. -/
structure Descriptor where
  subsys : W16
  aBase : Nat
  bBase : Nat
  slotBytes : Nat
  deriving DecidableEq, Repr

/-- The descriptor, where valid (19 R558). -/
def readDescriptor (f : Flash) : Option Descriptor :=
  let a := flashWord f 12
  let b := flashWord f 16
  let n := flashWord f 20
  if f.sfdp && flashWord f 0 == 0x4453_4C50 && flashWord f 4 == 1
      && flashWord f 24 == crc32Of (byteNats (flashBytes f 0 24))
      && a % 65536 == 0 && b % 65536 == 0 && n % 65536 == 0
      && decide (3 * 65536 ≤ a) && decide (3 * 65536 ≤ b) && decide (a + n ≤ f.size)
      && decide (b + n ≤ f.size) && (decide (a + n ≤ b) || decide (b + n ≤ a)) then
    some { subsys := BitVec.ofNat 16 (flashWord f 8), aBase := a, bBase := b, slotBytes := n }
  else none

def Descriptor.base (d : Descriptor) (slot : Bool) : Nat := if slot then d.bBase else d.aBase

/-- A journal record (19 R559). -/
structure Record where
  type : Nat
  slot : Bool
  block : Nat
  gen : Nat
  deriving DecidableEq, Repr

/-- The eight bytes of a record. -/
def Record.bytes (r : Record) : List Byte :=
  let low := toBytes 6 (r.type % 16 + b2n r.slot * 16 + r.block % 2048 * 32 + r.gen % 65536 * 65536)
  low ++ toBytes 2 (crc16 0xFFFF (byteNats low))

/-- Records of a journal sector: `none` for one with a bad CRC; the sector ends at
a record of eight 0xFF bytes. -/
def readRecords (f : Flash) (a : Nat) : Nat → List (Option Record)
  | 0 => []
  | n + 1 =>
    let bs := flashBytes f a 8
    if bs.all (fun b => b == 0xFF) then []
    else
      let w := ofBytes (bs.take 6)
      let good := ofBytes (bs.drop 6) == crc16 0xFFFF (byteNats (bs.take 6))
      (if good then
        some { type := w % 16, slot := w.testBit 4, block := w / 32 % 2048, gen := w / 65536 % 65536 }
      else none) :: readRecords f (a + 8) n

/-- Records that a sector holds, in order: how many places are used, and those
with a good CRC. -/
def sector (f : Flash) (n : Nat) : Nat × List Record :=
  let rs := readRecords f (65536 * n) 8192
  (rs.length, rs.filterMap id)

/-- GEN of a complete sector: GENERATION is its first record, and it holds a SLOT_STATE of
each slot (19 R560). -/
def sectorGen : List Record → Option Nat
  | g :: rs =>
    let has (slot : Bool) : Bool := rs.any fun r => r.type == 7 && r.slot == slot
    if g.type = 6 ∧ has false ∧ has true then some g.gen else none
  | [] => none

/-- Whether GEN `g` is later than `h` (19 R560). -/
def laterGen (g h : Nat) : Bool :=
  let d := (g + 65536 - h) % 65536
  decide (1 ≤ d) && decide (d ≤ 32767)

/-- The active sector: its block, GEN, used places and records (19 R560). -/
def activeSector (f : Flash) : Option (Nat × Nat × Nat × List Record) :=
  let s1 := sector f 1
  let s2 := sector f 2
  match sectorGen s1.2, sectorGen s2.2 with
  | some g, some h => if laterGen h g then some (2, h, s2) else some (1, g, s1)
  | some g, none => some (1, g, s1)
  | none, some h => some (2, h, s2)
  | none, none => none

/-- The state that a record gives its slot (19 R560). -/
def Record.state (r : Record) : Option Nat :=
  match r.type with
  | 1 | 2 => some slotInterrupted
  | 3 => some slotErased
  | 4 => some slotWriting
  | 5 => some slotCommitted
  | 7 => some r.block
  | _ => none

/-- A slot's state by the journal (19 R560). -/
def slotState (f : Flash) (slot : Bool) : Nat :=
  match activeSector f with
  | none => slotEmpty
  | some (_, _, _, rs) =>
    rs.foldl (fun st r => if r.slot = slot then r.state.getD st else st) slotEmpty

/-- Whether the CRC of a slot header is correct. -/
def headerCrcGood (f : Flash) (base : Nat) : Bool :=
  flashWord f (base + 12) == crc32Of (byteNats (flashBytes f base 12))

/-- Generation and length in words of a slot with a correct header. -/
def slotHeader (f : Flash) (base : Nat) : Option (Nat × Nat) :=
  if flashWord f base == 0x544F_4C53 && headerCrcGood f base then
    some (flashWord f (base + 4), flashWord f (base + 8))
  else none

/-- The generation of a valid slot (19 R564). -/
def validSlot (f : Flash) (slot : Bool) : Option Nat :=
  match readDescriptor f with
  | none => none
  | some d =>
    match slotHeader f (d.base slot) with
    | some (g, n) =>
      if slotState f slot = slotCommitted ∧ 4 * n + 256 ≤ d.slotBytes then some g else none
    | none => none

/-- Whether GENERATION `g` is later than `h` (19 R565). -/
def laterGeneration (g h : Nat) : Bool :=
  let d := (g + 2 ^ 32 - h) % 2 ^ 32
  decide (1 ≤ d) && decide (d < 2 ^ 31)

/-- The valid slots in the order in which the boot ROM tries them (19 R565, R566). -/
def bootSlots (f : Flash) : List Bool :=
  match validSlot f false, validSlot f true with
  | some a, some b => if laterGeneration b a then [true, false] else [false, true]
  | some _, none => [false]
  | none, some _ => [true]
  | none, none => []

/-- The image words of a slot from word `i` up. -/
def slotWords (f : Flash) (slot : Bool) (i n : Nat) : List W32 :=
  match readDescriptor f with
  | none => []
  | some d => (List.range n).map fun k =>
      BitVec.ofNat 32 (flashWord f (d.base slot + 256 + 4 * (i + k)))

end Sys2Proof.Machine
end

