-- ==== Sys2Proof/Machine/LoadBase.lean ====
section
/-!
DEFINITION. RIGHT_AWAY (04 R108, R112-R117), and how a load begins and ends
(04 R106, R107, R111, R115, R122; 19 R566, R567).
-/
namespace Sys2Proof.Machine

/-! ## RIGHT_AWAY -/

/-- CC_RA.LINE: high only while no device drives it (04 R112). -/
def State.raLine (s : State) : Bool := !s.ra.driving && !s.ra.otherLow

/-- The device drives RIGHT_AWAY low and no longer qualifies it. -/
def State.raDrive (s : State) : State :=
  { s with ra := { s.ra with driving := true, highSince := none, deadline := none } }

/-- The device releases RIGHT_AWAY: the line rises, or a low that others drive
begins for this device. -/
def State.raReleaseLine (s : State) : State :=
  { s with ra := { s.ra with
      driving := false
      highSince := if s.ra.otherLow then none else some s.pw.now
      lowSince := if s.ra.otherLow then some s.pw.now else none
      lowTb := s.tb.now, lowCounted := false } }

/-- The line has been high long enough at the instant the result names, where no
low of 50 ns or more has broken it (04 R113). -/
def State.qualifiedAt (s : State) : Option Nat :=
  if s.ra.driving then none
  else match s.ra.highSince with
    | none => none
    | some t =>
      if s.ra.otherLow then
        (match s.ra.lowSince with
          | some l => if s.pw.now < l + 50 then some (t + 1000) else if t + 1000 ≤ l then some (t + 1000) else none
          | none => none)
      else some (t + 1000)

/-- Whether the device has qualified the line before its timeout (04 R113, R114). -/
def State.qualified (s : State) : Bool :=
  match s.qualifiedAt with
  | none => false
  | some q => decide (q ≤ s.pw.now) && (match s.ra.deadline with | some d => decide (q < d) | none => true)

/-- Whether WAIT_RIGHT_AWAY has timed out (04 R114). -/
def State.raTimedOut (s : State) : Bool :=
  match s.ra.deadline with
  | some d => decide (d ≤ s.pw.now) && !s.qualified
  | none => false

/-! ## Words of the image -/

/-- The first word that the controller has not consumed (04 R107). -/
def Load.unread (l : Load) : Nat := l.pos + l.buf.length

/-- Words that the controller has not consumed and may consume (04 R104, R106). -/
def State.wordsLeft (s : State) : Nat :=
  if s.cc.source = 2 then (s.cc.produced - s.cc.consumed).toNat else 2 ^ 32

/-- The next `n` words of the image that the controller has not consumed. -/
def State.freshWords (s : State) (l : Load) (n : Nat) : List W32 :=
  if s.cc.source = 2 then
    (List.range n).map fun i => nget 0 s.cc.ring ((s.cc.consumed.toNat + i) % 262144)
  else match s.sd.flash with
    | none => List.replicate n 0xFFFF_FFFF
    | some f => slotWords f (s.cc.source == 1) l.unread n

/-- Words there are of the command in progress and of what follows it. -/
def State.wordsReady (s : State) : Nat :=
  (match s.cc.load with | some l => l.buf.length | none => 0) + s.wordsLeft

/-- The next `n` words of the image, those consumed of an unfinished command first. -/
def State.nextWords (s : State) (n : Nat) : List W32 :=
  match s.cc.load with
  | none => []
  | some l => l.buf.take n ++ s.freshWords l (n - l.buf.length)

/-- CC_WIN_CONSUMED rises by `n` (04 R104). -/
def State.consume (s : State) (n : Nat) : State :=
  { s with cc := { s.cc with
      consumed := if s.cc.source = 2 then s.cc.consumed + BitVec.ofNat 32 n else s.cc.consumed } }

/-- The command in progress takes `n` words (04 R104); CRC-32 runs over them (03 R98). -/
def State.takeWords (s : State) (n : Nat) : State :=
  match s.cc.load with
  | none => s
  | some l =>
    let crc := crc32 l.crc.toNat ((s.nextWords n).flatMap wordBytes)
    let s := s.consume (n - l.buf.length)
    { s with cc := { s.cc with
        load := some { l with pos := l.pos + n, buf := l.buf.drop n, crc := BitVec.ofNat 32 crc } } }

/-- The controller consumes what there is of the `n` words that its next command needs
(04 R104, R107): a load that starves has consumed every word produced. -/
def State.absorb (s : State) (n : Nat) : State :=
  match s.cc.load with
  | none => s
  | some l =>
    let k := min (n - l.buf.length) s.wordsLeft
    let ws := s.freshWords l k
    let s := s.consume k
    { s with cc := { s.cc with load := some { l with buf := l.buf ++ ws } } }

def State.modLoad (s : State) (f : Load → Load) : State :=
  { s with cc := { s.cc with load := s.cc.load.map f } }

/-! ## Begin and end -/

/-- Reason codes (03 Table 3.7). -/
def rsTarget : Nat := 0x01
def rsFormat : Nat := 0x02
def rsRegionBusy : Nat := 0x03
def rsNoCores : Nat := 0x04
def rsNoSemaphores : Nat := 0x05
def rsNoDepotQuota : Nat := 0x06
def rsNoFloor : Nat := 0x07
def rsNoWindows : Nat := 0x08
def rsFrameCheck : Nat := 0x09
def rsEndCheck : Nat := 0x0A
def rsRightAway : Nat := 0x0B
def rsAborted : Nat := 0x0C
def rsHbmFailed : Nat := 0x0D

/-- The reasons of Table 4.3, with which an image is refused and changes no region (04 R118). -/
def refusalReason (reason : Nat) : Bool := decide (rsRegionBusy ≤ reason) && decide (reason ≤ rsNoWindows)

/-- The words there are show a full load, by bit 0 of its FLAGS word: RIGHT_AWAY is driven
low from its first word on, and the watch of R117 ends (04 R115; log 48). -/
def State.seeFull (s : State) : State :=
  match s.cc.load with
  | none => s
  | some l =>
    let full := l.part == .header && !l.full && (match nth (s.nextWords (min 5 s.wordsReady)) 4 with
      | some w => bit w 0
      | none => false)
    if full then
      let s := if s.ra.driving then s else s.raDrive
      State.modLoad { s with ra := { s.ra with watching := false } } fun l => { l with full := true }
    else s

/-- A load begins from a source: 0 slot A, 1 slot B, 2 the window. -/
def State.startLoad (s : State) (source : Nat) : State :=
  State.seeFull { s with cc := { s.cc with
      state := 1, reason := 0, wordOffset := 0, frames := 0, source := BitVec.ofNat 2 source
      consumed := if source = 2 then 0 else s.cc.consumed, load := some {} } }

/-- A slot's load begins; SD_BOOT records the slot (19 Table 19.10). -/
def State.startSlot (s : State) (slot : Bool) : State :=
  State.startLoad { s with cc := { s.cc with tried := s.cc.tried ||| (if slot then 2 else 1) } } (b2n slot)

/-- One hexadecimal digit. -/
def hexDigit (n : Nat) : Byte := BitVec.ofNat 8 (if n < 10 then 48 + n else 55 + n)

/-- A byte goes into a UART's transmit FIFO, or is dropped and counted (19 R569). -/
def State.uartPut (s : State) (u : Nat) (b : Byte) : State :=
  let k := nget {} s.sd.uart u
  let k := if k.tx.length < 64 then { k with tx := k.tx ++ [b] } else { k with txDropped := satInc k.txDropped }
  { s with sd := { s.sd with uart := nset u k s.sd.uart } }

/-- The line that the boot ROM writes at the end of each load (19 R569). -/
def State.bootLine (s : State) : State :=
  if s.sd.bootlog then
    forEach [0x4C, 0x44, 0x20, hexDigit (s.cc.reason.toNat / 16), hexDigit (s.cc.reason.toNat % 16), 0x20,
        hexDigit s.cc.source.toNat, 0x0D, 0x0A]
      (fun b s => s.uartPut 0 b) s
  else s

/-- A load has ended: event 1, the alert bit and the log line (16 Table 16.4,
19 R555, R569). -/
def State.announceEnd (s : State) : State :=
  State.bootLine (State.alert (s.hostEvent 1) 4)

/-- The declared regions of a load. -/
def Load.declared (l : Load) : List Nat := l.decls.map Prod.fst

/-- After a full load that failed, every region is unloaded, and so isolated (04 R108,
R122). -/
def State.unloadAll (s : State) : State :=
  forEach ((s.regions.map Prod.fst).filter fun r => (s.region r).st.loaded)
    (fun r s =>
      let g := s.region r
      let s := s.haltRegion r
      let s := if g.st.isolated then s else s.isolateEffects r (g.st == .parked)
      s.unloadRegion r) s

/-- After a partial load that failed, a declared region ends parked and isolated
(04 R107, R122); a red flag or an unloaded state stands. -/
def State.containRegion (s : State) (r : Nat) : State :=
  let g := s.region r
  match g.st with
  | .running => State.parkRegion (s.setRegion r { g with thenIsolate := true }) r
  | .startedIsolated => s.parkRegion r
  | .parked => s.isolateRegion r
  | .writing => s.setRegion r { g with st := .parkedIsolated }
  | _ => s

/-- What a load that ended with a reason leaves of the regions: a full load unloads every
region, but for an ABORT before admission (04 R107, R122; log 22). -/
def State.regionsAfter (s : State) (l : Load) (reason : Nat) : State :=
  if l.full then (if !l.admitted && reason == rsAborted then s else s.unloadAll)
  else if l.admitted then forEach l.declared (fun r s => s.containRegion r) s
  else s

/-- After the load of a slot: its reason in SD_BOOT, then the other slot or the
window (04 R584, 19 R566, R567). -/
def State.afterSlot (s : State) (l : Load) (reason : Nat) : State :=
  if s.cc.source = 0 ∨ s.cc.source = 1 then
    let slot := s.cc.source == 1
    let second := s.cc.tried == 3
    let s := { s with cc := { s.cc with
      reason1 := if second then s.cc.reason1 else BitVec.ofNat 8 reason
      reason2 := if second then BitVec.ofNat 8 reason else s.cc.reason2 } }
    let other : Bool := match s.sd.flash with
      | some f => (validSlot f (!slot)).isSome
      | none => false
    if l.full ∧ reason ≠ 0 ∧ reason ≠ rsRightAway ∧ reason ≠ rsAborted ∧ other ∧ !second ∧ !s.sd.failed then
      s.startSlot (!slot)
    else { s with cc := { s.cc with bootHold := false } }
  else s

/-- The load ends with STATE `st`, a reason and the offending word (03 R73, 04
R107, R115, R122). -/
def State.endLoad (s : State) (st reason offset : Nat) : State :=
  match s.cc.load with
  | none => s
  | some l =>
    let s := { s with cc := { s.cc with
      state := BitVec.ofNat 4 st, reason := BitVec.ofNat 8 reason, wordOffset := BitVec.ofNat 32 offset, load := none } }
    let s := if l.full then s.raDrive else s
    let s := if refusalReason reason then s else s.regionsAfter l reason
    State.afterSlot s.announceEnd l reason

/-- The load ends with FORMAT at word `offset`. -/
def State.formatAt (s : State) (offset : Nat) : State := s.endLoad 8 rsFormat offset

/-- END has been consumed: STATE 6 (03 R77); a full load is watched for lows from
here on (04 R117). -/
def State.loadDone (s : State) : State :=
  match s.cc.load with
  | none => s
  | some l =>
    let s := { s with
      cc := { s.cc with state := 6, reason := 0, wordOffset := 0, load := none }
      ra := if l.full then { s.ra with watching := true } else s.ra }
    State.afterSlot s.announceEnd l 0

/-- CC_LOAD.GO (04 R106, R584). -/
def State.goWrite (s : State) : State :=
  if s.cc.bootHold || s.cc.load.isSome then
    { s with cc := { s.cc with rejected := satInc s.cc.rejected } }
  else s.startLoad 2

/-- CC_LOAD.ABORT (04 R107). -/
def State.abortWrite (s : State) : State :=
  match s.cc.load with
  | none => s
  | some l => s.endLoad 8 rsAborted l.unread

/-- A write to CC_LOAD, GO and ABORT judged against the STATE before it (04 R107). -/
def State.loadWrite (s : State) (go abort : Bool) : State :=
  if s.cc.load.isSome then
    let s := if go then { s with cc := { s.cc with rejected := satInc s.cc.rejected } } else s
    if abort then s.abortWrite else s
  else if go then s.goWrite else s

/-- What the boot ROM does once no erase is left: it chooses the slot (19 R565,
04 R585). -/
def State.chooseSlot (s : State) : State :=
  let slots := match s.sd.flash with
    | some f => if s.sd.failed then [] else bootSlots f
    | none => []
  let s := { s with
    cc := { s.cc with boot := .scanned }
    sd := match if s.sd.failed then none else s.sd.flash with
      | some f => { s.sd with slotA := BitVec.ofNat 3 (slotState f false), slotB := BitVec.ofNat 3 (slotState f true) }
      | none => s.sd }
  if s.cc.bootHold then
    match slots with
    | slot :: _ => s.startSlot slot
    | [] =>
      let s := { s with cc := { s.cc with source := 3, tried := 0, bootHold := false } }
      if s.pw.bootsel = 0 then
        State.announceEnd { s with cc := { s.cc with state := 8, reason := BitVec.ofNat 8 rsFormat, wordOffset := 0 } }
      else s
  else s

end Sys2Proof.Machine
end

