-- ==== Sys2Proof/Machine/FlashEngine.lean ====
section
/-!
DEFINITION. The flash engine and its journal (19 R560-R564, R568).
-/
namespace Sys2Proof.Machine

/-! ## Image commands (03 Tables 3.3, R69) -/

def cmdOp (w : W32) : Nat := bits w 31 24
def cmdReg (w : W32) : Nat := bits w 23 16
def cmdCount (w : W32) : Nat := bits w 15 0

/-- Words that follow a command word, none for an opcode that Table 3.3 does not list. -/
def wordsAfter (w : W32) : Option Nat :=
  match cmdOp w with
  | 0x00 | 0x01 | 0x02 => some (cmdCount w)
  | 0x03 => some 1
  | 0x04 => some (257 * cmdCount w)
  | 0x05 => some (1 + 257 * cmdCount w)
  | 0x06 => some 8
  | 0x07 | 0x08 | 0x09 | 0x0A | 0x0B | 0x0D => some 0
  | 0x0C => some 1
  | _ => none

/-- Word `i` of the image that starts at store address `a`. -/
def imageWord (f : Flash) (a i : Nat) : W32 := BitVec.ofNat 32 (flashWord f (a + 4 * i))

/-- Place of the CHECK_END word, walking from word `i`, within `n` commands and
`len` words. -/
def findCheckEnd (f : Flash) (a len : Nat) : Nat → Nat → Option Nat
  | 0, _ => none
  | n + 1, i =>
    if len ≤ i then none
    else
      let w := imageWord f a i
      if cmdOp w = 0x0C then some i
      else match wordsAfter w with
        | some k => findCheckEnd f a len n (i + 1 + k)
        | none => none

/-- Whether the image's CRC-32 equals the word after CHECK_END (19 R563, 03 R98). -/
def imageCrcGood (f : Flash) (a len : Nat) : Bool :=
  match findCheckEnd f a len len 0 with
  | none => false
  | some i => imageWord f a (i + 1) == BitVec.ofNat 32 (crc32Of (byteNats (flashBytes f a (4 * (i + 1)))))

/-! ## The journal -/

/-- Record `r` programmed at place `n` of sector `b`. -/
def putRecord (f : Flash) (b n : Nat) (r : Record) : Flash := programBytes f (65536 * b + 8 * n) r.bytes

/-- The engine erases the other sector and writes its first three records (19
R561). With no complete sector it starts sector 1 at GEN 1 (log 31). -/
def switchSector (f : Flash) : Flash :=
  let st : Bool → Nat := slotState f
  let dest := match activeSector f with
    | some (b, g, _, _) => (3 - b, (g + 1) % 65536)
    | none => (1, 1)
  let rec3 : List Record :=
    [ { type := 6, slot := false, block := 0, gen := dest.2 },
      { type := 7, slot := false, block := st false, gen := dest.2 },
      { type := 7, slot := true, block := st true, gen := dest.2 } ]
  (rec3.foldl (fun (p : Flash × Nat) r => (putRecord p.1 dest.1 p.2 r, p.2 + 1)) (eraseBlock f dest.1, 0)).1

/-- A record appended to the active sector. -/
def appendAt (f : Flash) (type : Nat) (slot : Bool) (block : Nat) : Flash :=
  match activeSector f with
  | some (b, g, used, _) => putRecord f b used { type := type, slot := slot, block := block, gen := g }
  | none => f

/-- The next journal record, after a switch of sectors where fewer than 8 records
are blank (19 R561). -/
def journal (f : Flash) (type : Nat) (slot : Bool) (block : Nat) : Flash :=
  let roomy := match activeSector f with
    | some (_, _, used, _) => decide (8 ≤ 8192 - used)
    | none => false
  appendAt (if roomy then f else switchSector f) type slot block

/-! ## Commands -/

def resOk : Nat := 0
def resState : Nat := 1
def resFlashError : Nat := 2
def resCrcMismatch : Nat := 3
def resRange : Nat := 4

/-- Changes to the chip, with the slot states that the engine then knows. -/
def State.setFlash (s : State) (f : Flash) : State :=
  { s with sd := { s.sd with
      flash := some f, slotA := BitVec.ofNat 3 (slotState f false), slotB := BitVec.ofNat 3 (slotState f true) } }

/-- The command ends with a result and BUSY 0. -/
def State.flashResult (s : State) (r : Nat) : State :=
  { s with sd := { s.sd with cmd := none, readDuringErase := none, result := BitVec.ofNat 4 r } }

/-- BUSY: a command runs, or the boot ROM waits for an erase (19 R565, R568). -/
def State.flashBusy (s : State) : Bool := s.sd.cmd.isSome || s.cc.boot == .waitErase

/-- The chip, where the engine can use it. -/
def State.usableFlash (s : State) : Option Flash := if s.sd.failed then none else s.sd.flash

/-- The slot that `n` bytes at `a` lie in, if any (19 R568). -/
def slotAt (f : Flash) (a n : Nat) : Option Bool :=
  match readDescriptor f with
  | none => none
  | some d =>
    if d.aBase ≤ a ∧ a + n ≤ d.aBase + d.slotBytes then some false
    else if d.bBase ≤ a ∧ a + n ≤ d.bBase + d.slotBytes then some true
    else none

/-- Bytes that PROGRAM writes; LEN 0 acts as 256 (19 Table 19.10). -/
def State.programLen (s : State) : Nat := if s.sd.flLen.toNat = 0 then 256 else s.sd.flLen.toNat

/-- The result that PROGRAM is refused with, or the slot it writes. A PROGRAM that
crosses a page is refused as RANGE (log 31). -/
def State.programTarget (s : State) (f : Flash) (a : Nat) : Nat ⊕ Bool :=
  let n := s.programLen
  if 256 < a % 256 + n then .inl resRange
  else match slotAt f a n with
    | none => .inl resRange
    | some slot =>
      let st := slotState f slot
      if st = slotErased ∨ st = slotWriting then .inr slot else .inl resState

/-- The erase of block `b` of a slot begins: its record, then the erase (19 R562). -/
def State.beginBlock (s : State) (f : Flash) (d : Descriptor) (slot : Bool) (b : Nat) : State :=
  let f := journal f 1 slot b
  State.setFlash { s with sd := { s.sd with cmd := some (.erase slot b) } }
    { f with erase := some { block := d.base slot / 65536 + b, suspended := false } }

/-- SLOT_ERASE is accepted. -/
def State.beginErase (s : State) (slot : Bool) : State :=
  match s.usableFlash with
  | none => s.flashResult resFlashError
  | some f =>
    match readDescriptor f with
    | none => s.flashResult resRange
    | some d =>
      if d.slotBytes = 0 then State.flashResult (s.setFlash (journal f 3 slot 0)) resOk
      else s.beginBlock f d slot 0

/-- PROGRAM is accepted: SLOT_WRITING precedes the first PROGRAM into an ERASED
slot (19 R563). -/
def State.beginProgram (s : State) : State :=
  let s := { s with sd := { s.sd with cmd := some (.program s.sd.flAddr.toNat) } }
  match s.usableFlash with
  | none => s
  | some f =>
    match s.programTarget f s.sd.flAddr.toNat with
    | .inr slot => if slotState f slot = slotErased then s.setFlash (journal f 4 slot 0) else s
    | .inl _ => s

/-- A command is written to SD_FL_CMD (19 R568). A READ during SLOT_ERASE suspends
the erase. Codes that Table 19.10 does not list start nothing. -/
def State.flashCommand (s : State) (code : Nat) (slot : Bool) (len : BitVec 9) (src : Source) : State :=
  let erasing : Bool := match s.sd.cmd with | some (.erase ..) => s.sd.readDuringErase.isNone | _ => false
  let accept := { s with sd := { s.sd with flLen := len, flSlot := slot, flWriter := src } }
  if code = 0 ∨ 5 < code then
    if s.flashBusy then s else { s with sd := { s.sd with flLen := len, flSlot := slot } }
  else if s.flashBusy then
    if code = 1 ∧ erasing then
      { accept with sd := { accept.sd with
          readDuringErase := some s.sd.flAddr.toNat
          flash := s.sd.flash.map fun f =>
            { f with erase := f.erase.map fun e => { e with suspended := true } } } }
    else { s with sd := { s.sd with ignored := satInc s.sd.ignored } }
  else match code with
    | 1 => { accept with sd := { accept.sd with cmd := some (.read s.sd.flAddr.toNat) } }
    | 2 => accept.beginProgram
    | 3 => accept.beginErase slot
    | 4 => { accept with sd := { accept.sd with cmd := some .commit } }
    | _ => { accept with sd := { accept.sd with cmd := some .rescan } }

/-- FLASH_READ. -/
def execFlashRead (src : Source) (s : State) : Host.Outcome State Fault Refusal :=
  need (Instr.flashRead src).WellFormed s fun s => whenUp s fun s => s.flashCommand 1 s.sd.flSlot s.sd.flLen src

/-- PROGRAM. -/
def execProgram (src : Source) (len : BitVec 9) (s : State) : Host.Outcome State Fault Refusal :=
  need (Instr.program src len).WellFormed s fun s => whenUp s fun s => s.flashCommand 2 s.sd.flSlot len src

/-- SLOT_ERASE. -/
def execSlotErase (src : Source) (slot : Bool) (s : State) : Host.Outcome State Fault Refusal :=
  need (Instr.slotErase src slot).WellFormed s fun s => whenUp s fun s => s.flashCommand 3 slot s.sd.flLen src

/-- COMMIT. -/
def execCommit (src : Source) (slot : Bool) (s : State) : Host.Outcome State Fault Refusal :=
  need (Instr.commit src slot).WellFormed s fun s => whenUp s fun s => s.flashCommand 4 slot s.sd.flLen src

/-- RESCAN. -/
def execRescan (src : Source) (s : State) : Host.Outcome State Fault Refusal :=
  need (Instr.rescan src).WellFormed s fun s => whenUp s fun s => s.flashCommand 5 s.sd.flSlot s.sd.flLen src

/-! ## Completion -/

/-- READ: 256 bytes from the address taken. -/
def State.readResult (s : State) (a : Nat) : State × Nat :=
  match s.usableFlash with
  | none => (s, resFlashError)
  | some f =>
    match slotAt f a 256 with
    | none => (s, resRange)
    | some _ =>
      let m := (List.range 256).foldl (fun m i => nset i (flashByte f (a + i)) m) ([] : NMap Byte)
      ({ s with sd := { s.sd with flBuf := m } }, resOk)

/-- PROGRAM: bytes of SD_FL_BUF from its start, at the address taken. -/
def State.programResult (s : State) (a : Nat) : State × Nat :=
  match s.usableFlash with
  | none => (s, resFlashError)
  | some f =>
    match s.programTarget f a with
    | .inl r => (s, r)
    | .inr _ =>
      (s.setFlash (programBytes f a
        ((List.range s.programLen).map fun i => nget 0 s.sd.flBuf i)), resOk)

/-- COMMIT: its checks, then SLOT_COMMITTED (19 R563). -/
def State.commitResult (s : State) : State × Nat :=
  match s.usableFlash with
  | none => (s, resFlashError)
  | some f =>
    match readDescriptor f with
    | none => (s, resRange)
    | some d =>
      let slot := s.sd.flSlot
      if slotState f slot ≠ slotWriting then (s, resState)
      else
        let base := d.base slot
        let good := headerCrcGood f base && imageCrcGood f (base + 256) (flashWord f (base + 8))
        if good then (s.setFlash (journal f 5 slot 0), resOk) else (s, resCrcMismatch)

/-- FLASH_COMMAND_DONE (19 R568). The READ of an erase ends and the erase resumes. -/
def State.flashDone (s : State) : State :=
  match s.sd.readDuringErase with
  | some a =>
    let r := s.readResult a
    { r.1 with sd := { r.1.sd with
        readDuringErase := none, result := BitVec.ofNat 4 r.2
        flash := r.1.sd.flash.map fun f =>
          { f with erase := f.erase.map fun e => { e with suspended := false } } } }
  | none =>
    match s.sd.cmd with
    | some (.read a) => let r := s.readResult a; r.1.flashResult r.2
    | some (.program a) => let r := s.programResult a; r.1.flashResult r.2
    | some .commit => let r := s.commitResult; r.1.flashResult r.2
    | some .rescan =>
      (match s.usableFlash with
        | none => s.flashResult resFlashError
        | some f => State.flashResult (s.setFlash f) resOk)
    | _ => s

def execFlashCommandDone (s : State) : Host.Outcome State Fault Refusal :=
  need Instr.flashCommandDone.WellFormed s fun s => whenUp s State.flashDone

/-- The chip has erased the block: the boot ROM goes on to the journal, or the
engine to its next block (19 R562, R565). -/
def State.blockErased (s : State) : State :=
  match s.sd.flash with
  | none => s
  | some f =>
    match f.erase with
    | none => s
    | some e =>
      if e.suspended then s
      else
        let f := { eraseBlock f e.block with erase := none }
        if !s.pw.perst then { s with sd := { s.sd with flash := some f } }
        else if s.cc.boot = .waitErase then State.chooseSlot { s with sd := { s.sd with flash := some f } }
        else match s.sd.cmd, readDescriptor f with
          | some (.erase slot b), some d =>
            let f := journal f 2 slot b
            if b + 1 < d.slotBytes / 65536 then s.beginBlock f d slot (b + 1)
            else State.flashResult (s.setFlash (journal f 3 slot 0)) resOk
          | _, _ => { s with sd := { s.sd with flash := some f } }

/-- ERASE_BLOCK_DONE. The chip goes on erasing while PERST_N is low. -/
def execEraseBlockDone (s : State) : Host.Outcome State Fault Refusal :=
  need Instr.eraseBlockDone.WellFormed s State.blockErased

end Sys2Proof.Machine
end

