-- ==== Sys2Proof/Machine/SemOps.lean ====
section
/-!
DEFINITION. Operations on the semaphores of this package (13 R397-R405, R411, R419), from
cores and by address.
-/
namespace Sys2Proof.Machine

def isSemOp (p : Nat) : Bool := inRange 0x690 0x698 p

/-- The semaphore that a local address lies in. -/
def semAt (a : Nat) : Option Nat :=
  match decodeLocal a with
  | .sem i _ => some i
  | _ => none

/-- Whether a semaphore operation takes the release form (R405). -/
def Op.releases (o : Op) : Bool :=
  (o.port == 0x690 || o.port == 0x696 || o.port == 0x697) && !bit (o.operand 0x682) 0

/-- Whether a core's semaphore operation may be applied: its border carries it, and what
R405 and R406 put before it is done. -/
def State.semReady (s : State) (c : Nat) (o : Op) : Bool :=
  let k := s.core c
  !s.isolated c
    && !(k.accs.any fun x => decide (x.op < o.id) && !x.done && s.destOf x.addr == .sem)
    && (!o.releases || k.fenced o.id true)

/-- The next semaphore operation of a core and its semaphore, where that is one of this
package's (R405). -/
def State.semNext (s : State) (c : Nat) : Option (Op × Nat) :=
  match (s.core c).oldest fun o => isSemOp o.port && o.stage == .running && s.isLocal (o.operand 0x680).toNat with
  | some o =>
    if s.semReady c o then (semAt (localOf (o.operand 0x680).toNat)).map fun i => (o, i) else none
  | none => none

/-- A wait that WCANCEL withdraws ends with CANCELLED; COUNT stays (R419). -/
def State.semCancel (s : State) (sem c id : Nat) : State :=
  let r := s.semWithdraw sem c id
  if r.2 then
    r.1.modCore c fun k => k.modOp id fun o =>
      { o with stage := .served, res := semWord semCancelled (r.1.sem sem).count }
  else s

/-- A core's operation is applied. A wait's result reaches its core by SEMAPHORE_RESULT. -/
def State.semApply (s : State) (c : Nat) (o : Op) (sem : Nat) : State :=
  let w : Waiter := { caller := srcCore c, op := o.id, n := o.b.toNat, deadline := o.operand 0x681
                      tag := if o.port = 0x698 then some (bits (o.operand 0x682) 5 4) else none }
  let r := s.semOperate sem o.port w o.b
  match r.2 with
  | none =>
    let s := r.1.modCore c fun k => k.modOp o.id fun o => { o with stage := .queued }
    if o.pass = 1 then s.semCancel sem c o.id else s
  | some v =>
    r.1.modCore c fun k =>
      if o.port = 0x691 ∨ o.port = 0x698 then k.modOp o.id fun o => { o with stage := .served, res := v }
      else k.finish o [v]

/-- A write of SM_OP by address; its result word stays in SM_HOST_RES (R411). -/
def State.semOpWrite (s : State) (sem port : Nat) (caller : Source) (v : W64) : State :=
  let r := s.semOperate sem port { caller := caller, op := 0, n := 0, deadline := 0 } v
  r.1.setSem sem { r.1.sem sem with hostRes := r.2.getD 0 }

/-- An operation by address: SM_SIGNAL, SM_OP, SM_TRYWAIT and SM_STATE (R411). By address
no agent queues. -/
def State.semDirect (s : State) (sem port : Nat) (caller : Source) (v : W64) : State :=
  let reply (p : State × W64) : State :=
    if caller = srcHost then p.1.emit (.completion .success (toBytes 8 p.2.toNat)) else p.1
  match port with
  | 0x690 => if caller = srcHost then s.hostSignal sem (bits v 31 0) else (s.semSignal sem caller (bits v 31 0)).1
  | 0x692 => let r := s.semTry sem 1; reply (r.1, r.2.getD 0)
  | 0x695 => let s := s.semExpire sem; reply (s, (s.sem sem).stateWord)
  | 0x691 => s
  | _ => s.semOpWrite sem port caller v

/-- One row of Table 13.2 for a requester. -/
def State.semRow (s : State) (q : SemReq) (ports : List Nat) : State :=
  match q with
  | .core c =>
    (match s.semNext c with
      | some p => if ports.contains p.1.port then s.semApply c p.1 p.2 else s
      | none => s)
  | .direct caller sem v => s.semDirect sem (ports.headD 0) caller v

def execSignal (q : SemReq) (s : State) : Host.Outcome State Fault Refusal :=
  need (Instr.signal q).WellFormed s fun s => whenUp s fun s => s.semRow q [0x690]

def execWait (q : SemReq) (s : State) : Host.Outcome State Fault Refusal :=
  need (Instr.wait q).WellFormed s fun s => whenUp s fun s => s.semRow q [0x691, 0x698]

def execTrywait (q : SemReq) (s : State) : Host.Outcome State Fault Refusal :=
  need (Instr.trywait q).WellFormed s fun s => whenUp s fun s => s.semRow q [0x692]

def execClaim (q : SemReq) (s : State) : Host.Outcome State Fault Refusal :=
  need (Instr.claim q).WellFormed s fun s => whenUp s fun s => s.semRow q [0x693]

def execRelease (q : SemReq) (s : State) : Host.Outcome State Fault Refusal :=
  need (Instr.release q).WellFormed s fun s => whenUp s fun s => s.semRow q [0x694]

def execRead (q : SemReq) (s : State) : Host.Outcome State Fault Refusal :=
  need (Instr.read q).WellFormed s fun s => whenUp s fun s => s.semRow q [0x695]

def execRevive (q : SemReq) (s : State) : Host.Outcome State Fault Refusal :=
  need (Instr.revive q).WellFormed s fun s => whenUp s fun s => s.semRow q [0x696]

def execInit (q : SemReq) (s : State) : Host.Outcome State Fault Refusal :=
  need (Instr.init q).WellFormed s fun s => whenUp s fun s => s.semRow q [0x697]

/-- WAIT_DEADLINE (R402, R403). -/
def execWaitDeadline (sem : Nat) (s : State) : Host.Outcome State Fault Refusal :=
  need (Instr.waitDeadline sem).WellFormed s fun s => whenUp s fun s => s.semExpire sem

/-- Whether an operation of a core on another package's semaphore may go out: its border
lets it, and what R405, R406 and 12 R384 put before it is done. -/
def State.semMayGo (s : State) (c : Nat) (o : Op) : Bool :=
  let k := s.core c
  let a := (o.operand 0x680).toNat % 2 ^ 56
  isSemOp o.port && o.stage == .running && !s.isLocal a && !s.isolated c
    && !(k.accs.any fun x => decide (x.op < o.id) && !x.done && s.destOf x.addr == s.destOf a)
    && !(k.ops.any fun q => isSemOp q.port && q.stage == .running && decide (q.id < o.id)
        && s.destOf ((q.operand 0x680).toNat % 2 ^ 56) == s.destOf a)
    && !(k.ops.any fun q => decide (q.id < o.id) && s.sendsTo q a)
    && (!o.releases || k.fenced o.id true)

/-- WCANCELs of a remote wait that has ended change nothing (R419): those not yet sent go. -/
def Core.dropCancels (k : Core) (id : Nat) : Core :=
  { k with ops := k.ops.filter fun q => q.port != 0x69A || q.stage != .running || q.res.toNat != id }

/-- An operation on another package's semaphore fails: ACCESS (13 R401, 01 R34). -/
def Core.semFails (k : Core) (o : Op) (a : Nat) : Core :=
  Core.fault ((k.dropCancels o.id).finish o [0]) { code := 3, addr := a }

/-- The result word of an ended operation. TIMEOUT of a semaphore of this package is
produced here, with the count that the semaphore then has (R404, Example 1; log 51). -/
def State.resultWord (s : State) (o : Op) : W64 :=
  let a := (o.operand 0x680).toNat % 2 ^ 56
  match semAt (localOf a) with
  | some i =>
    if (o.port = 0x691 ∨ o.port = 0x698) ∧ s.isLocal a ∧ o.res.toNat % 256 = semTimeout then
      semWord semTimeout (s.sem i).count
    else o.res
  | none => o.res

/-- SEMAPHORE_RESULT: the result of an ended operation reaches its core (R399, R416,
R419); that of an asynchronous wait raises source 0. One that finds no route to its
package fails. -/
def State.semResult (s : State) (c id : Nat) : State :=
  if (s.region (regionOf c)).st.isRunning then
    let lost : Option Op := match (s.core c).opOf id with
      | some o => if s.semMayGo c o && s.noWayOut ((o.operand 0x680).toNat % 2 ^ 56) then some o else none
      | none => none
    match lost with
    | some o => s.countNoRoute.modCore c fun k => k.semFails o ((o.operand 0x680).toNat % 2 ^ 56)
    | none => s.modCore c fun k =>
      match k.opOf id with
      | some o =>
        if (isSemOp o.port || o.port == 0x699) && o.stage == .served then
          (let r := s.resultWord o
           if o.port = 0x698 then (k.finish o [r]).raise 0 else k.finish o [r])
        else k
      | none => k
  else s

def execSemaphoreResult (c id : Nat) (s : State) : Host.Outcome State Fault Refusal :=
  need (Instr.semaphoreResult c id).WellFormed s fun s => whenUp s fun s => s.semResult c id

/-! ## The block as registers (Table 13.1) -/

/-- What a read of a semaphore block returns, without its effect. -/
def State.semRegValue (s : State) (i off : Nat) : W64 :=
  let m := s.sem i
  match off with
  | 0x00 => m.stateWord
  | 0x08 => pack [(0, m.level.toNat), (32, m.vector.toNat), (48, b2n m.msixEn), (49, b2n m.flagEn), (50, b2n m.onAbandon)]
  | 0x10 => BitVec.ofNat 64 (m.flagAddr.toNat / 8 * 8)
  | 0x18 => pack [(0, m.queue.length % 2 ^ 15), (32, m.lastSignaller.toNat), (48, m.seq.toNat)]
  | 0x38 => m.hostRes
  | _ => 0

/-- A read of a semaphore block: SM_TRYWAIT performs TRYWAIT(1). -/
def State.semRegRead (s : State) (i off : Nat) : State × W64 :=
  let s := s.semExpire i
  if off = 0x30 then let r := s.semTry i 1; (r.1, r.2.getD 0) else (s, s.semRegValue i off)

/-- A write to a semaphore block. -/
def State.semRegWrite (s : State) (i off : Nat) (v : W64) (src : Source) : State :=
  match off with
  | 0x08 => s.setSem i { s.sem i with
      level := v.setWidth 32, vector := v.extractLsb' 32 11, msixEn := bit v 48, flagEn := bit v 49
      onAbandon := bit v 50 }
  | 0x10 => s.setSem i { s.sem i with flagAddr := v }
  | 0x20 => s.semDirect i 0x690 src v
  | 0x28 =>
    (match bits v 2 0 with
      | 1 => s.semDirect i 0x693 src 0
      | 2 => s.semDirect i 0x694 src 0
      | 3 => s.semDirect i 0x696 src (v >>> 32)
      | 4 => s.semDirect i 0x697 src (v >>> 32)
      | _ => s)
  | _ => s

end Sys2Proof.Machine
end

