-- ==== Sys2Proof/Machine/Sideband.lean ====
section
/-!
DEFINITION. UARTs, JTAG, GPIO pads, timed pulses, edge capture and the PMBus
master (19 R569-R574).
-/
namespace Sys2Proof.Machine

def State.uart (s : State) (u : Nat) : Uart := nget {} s.sd.uart u
def State.setUart (s : State) (u : Nat) (k : Uart) : State :=
  { s with sd := { s.sd with uart := nset u k s.sd.uart } }
def State.gpio (s : State) (p : Nat) : Gpio := nget {} s.sd.gpio p
def State.setGpio (s : State) (p : Nat) (k : Gpio) : State :=
  { s with sd := { s.sd with gpio := nset p k s.sd.gpio } }
def State.tpo (s : State) (n : Nat) : Tpo := nget {} s.sd.tpo n

/-- Whether function `f` has pad `p`. -/
def State.padIs (s : State) (p f : Nat) : Bool :=
  let g := s.gpio p
  g.park.isNone && g.func.toNat == f

/-! ## UART (R569) -/

/-- UART_DATA_WRITE. -/
def execUartDataWrite (u : Nat) (b : Byte) (s : State) : Host.Outcome State Fault Refusal :=
  need (Instr.uartDataWrite u b).WellFormed s fun s => whenUp s fun s => s.uartPut u b

/-- UART_TX_BYTE; UART2 sends while GPIO2 carries it. -/
def execUartTxByte (u : Nat) (s : State) : Host.Outcome State Fault Refusal :=
  need (Instr.uartTxByte u).WellFormed s fun s => whenUp s fun s =>
    let k := s.uart u
    match k.tx with
    | b :: t => if u = 0 ∨ s.padIs 2 2 then State.emit (s.setUart u { k with tx := t }) (.uart u b) else s
    | [] => s

/-- UART_RX_BYTE; UART2 hears while GPIO3 carries it. -/
def execUartRxByte (u : Nat) (b : Byte) (s : State) : Host.Outcome State Fault Refusal :=
  need (Instr.uartRxByte u b).WellFormed s fun s => whenUp s fun s =>
    let k := s.uart u
    if u = 0 ∨ s.padIs 3 2 then
      s.setUart u (if k.rx.length < 64 then { k with rx := k.rx ++ [b] }
        else { k with rxDropped := satInc k.rxDropped })
    else s

/-- A read of SD_UART_DATA takes the oldest byte received, 0 where none is held. -/
def State.uartTake (s : State) (u : Nat) : State × W64 :=
  let k := s.uart u
  match k.rx with
  | b :: t => (s.setUart u { k with rx := t }, b.setWidth 64)
  | [] => (s, 0)

/-! ## JTAG (R570, R571) -/

/-- The instruction register loaded. -/
def State.jtag (s : State) (code : BitVec 5) : State := { s with sd := { s.sd with jtagIr := code } }

/-- An instruction that acts only while PERST_N is low. -/
def State.jtagDrive (s : State) (code : BitVec 5) (drive : Option (BitVec 37)) : State :=
  let s := s.jtag code
  if s.pw.perst then s else s.emit (.lands drive)

/-- EXTEST. -/
def execExtest (s : State) : Host.Outcome State Fault Refusal :=
  need Instr.extest.WellFormed s fun s => s.jtagDrive 0 (some s.sd.boundary)

/-- IDCODE: 0x1702_0F35. -/
def execIdcode (s : State) : Host.Outcome State Fault Refusal :=
  need Instr.idcode.WellFormed s fun s => (s.jtag 1).emit (.jtag 0x1702_0F35)

/-- SAMPLE_PRELOAD: the lands are sampled, or the boundary register is loaded. -/
def execSamplePreload (pins : BitVec 37) (preload : Option (BitVec 37)) (s : State) :
    Host.Outcome State Fault Refusal :=
  need (Instr.samplePreload pins preload).WellFormed s fun s =>
    let s := (s.jtag 2).emit (.jtag pins.toNat)
    { s with sd := { s.sd with boundary := preload.getD pins } }

/-- CLAMP. -/
def execClamp (s : State) : Host.Outcome State Fault Refusal :=
  need Instr.clamp.WellFormed s fun s => s.jtagDrive 4 (some s.sd.boundary)

/-- HIGHZ. -/
def execHighz (s : State) : Host.Outcome State Fault Refusal :=
  need Instr.highz.WellFormed s fun s => s.jtagDrive 5 none

/-- BYPASS, by every code that Table 19.7 gives no other instruction. -/
def execBypass (code : BitVec 5) (s : State) : Host.Outcome State Fault Refusal :=
  need (Instr.bypass code).WellFormed s fun s => s.jtag code

/-! ## GPIO (R572-R574) -/

/-- Whether Table 19.8 gives pin `p` function `f`. -/
def padAllows (p f : Nat) : Bool :=
  match f with
  | 0 | 3 | 4 => true
  | 1 => p < 2
  | 2 => p == 2 || p == 3
  | _ => false

/-- A level of SD_GPIO_IN. -/
def State.setLevel (s : State) (p : Nat) (v : Bool) : State :=
  let m : W16 := BitVec.ofNat 16 (2 ^ p)
  { s with sd := { s.sd with gpioIn := if v then s.sd.gpioIn ||| m else s.sd.gpioIn &&& ~~~m } }

/-- A transfer of UART2 or of the PMBus master that loses pin `p` is ABORTED (R574). -/
def State.losePin (s : State) (p old : Nat) : State :=
  if old = 2 then
    let k := s.uart 1
    if p = 3 ∨ k.tx.isEmpty then s else s.setUart 1 { k with aborted := true }
  else if old = 1 ∧ s.padIs 0 1 ∧ s.padIs 1 1 ∧ s.sd.pmb.any (fun d => d.2.en) then
    { s with sd := { s.sd with pmbAborted := true } }
  else s

/-- SD_GPIO_FUNC(p) written (R573, R574). -/
def State.gpioFunc (s : State) (p : Nat) (func : BitVec 3) (src : Source) : State :=
  let g := s.gpio p
  if !padAllows p func.toNat then { s with sd := { s.sd with muxIgnored := satInc s.sd.muxIgnored } }
  else if g.park.isNone && g.func == func then s
  else
    let s := if g.park.isNone then s.losePin p g.func.toNat else s
    s.setGpio p { g with park := some (func, s.pw.now), writer := src }

/-- GPIO_FUNC_WRITE. -/
def execGpioFuncWrite (p : Nat) (func : BitVec 3) (src : Source) (s : State) :
    Host.Outcome State Fault Refusal :=
  need (Instr.gpioFuncWrite p func src).WellFormed s fun s => whenUp s fun s => s.gpioFunc p func src

/-- The level that a pin's function drives, if it drives one. -/
def State.driven (s : State) (p : Nat) : Option Bool :=
  let g := s.gpio p
  if g.park.isSome then none
  else if g.func = 0 then (if bit s.sd.gpioOe p then some (bit s.sd.gpioVal p) else none)
  else if g.func = 3 then some (s.tpo (p % 4)).level
  else none

/-- A pad that its function drives is sampled. -/
def State.sampleDriven (s : State) (p : Nat) : State :=
  match s.driven p with
  | some v => s.setLevel p v
  | none => s

/-- GPIO_PARK_END, 1 µs or more after the park began. -/
def execGpioParkEnd (p : Nat) (level : Bool) (s : State) : Host.Outcome State Fault Refusal :=
  need (Instr.gpioParkEnd p level).WellFormed s fun s => whenUp s fun s =>
    let g := s.gpio p
    match g.park with
    | some (f, t) =>
      if t + 1000 ≤ s.pw.now then
        let s := s.setGpio p { g with func := f, park := none }
        State.sampleDriven (s.setLevel p level) p
      else s
    | none => s

/-- SD_GPIO_OUT written: the pins of function 0 follow. -/
def State.gpioOut (s : State) (oe val : W16) : State :=
  let s := { s with sd := { s.sd with gpioOe := oe, gpioVal := val } }
  forN 16 (fun p s => s.sampleDriven p) s

/-- The level of a timed pulse at `now` (R572). -/
def Tpo.at (t : Tpo) (now : W64) : Bool :=
  decide (t.start ≤ now) &&
    (let d := (now - t.start).toNat
     if t.period = 0 then decide (d < t.width.toNat) else decide (d % t.period.toNat < t.width.toNat))

/-- TPO_EDGE. -/
def execTpoEdge (n : Nat) (s : State) : Host.Outcome State Fault Refusal :=
  need (Instr.tpoEdge n).WellFormed s fun s => whenUp s fun s =>
    let t := s.tpo n
    let s := { s with sd := { s.sd with tpo := nset n { t with level := t.at s.tb.now } s.sd.tpo } }
    forN 16 (fun p s => if p % 4 = n then s.sampleDriven p else s) s

/-- EXT_EDGE: a falling edge that the filter of 1 µs has passed. -/
def execExtEdge (p : Nat) (s : State) : Host.Outcome State Fault Refusal :=
  need (Instr.extEdge p).WellFormed s fun s => whenUp s fun s =>
    if s.padIs p 4 then State.setLevel (s.setGpio p { s.gpio p with edge := s.tb.now }) p false else s

/-- PMBUS_POLL: an answer goes to TF_BOARD, none sets NACK (R572). -/
def execPmbusPoll (b : Nat) (answer : Option W64) (s : State) : Host.Outcome State Fault Refusal :=
  need (Instr.pmbusPoll b answer).WellFormed s fun s => whenUp s fun s =>
    let d := nget {} s.sd.pmb b
    if d.en && s.padIs 0 1 && s.padIs 1 1 then
      match answer with
      | some v => { s with tf := { s.tf with board := nset b v s.tf.board } }
      | none => { s with sd := { s.sd with pmb := nset b { d with nack := true } s.sd.pmb } }
    else s

end Sys2Proof.Machine
end

