-- ==== Sys2Proof/Machine/Power.lean ====
section
/-!
DEFINITION. Power, reset, the timebase (02 R59-R61, 19 R546, R547, R565), HBM
bring-up (04 R109, R111), the RIGHT_AWAY line (04 R112-R117) and the PCIe link.
-/
namespace Sys2Proof.Machine

def allRails : List Rail := [.vinFab, .vio18, .vpcieL, .vpcieH, .vmqL, .vmqH, .vhbmVpp, .vhbmVdd, .vhbmVddq]

/-- SB_BOARD_CEIL by the straps (15 R448). -/
def ceilOf (pwrceil : BitVec 2) : BitVec 12 :=
  match pwrceil.toNat with
  | 0 => 3000 | 1 => 2400 | 2 => 1800 | _ => 1200

/-- REF_LOST: TB_STATUS and one log entry (02 R61). -/
def State.loseRef (s : State) : State :=
  State.log { s with tb := { s.tb with refLost := true, locked := false } } 0x0D 31 none srcErrorLog 0 0

/-- Every register at its reset value and every content undefined, the board's side
kept: rails, straps, the line that others drive, the flash chip and JTAG (00 R13,
04 R108, R580; 02 R59). -/
def State.resetAll (s : State) : State :=
  let z := State.reset
  { z with
    pending := s.pending, out := s.out, free := s.free, memEpoch := s.memEpoch + 1
    pw := { z.pw with rails := s.pw.rails, smbAddr := s.pw.smbAddr, smbReady := s.pw.smbReady
                      now := s.pw.now, capLow := s.pw.capLow, bootsel := s.pw.bootsel, pwrceil := s.pw.pwrceil }
    ra := { z.ra with otherLow := s.ra.otherLow }
    sb := { z.sb with boardCeil := ceilOf s.pw.pwrceil }
    sd := { z.sd with flash := s.sd.flash, jtagIr := s.sd.jtagIr, boundary := s.sd.boundary } }

/-- The state that the rise of PERST_N leaves: the straps sampled, the boot ROM at
work under BOOTSEL 0b00 and 0b10 (04 R103, R584; 15 R448; 02 R61). -/
def State.afterPerst (s : State) (bootsel pwrceil : BitVec 2) (refclk : Bool) (store : Option Flash) : State :=
  let t := State.resetAll { s with pw := { s.pw with bootsel := bootsel, pwrceil := pwrceil } }
  let t := { t with
    cc := { t.cc with bootHold := bootsel == 0 || bootsel == 2 }
    sd := { t.sd with flash := match store with | some f => some f | none => s.sd.flash } }
  if refclk then t else t.loseRef

/-- PERST_N_RISE, once every rail is in range (19 Table 19.3). -/
def execPerstNRise (bootsel pwrceil : BitVec 2) (refclk : Bool) (store : Option Flash) (s : State) :
    Host.Outcome State Fault Refusal :=
  need (Instr.perstNRise bootsel pwrceil refclk store).WellFormed s
    (onlyIf (allRails.all fun r => s.pw.rails.contains r) fun s => s.afterPerst bootsel pwrceil refclk store)

/-- PERST_N_ASSERT: the device is reset and stays so; a flash command is cut short
(19 R546, Table 19.1). -/
def execPerstNAssert (s : State) : Host.Outcome State Fault Refusal :=
  need Instr.perstNAssert.WellFormed s fun s =>
    let s := s.resetAll
    { s with pw := { s.pw with perst := false } }

/-- RAIL_IN_RANGE; VIO18 samples SMBADDR and drives RIGHT_AWAY low (19 Tables 19.1, 19.3). -/
def execRailInRange (rail : Rail) (smbaddr : BitVec 2) (s : State) : Host.Outcome State Fault Refusal :=
  need (Instr.railInRange rail smbaddr).WellFormed s fun s =>
    if s.pw.rails.contains rail then s
    else
      let s := { s with pw := { s.pw with rails := rail :: s.pw.rails } }
      if rail = .vio18 then State.raDrive { s with pw := { s.pw with smbAddr := smbaddr } } else s

/-- Contents of yards, caches and HBM changed (19 R547): none of them has a known value. -/
def State.forgetContents (s : State) : State :=
  { s with
    mem := {}, memEpoch := s.memEpoch + 1
    co := { s.co with lines := s.co.lines.map fun p => (p.1, { p.2 with data := List.replicate 64 none }) }
    cores := s.cores.map fun p =>
      (p.1, { p.2 with l1 := p.2.l1.map fun w => (w.1, { w.2 with data := List.replicate 64 none }) }) }

/-- What the loss of a rail while PERST_N is high may do (19 R547); which of it
happens is free. -/
def State.railLoss (s : State) : State :=
  let f := s.fresh
  let s := f.2
  let s := if Config.railStops f.1 then s.mapCores (fun _ => true) fun _ k => { k with stopped := true } else s
  let s := if Config.railChangesContents f.1 then s.forgetContents else s
  if Config.railCutsStore f.1 then
    { s with sd := { s.sd with cmd := none, flash := s.sd.flash.map fun c => { c with erase := none } } }
  else s

/-- RAIL_OUT_OF_RANGE. -/
def execRailOutOfRange (rail : Rail) (s : State) : Host.Outcome State Fault Refusal :=
  need (Instr.railOutOfRange rail).WellFormed s fun s =>
    if s.pw.rails.contains rail then
      let s := { s with pw := { s.pw with
        rails := s.pw.rails.filter (· != rail)
        smbReady := if rail == Rail.vio18 || rail == Rail.vinFab then false else s.pw.smbReady } }
      if s.pw.perst then s.railLoss else s
    else s

/-- TIMEBASE_TICK: `n` nanoseconds pass (02 R59; log 3). -/
def execTimebaseTick (n : Nat) (s : State) : Host.Outcome State Fault Refusal :=
  need (Instr.timebaseTick n).WellFormed s fun s =>
    { s with
      pw := { s.pw with now := s.pw.now + n }
      tb := if s.pw.perst then { s.tb with now := s.tb.now + BitVec.ofNat 64 n } else s.tb }

/-- REF_LOST: a running TB_REFCLK stops; a clock that stops again has returned before, be
it for less than the multiplier needs to lock (02 R61; log 3). -/
def execRefLost (s : State) : Host.Outcome State Fault Refusal :=
  need Instr.refLost.WellFormed s fun s => whenUp s State.loseRef

/-- REFCLK_LOCK: the multiplier locks to TB_REFCLK (02 Table 2.6). -/
def execRefclkLock (s : State) : Host.Outcome State Fault Refusal :=
  need Instr.refclkLock.WellFormed s fun s => whenUp s fun s => { s with tb := { s.tb with locked := true } }

/-- A write of 1 to REF_LOST, once the clock has returned (02 R61). -/
def State.clearRefLost (s : State) : State :=
  if s.tb.locked then { s with tb := { s.tb with refLost := false } } else s

/-- REF_LOST_CLEAR. -/
def execRefLostClear (s : State) : Host.Outcome State Fault Refusal :=
  need Instr.refLostClear.WellFormed s fun s => whenUp s State.clearRefLost

/-- HBM_READY: every stack has completed training (04 R109). -/
def execHbmReady (s : State) : Host.Outcome State Fault Refusal :=
  need Instr.hbmReady.WellFormed s fun s => whenUp s fun s =>
    if s.pw.hbm = .training then { s with pw := { s.pw with hbm := .ready } } else s

/-- HBM_TRAIN_TIMEOUT: HBM is failed until the next PERST_N; a load whose header has
been read ends (04 R111). -/
def execHbmTrainTimeout (failed : BitVec 8) (s : State) : Host.Outcome State Fault Refusal :=
  need (Instr.hbmTrainTimeout failed).WellFormed s fun s => whenUp s fun s =>
    if s.pw.hbm = .training ∧ failed ≠ 0 then
      let s := State.log { s with pw := { s.pw with hbm := .failed, hbmBad := failed } }
        0x0E 31 none srcErrorLog 0 failed.toNat
      match s.cc.load with
      | some l => if l.part ≠ .header ∧ !l.admitted then s.endLoad 8 rsHbmFailed l.unread else s
      | none => s
    else s

/-- BOOT_STORE_SCAN: SFDP, the descriptor, a suspended erase, the journal, the slot
(19 R558, R565; 04 R584, R585). -/
def State.bootScan (s : State) : State :=
  match s.sd.flash with
  | none => State.chooseSlot { s with sd := { s.sd with failed := true } }
  | some f =>
    if !f.sfdp then State.chooseSlot { s with sd := { s.sd with failed := true } }
    else
      let s := match readDescriptor f with
        | some d => { s with hi := { s.hi with subsys := d.subsys } }
        | none => s
      match f.erase with
      | some e =>
        { s with
          cc := { s.cc with boot := .waitErase }
          sd := { s.sd with resumed := true, flash := some { f with erase := some { e with suspended := false } } } }
      | none => s.chooseSlot

def execBootStoreScan (s : State) : Host.Outcome State Fault Refusal :=
  need Instr.bootStoreScan.WellFormed s fun s => whenUp s fun s =>
    if s.cc.boot = .idle then s.bootScan else s

/-- RESUMED_ERASE_TIMEOUT: the resumed erase did not complete (19 R565). -/
def execResumedEraseTimeout (s : State) : Host.Outcome State Fault Refusal :=
  need Instr.resumedEraseTimeout.WellFormed s fun s => whenUp s fun s =>
    if s.cc.boot = .waitErase then State.chooseSlot { s with sd := { s.sd with failed := true } } else s

/-- RA_RELEASE: the device in STATE 5 releases the line, once synchronised when it
has a parent (04 R109, 17 R524). -/
def execRaRelease (s : State) : Host.Outcome State Fault Refusal :=
  need Instr.raRelease.WellFormed s fun s => whenUp s fun s =>
    if s.cc.state = 5 ∧ s.ra.driving ∧ (!s.ml.parentEn || s.tb.synced) then s.raReleaseLine else s

/-- RIGHT_AWAY_RISE: no other device drives the line any longer; a low below 50 ns is
filtered (04 R113). -/
def execRightAwayRise (s : State) : Host.Outcome State Fault Refusal :=
  need Instr.rightAwayRise.WellFormed s fun s =>
    if s.ra.otherLow then
      let short := match s.ra.lowSince with | some l => decide (s.pw.now < l + 50) | none => false
      { s with ra := { s.ra with
          otherLow := false, lowSince := none
          highSince := if s.ra.driving then none
            else if short && s.ra.highSince.isSome then s.ra.highSince else some s.pw.now } }
    else s

/-- RIGHT_AWAY_FALL: another device drives the line low. -/
def execRightAwayFall (s : State) : Host.Outcome State Fault Refusal :=
  need Instr.rightAwayFall.WellFormed s fun s =>
    if s.ra.otherLow then s
    else { s with ra := { s.ra with
        otherLow := true, lowCounted := false, lowTb := s.tb.now
        lowSince := if s.ra.driving then none else some s.pw.now } }

/-- RA_QUALIFIED: the load goes on to its START part (04 R113, Table 4.2). -/
def execRaQualified (s : State) : Host.Outcome State Fault Refusal :=
  need Instr.raQualified.WellFormed s fun s => whenUp s fun s =>
    if s.cc.state = 5 ∧ s.qualified then
      State.modLoad { s with ra := { s.ra with deadline := none } } fun l =>
        if l.part = .checked then { l with part := .starts } else l
    else s

/-- RIGHT_AWAY_TIMEOUT (04 R114, R115). -/
def execRightAwayTimeout (s : State) : Host.Outcome State Fault Refusal :=
  need Instr.rightAwayTimeout.WellFormed s fun s => whenUp s fun s =>
    if s.cc.state = 5 ∧ s.raTimedOut then
      match s.cc.load with
      | some l => s.endLoad 8 rsRightAway (l.pos - 1)
      | none => s
    else s

/-- RA_LOW_EVENT: a low of 10 µs that the device does not drive (04 R117). -/
def execRaLowEvent (s : State) : Host.Outcome State Fault Refusal :=
  need Instr.raLowEvent.WellFormed s fun s => whenUp s fun s =>
    match s.ra.lowSince with
    | some t =>
      if s.ra.watching ∧ !s.ra.driving ∧ s.ra.otherLow ∧ !s.ra.lowCounted ∧ t + 10000 ≤ s.pw.now then
        State.hostEvent (State.regionError { s with ra := { s.ra with
          lowEvents := satInc s.ra.lowEvents, last := s.ra.lowTb, lowCounted := true } }) 2
      else s
    | none => s

/-- PCIE_LINK_UP (16 R480, R481). -/
def execPcieLinkUp (speed : BitVec 4) (width : BitVec 5) (flit : Bool) (s : State) :
    Host.Outcome State Fault Refusal :=
  need (Instr.pcieLinkUp speed width flit).WellFormed s fun s => whenUp s fun s =>
    { s with hi := { s.hi with speed := speed, width := width, flit := flit, ready := true } }

end Sys2Proof.Machine
end

