-- ==== Sys2Proof/Machine/SignalBox.lean ====
section
/-!
DEFINITION. The signal box: requests, grants, setpoints and brakes (15
R447-R468), and writes to its registers (R448, R463, R479).
-/
namespace Sys2Proof.Machine

/-! ## The beat model (02 Table 2.1, 15 R455) -/

/-- Beat time in 0.01 ns at row `i` (0.60 V + 0.05 i) and column `j`. -/
def beatEntry (i j : Nat) : Nat :=
  match nth [[62, 64, 68, 72], [51, 53, 56, 59], [44, 46, 48, 51], [39, 40, 42, 44],
             [35, 36, 38, 40], [32, 33, 35, 36], [30, 31, 32, 34]] i with
  | some row => (nth row j).getD 0
  | none => 0

/-- Column below a temperature in 1/16 °C (40, 60, 85 or 105 °C), with the place
between it and the next in 1/1600. -/
def tempPlace (t : Int) : Nat × Nat :=
  if t ≤ 640 then (0, 0)
  else if t < 960 then (0, (t - 640).toNat * 5)
  else if t < 1360 then (1, (t - 960).toNat * 4)
  else if t < 1680 then (2, (t - 1360).toNat * 5)
  else (2, 1600)

/-- t(V, T) in units of 0.01 ns ÷ 80,000, for V in mV from 600 to 900. -/
def beatAt (mv : Nat) (t : Int) : Nat :=
  let v := mv - 600
  let i := min (v / 50) 5
  let a := v - 50 * i
  let c := tempPlace t
  let row : Nat → Nat := fun i => beatEntry i c.1 * (1600 - c.2) + beatEntry i (c.1 + 1) * c.2
  row i * (50 - a) + row (i + 1) * a

/-- Brake level `n` in the unit of `beatAt` (02 R54). -/
def brakeTime (n : Nat) : Nat := n * 400000

def ceilDiv (a b : Nat) : Nat := if b = 0 then 0 else (a + b - 1) / b

/-- req[r] of 15 R456, from a current in 1/16 units. -/
def requestOf (cur vt va na margin : Nat) (t : Int) : Nat :=
  min 3000 (ceilDiv (cur * vt * (beatAt va t + brakeTime na)) (16 * va * beatAt vt t) + margin)

/-- m[r] of 15 R456. -/
def minDraw (req vt : Nat) (t : Int) : Nat :=
  ceilDiv (req * 600 * beatAt vt t) (vt * (beatAt 600 t + brakeTime 15))

/-- Whether the estimate at voltage `v` and brake `n` fits a grant (15 R460). -/
def fits (req g vt v n : Nat) (t : Int) : Bool :=
  decide (req * v * beatAt vt t ≤ g * vt * (beatAt v t + brakeTime n))

/-- The largest of the voltages 600, 605, ... up to `600 + 5 k` that fits. -/
def bestVolt (req g vt : Nat) (t : Int) : Nat → Option Nat
  | 0 => if fits req g vt 600 0 t then some 600 else none
  | k + 1 => if fits req g vt (605 + 5 * k) 0 t then some (605 + 5 * k) else bestVolt req g vt t k

/-- The least brake from `15 - k` to 15 that fits at voltage `v`; 15 where none does. -/
def leastBrake (req g vt v : Nat) (t : Int) : Nat → Nat
  | 0 => 15
  | k + 1 => if fits req g vt v (14 - k) t then 14 - k else leastBrake req g vt v t k

/-- Setpoint and epoch brake of a region (15 R460). -/
def settings (req g vt : Nat) (t : Int) : Nat × Nat :=
  if req ≤ g then (vt, 0)
  else match bestVolt req g vt t ((vt - 600) / 5) with
    | some v => (v, 0)
    | none => (600, leastBrake req g vt 600 t 14)

/-! ## The epoch algorithm (15 R457, R458) -/

/-- One running region in the epoch algorithm; `need` is what its shares may still add. -/
structure Share where
  r : Nat
  cls : Nat
  weight : Nat
  floor : Nat
  req : Nat
  m : Nat
  base : Nat
  hold : Nat
  grant : Nat := 0
  need : Nat := 0
  short : Bool := false
  deriving DecidableEq, Repr

/-- `n` units are added to a grant. -/
def Share.give (x : Share) (n : Nat) : Share := { x with grant := x.grant + n, need := x.need - n }

/-- Every region of a class gets its share of one pass of the waterfill. -/
def fillPass (cls : Nat) (weighted : Bool) (rem w : Nat) (l : List Share) : List Share :=
  l.map fun x =>
    if x.cls = cls then x.give (min x.need (rem * (if weighted then x.weight else 1) / w)) else x

/-- One unit each to the open regions of a class, in order, while any is left. -/
def fillOnes (cls : Nat) : Nat → List Share → List Share
  | _, [] => []
  | rem, x :: t =>
    if x.cls = cls ∧ 0 < x.need ∧ 0 < rem then x.give 1 :: fillOnes cls (rem - 1) t
    else x :: fillOnes cls rem t

def granted (l : List Share) : Nat := sumBy Share.grant l

/-- waterfill(set, weight, rem), with at most `n` passes. -/
def waterfill (cls : Nat) (weighted : Bool) : Nat → Nat → List Share → Nat × List Share
  | 0, rem, l => (rem, l)
  | n + 1, rem, l =>
    let open_ := l.filter fun x => decide (x.cls = cls) && decide (0 < x.need)
    if open_.isEmpty ∨ rem = 0 then (rem, l)
    else
      let w := sumBy (fun x => if weighted then x.weight else 1) open_
      let l' := fillPass cls weighted rem w l
      let given := granted l' - granted l
      if given = 0 then
        let l'' := fillOnes cls rem l
        waterfill cls weighted n (rem - (granted l'' - granted l)) l''
      else waterfill cls weighted n (rem - given) l'

/-- Floor parts of the regions that `p` selects cut to what remains for them. -/
def cutFloors (p : Share → Bool) (rem : Int) (l : List Share) : List Share :=
  let sel := l.filter p
  let f := sumBy (fun x => x.base - x.m) sel
  let others := sumBy (fun x => if p x then x.m else x.base) l
  let a := min f (rem - others).toNat
  if f = 0 then l
  else l.map fun x =>
    if p x then
      let b := x.m + (x.base - x.m) * a / f
      { x with base := b, short := x.short || decide (b < x.base) }
    else x

def baseSum (l : List Share) : Nat := sumBy (fun x => x.base + x.hold) l

/-- The region parked first: freight, then stopping, then express, the highest
number first (15 R458). -/
def parkFirst (l : List Share) : Option Share :=
  l.foldl (fun best x => match best with
    | none => some x
    | some y => if y.cls < x.cls ∨ (y.cls = x.cls ∧ y.r < x.r) then some x else some y) none

/-- Regions parked until the minimum draws fit. -/
def parkUntil : Nat → Int → List Share → List Share × List Nat
  | 0, _, l => (l, [])
  | n + 1, rem, l =>
    if (sumBy Share.m l : Int) ≤ rem then (l, [])
    else match parkFirst l with
      | none => (l, [])
      | some x =>
        let q := parkUntil n rem (l.filter fun y => y.r != x.r)
        (q.1, x.r :: q.2)

/-- The floor-short step: the shares, the regions parked, and whether it was applied. -/
def floorShort (rem : Int) (l : List Share) : List Share × List Nat × Bool :=
  if (baseSum l : Int) ≤ rem then (l, [], false)
  else
    let l := l.map fun x => { x with hold := 0 }
    let l := if (baseSum l : Int) ≤ rem then l else cutFloors (fun x => x.cls != 0) rem l
    let l := if (baseSum l : Int) ≤ rem then l else cutFloors (fun x => x.cls == 0) rem l
    let q := parkUntil l.length rem l
    (q.1, q.2, true)

/-- Grants of the running regions, the regions parked, and whether floors were short. What
`rem` leaves is negative where the charges alone exceed the budget. The needs are those of
the bases before the floor-short step, as 15 R457 orders them. -/
def grants (rem : Int) (l : List Share) : List Share × List Nat × Bool :=
  let q := floorShort rem (l.map fun x => { x with need := x.req - x.base })
  let l := q.1.map fun x => { x with grant := x.base }
  let rem := (rem - baseSum q.1).toNat
  let a := waterfill 0 false (rem + 1) rem l
  let b := waterfill 1 true (a.1 + 1) a.1 a.2
  let c := waterfill 2 false (b.1 + 1) b.1 b.2
  (c.2, q.2.1, q.2.2)

/-! ## Brakes -/

/-- The brake level that a region applies (15 R462). -/
def Region.level (g : Region) : Nat := max g.epochBrake.toNat (max g.capBrake.toNat g.hostBrake.toNat)

/-- The applied setpoint and brake noted with their instant, the newest first. -/
def Region.noteApplied (now : W64) (g : Region) : Region :=
  let b := BitVec.ofNat 4 g.level
  match g.applied with
  | (_, v, n) :: _ =>
    if v = g.vset ∧ n = b then { g with brake := b }
    else { g with brake := b, applied := (now, g.vset, b) :: g.applied }
  | [] => { g with brake := b, applied := [(now, g.vset, b)] }

/-- A change of some brake source of region `r` takes effect. -/
def State.brakeChange (s : State) (r : Nat) (f : Region → Region) : State :=
  s.modRegion r fun g => (f g).noteApplied s.tb.now

/-- Setpoint and brake applied at an instant. -/
def appliedAt (p : W64) : List (W64 × BitVec 10 × BitVec 4) → Nat × Nat
  | [] => (750, 0)
  | (t, v, n) :: rest => if t ≤ p then (v.toNat, n.toNat) else appliedAt p rest

/-- What instants from `p` on can still ask for: every later change, and the last one before. -/
def appliedFrom (p : W64) : List (W64 × BitVec 10 × BitVec 4) → List (W64 × BitVec 10 × BitVec 4)
  | [] => []
  | x :: rest => if x.1 ≤ p then [x] else x :: appliedFrom p rest

/-- The least and the greatest VCORE that the slew of 15 R461 allows now: at least 20 mV per
µs towards the setpoint since it was last changed. -/
def Region.vcoreRange (now : W64) (g : Region) : Nat × Nat :=
  let slewed := 20 * (now - g.vSince).toNat / 1000
  let v := g.vset.toNat
  (min v (g.vLow.toNat + slewed), max v (g.vHigh.toNat - slewed))

/-- The present VCORE of region `r`, free in its range (log 42). -/
def State.vcore (s : State) (r : Nat) : Nat × State :=
  let f := s.fresh
  let w := (s.region r).vcoreRange s.tb.now
  let lo := min w.1 w.2
  (lo + Config.vcore f.1 % (max w.1 w.2 - lo + 1), f.2)

/-- The PWR_CAP_N brake of every running freight region (15 R464). -/
def State.capBrakes (s : State) : State :=
  forN numRegions (fun r s =>
    let g := s.region r
    let b : BitVec 4 := if s.sb.capActive ∧ g.st.isRunning ∧ g.cls = 2 then s.sb.force.capBrake else 0
    if b = g.capBrake then s else s.brakeChange r fun g => { g with capBrake := b }) s

/-! ## Registers -/

/-- CEIL_EFF (15 R448) from a host ceiling. -/
def State.ceilEff (s : State) (host : BitVec 12) : Nat := min s.sb.boardCeil.toNat host.toNat

/-- The floor budget of admission (15 R452). -/
def State.floorBudget (s : State) : Nat := min (s.ceilEff s.sb.reg.hostCeil) 2888 - s.sb.reg.jres.toNat

/-- The sum of the admitted floors (15 R452). -/
def State.floorSum (s : State) : Nat := sumBy (fun p => p.2.floor) s.loadedDecls

/-- A ceiling of at most 3,000 units (15 R448). -/
def clampCeil (v : Nat) : BitVec 12 := BitVec.ofNat 12 (min 3000 v)

/-- A write to SB_BOARD_CEIL: SMBus only, else ignored and counted (15 R448, R479). -/
def State.boardCeilWrite (s : State) (src : Source) (v : Nat) : State :=
  if src = srcSmbus then { s with sb := { s.sb with boardCeil := clampCeil v, boardWriter := src } }
  else { s with sb := { s.sb with ignored := satInc s.sb.ignored } }

/-- A write to SB_HOST_CEIL, SB_CFG or SB_CFG2 waits for its epoch (15 R463). -/
def State.sbWrite (s : State) (f : SbForce) : State :=
  { s with sb := { s.sb with reg := f, writes := s.sb.writes ++ [(s.tb.now, f)] } }

/-- RGN_POWER.VTARGET, held to 600-900 mV (15 R463). -/
def State.vtargetWrite (s : State) (r v : Nat) : State :=
  let t := BitVec.ofNat 10 (max 600 (min 900 v))
  s.modRegion r fun g => { g with vtarget := t, vtWrites := g.vtWrites ++ [(s.tb.now, t)] }

/-- The values that the epochs use at `te`: of writes at least 8 µs old, the last. -/
def inForce {α : Type} (te : Nat) : α → List (W64 × α) → α × List (W64 × α)
  | cur, [] => (cur, [])
  | cur, (t, v) :: rest => if t.toNat + 8000 ≤ te then inForce te v rest else (cur, (t, v) :: rest)

/-! ## The epoch -/

/-- R463 applied at the start of an epoch. -/
def State.takeWrites (s : State) (te : Nat) : State :=
  let f := inForce te s.sb.force s.sb.writes
  let s := { s with sb := { s.sb with force := f.1, writes := f.2 } }
  { s with regions := s.regions.map fun p =>
      let v := inForce te p.2.vtUse p.2.vtWrites
      (p.1, { p.2 with vtUse := v.1, vtWrites := v.2 }) }

/-- Region that owns grid cell `c`, by position (15 R474, R478). -/
def State.cellOwner (s : State) (c : Nat) : Option Nat :=
  let x4 : Int := (2 * (c % 32) + 1 : Nat) * 6875
  let y4 : Int := (2 * (c / 32) + 1 : Nat) * 5625
  firstIf (fun r =>
    let pl := nget {} s.tf.place (r / 4)
    let x := x4 - 4 * pl.x0.toNat
    let y := y4 - 4 * pl.y0.toNat
    let uv : Int × Int := match pl.rot.toNat with
      | 0 => (x, y) | 1 => (y, -x) | 2 => (-x, -y) | _ => (-y, x)
    let u := if pl.mirror then -uv.1 else uv.1
    let qu : Int := 36000 * (r % 2 : Nat)
    let qv : Int := 36000 * (r % 4 / 2 : Nat)
    decide (qu ≤ u) && decide (u < qu + 36000) && decide (qv ≤ uv.2) && decide (uv.2 < qv + 36000))
    (List.range numRegions)

/-- Whether a cell that region `r` owns is at or above its limit less `below` °C. -/
def State.hotCell (s : State) (cells : List (Nat × Int)) (r below : Nat) : Bool :=
  cells.any fun p =>
    decide (16 * ((nget {} s.tf.cells p.1).limit.toNat : Int) - 16 * below ≤ p.2) && s.cellOwner p.1 == some r

def Snap.at (l : List Nat) (r : Nat) : Nat := (nth l r).getD 0
def Snap.temp (k : Snap) (r : Nat) : Int := (nth k.hot r).getD 0

/-- The shares of the running regions before any grant (15 R456, R457). -/
def State.shares (s : State) (k : Snap) : List Share :=
  (List.range numRegions).filterMap fun r =>
    let g := s.region r
    if g.st.isRunning then
      let vt := g.vtUse.toNat
      let t := k.temp r
      let req := requestOf (Snap.at k.cur r) vt (Snap.at k.va r) (Snap.at k.na r) s.sb.force.margin.toNat t
      let m := minDraw req vt t
      some { r := r, cls := g.cls.toNat, weight := g.weight, floor := g.floor, req := req, m := m
             base := max m (min req g.floor)
             hold := if g.cls = 0 then g.floor - min req g.floor else 0 }
    else none

/-- Charge of a region that is not running (15 R456). -/
def State.idleCharge (s : State) (k : Snap) : Nat :=
  sumBy (fun r => if (s.region r).st.isRunning then 0 else ceilDiv (Snap.at k.cur r) 16) (List.range numRegions)

/-- The mean measured power of the last 1,250 epochs, in mV × A ÷ 32, times 1,250. -/
def State.powerSum (s : State) : Nat := sumBy id s.sb.powers

/-- One running region takes its grant, setpoint and brake (15 R459-R461, R465, R467). While
VCORE is above the new setpoint, the brake is the least that fits at VCORE. -/
def State.applyShare (s : State) (k : Snap) (e : Nat) (x : Share) : State :=
  let p := s.vcore x.r
  let s := p.2
  let g := s.region x.r
  let t := k.temp x.r
  let vt := g.vtUse.toNat
  let capped := s.hotCell k.cells x.r 0 || (g.capped && s.hotCell k.cells x.r 2)
  let grant := if capped then min x.grant (max x.m (g.grant.toNat - s.sb.force.hotStep.toNat)) else x.grant
  let set := settings x.req grant vt t
  let range := g.vcoreRange s.tb.now
  let brake := if set.1 < p.1 then leastBrake x.req grant vt p.1 t 15 else set.2
  let why := if capped then 3 else if x.short then 2 else if x.grant < x.req then 1 else 0
  s.brakeChange x.r fun g =>
    { g with
      stEpoch := BitVec.ofNat 12 e, grant := BitVec.ofNat 12 grant, request := BitVec.ofNat 12 x.req
      vset := BitVec.ofNat 10 set.1, epochBrake := BitVec.ofNat 4 brake, why := BitVec.ofNat 4 why
      capped := capped, floorShort := x.short, hotAt := t
      vSince := s.tb.now, vLow := BitVec.ofNat 10 range.1, vHigh := BitVec.ofNat 10 range.2 }

/-- A region that is not running reports its charge (15 R467). -/
def State.applyIdle (s : State) (k : Snap) (e r : Nat) : State :=
  let c := narrow 12 (ceilDiv (Snap.at k.cur r) 16)
  s.modRegion r fun g =>
    { g with stEpoch := BitVec.ofNat 12 e, grant := c, request := c, capped := false, floorShort := false }

/-- The signal box parks a region, which is charged nothing in that epoch (15 R458). -/
def State.budgetPark (s : State) (e r : Nat) : State :=
  State.modRegion (s.ctrlPark r srcSignalBox) r fun g =>
    { g with parkedBudget := true, stEpoch := BitVec.ofNat 12 e, grant := 0, request := 0 }

/-- Epoch `e` is granted from its picture (15 R449-R467). -/
def State.grantEpoch (s : State) (e : Nat) (k : Snap) : State :=
  let s := s.takeWrites (8000 * e)
  let burst := decide (s.powerSum < 2600 * 32000 * 1250)
  let plim := if burst then 3000 else 2600
  let ceil := s.ceilEff s.sb.force.hostCeil
  let b := if k.vinSum = 0 then ceil else min ceil (plim * 2000 * 64 / k.vinSum)
  let j := max s.sb.force.jres.toNat (ceilDiv k.junction 16)
  let q := grants ((b : Int) - j - s.idleCharge k) (s.shares k)
  let idle := (List.range numRegions).filter fun r => !(s.region r).st.isRunning
  let s := forEach q.1 (fun x s => s.applyShare k e x) s
  let s := forEach idle (fun r s => s.applyIdle k e r) s
  let s := forEach q.2.1 (fun r s => s.budgetPark e r) s
  let s := { s with sb := { s.sb with
    floorShort := q.2.2, burst := burst, budget := BitVec.ofNat 12 b, epoch := BitVec.ofNat 64 e
    junction := narrow 12 j, vin := BitVec.ofNat 16 (k.vinSum / 64)
    meanW := narrow 16 (s.powerSum / (32000 * 1250))
    powers := (k.power :: s.sb.powers).take 1250 } }
  let s := s.capBrakes
  if q.2.2 then State.hostEvent (s.alert 2) 4 else s

/-- EPOCH: the next epoch whose picture has been taken begins (15 R449, R454). -/
def execEpoch (s : State) : Host.Outcome State Fault Refusal :=
  need Instr.epoch.WellFormed s fun s => whenUp s fun s =>
    match s.tf.snaps with
    | [] => s
    | k :: rest =>
      let e := k.p.toNat / 8000 + 3
      if 8000 * e ≤ s.tb.now.toNat then
        State.grantEpoch { s with tf := { s.tf with snaps := rest } } e k
      else s

/-- BRAKE_REEVALUATE: while its VCORE falls to its setpoint, the region's epoch brake is the
least that fits at its present VCORE (15 R461), for the temperature of its last epoch. -/
def execBrakeReevaluate (r : Nat) (s : State) : Host.Outcome State Fault Refusal :=
  need (Instr.brakeReevaluate r).WellFormed s fun s => whenUp s fun s =>
    let g := s.region r
    if g.st.isRunning ∧ g.vset < g.vHigh then
      let p := s.vcore r
      let v := max g.vset.toNat p.1
      let b := leastBrake g.request.toNat g.grant.toNat g.vtUse.toNat v g.hotAt 15
      State.brakeChange p.2 r fun g => { g with epochBrake := BitVec.ofNat 4 b }
    else s

/-- PWR_CAP_N_ASSERT: a low of `lowNs` nanoseconds (15 R464). -/
def execPwrCapNAssert (lowNs : Nat) (s : State) : Host.Outcome State Fault Refusal :=
  need (Instr.pwrCapNAssert lowNs).WellFormed s fun s =>
    let s := { s with pw := { s.pw with capLow := true } }
    whenUp s fun s =>
      let f := s.fresh
      let acts := decide (100 ≤ lowNs) || (decide (50 ≤ lowNs) && Config.capActs f.1)
      if acts then State.alert (State.capBrakes { f.2 with sb := { f.2.sb with capActive := true } }) 1 else f.2

/-- PWR_CAP_N_RELEASE: the line rises (15 R464). -/
def execPwrCapNRelease (s : State) : Host.Outcome State Fault Refusal :=
  need Instr.pwrCapNRelease.WellFormed s fun s =>
    let s := { s with pw := { s.pw with capLow := false } }
    whenUp s fun s => State.capBrakes { s with sb := { s.sb with capActive := false } }

/-- SB_BOARD_CEIL_WRITE (15 R448). -/
def execSbBoardCeilWrite (src : Source) (v : W64) (s : State) : Host.Outcome State Fault Refusal :=
  need (Instr.sbBoardCeilWrite src v).WellFormed s fun s => whenUp s fun s => s.boardCeilWrite src (bits v 11 0)

end Sys2Proof.Machine
end

