-- ==== Sys2Proof/Machine/Telemetry.lean ====
section
/-!
DEFINITION. The telemetry fusion unit (15 R469-R478) and THERMTRIP (R466).
Values are kept in the resolution of 15 Table 15.2.
-/
namespace Sys2Proof.Machine

/-- Key of a channel in `Telemetry.samples`. -/
def chanKey : Channel → Nat
  | .regionCurrent r => r
  | .junctionCurrent j => 64 + j
  | .regionVoltage r => 128 + r
  | .regionTemp k => 256 + k
  | .hbmTemp h => 1024 + h

/-- A sample placed by its stamp. -/
def putSample (t : W64) (v : Int) : List (W64 × Int) → List (W64 × Int)
  | [] => [(t, v)]
  | (u, w) :: rest => if u ≤ t then (u, w) :: putSample t v rest else (t, v) :: (u, w) :: rest

/-- A value between two steps of its register: the lower step, or the upper one where
`Config.fuseUp` says so (15 states no rounding; log 30). -/
def fuse (num : Int) (den : Nat) : Int :=
  if num % (den : Int) = 0 then num / (den : Int)
  else num / (den : Int) + (if Config.fuseUp num den then 1 else 0)

/-- The line through two samples, at `p`. -/
def lineAt (p : W64) (a b : W64 × Int) : Int :=
  let dt := b.1.toNat - a.1.toNat
  if dt = 0 then b.2
  else fuse (a.2 * (dt : Int) + (b.2 - a.2) * ((p.toNat : Int) - a.1.toNat)) dt

/-- A channel's value at `p`, and whether it is stale (15 R470, R471); none where it
has no sample. -/
def channelAt (p : W64) (l : List (W64 × Int)) : Option (Int × Bool) :=
  match l.find? (fun x => x.1 == p), l.find? (fun x => decide (p < x.1)), (l.filter fun x => decide (x.1 < p)).reverse with
  | some x, _, _ => some (x.2, false)
  | none, some b, a :: _ => some (lineAt p a b, false)
  | none, some b, [] => some (b.2, false)
  | none, none, b :: a :: _ => some (lineAt p a b, true)
  | none, none, [b] => some (b.2, true)
  | none, none, [] => none

def State.chan (s : State) (key : Nat) : List (W64 × Int) := nget [] s.tf.samples key

/-- THERMTRIP (15 R466). -/
def State.thermtrip (s : State) : State :=
  let first := !s.sb.thermtrip
  let s := { s with pw := { s.pw with tripOut := true }, sb := { s.sb with thermtrip := true } }
  let s := forN numRegions (fun r s =>
    State.modRegion (s.ctrlPark r srcSignalBox) r fun g => { g with parkedTrip := true }) s
  if first then State.hostEvent (s.alert 0) 3 else s

/-- Whether a raw sample is at or above its trip (15 R466). -/
def State.trips (s : State) : Channel → Int → Bool
  | .regionTemp _, v => decide (16 * (s.sb.force.trip.toNat : Int) ≤ v)
  | .hbmTemp _, v => decide (105 ≤ v)
  | _, _ => false

/-- TELEMETRY_SAMPLE (15 R469, R466). -/
def execTelemetrySample (ch : Channel) (stamp : W64) (value : Int) (s : State) :
    Host.Outcome State Fault Refusal :=
  need (Instr.telemetrySample ch stamp value).WellFormed s fun s => whenUp s fun s =>
    let key := chanKey ch
    let s := { s with tf := { s.tf with samples := nset key (putSample stamp value (s.chan key)) s.tf.samples } }
    if s.trips ch value then s.thermtrip else s

/-- The last sample of a thermal channel, in 1/16 °C. -/
def State.lastTemp (s : State) (key : Nat) : Option Int :=
  (s.chan key).getLast?.map fun x => if key < 1024 then x.2 else 16 * x.2

/-- Whether every sensor reads below TRIP − 10 °C (15 R466). -/
def State.allCool (s : State) : Bool :=
  let lim : Int := 16 * ((s.sb.force.trip.toNat : Int) - 10)
  let cool : Nat → Bool := fun k => match s.lastTemp k with | some t => decide (t < lim) | none => true
  (List.range 512).all (fun k => cool (256 + k)) && (List.range 8).all (fun h => cool (1024 + h))

/-- The host clears THERMTRIP (15 R466). -/
def State.clearTrip (s : State) : State :=
  if s.allCool then { s with sb := { s.sb with thermtrip := false }, pw := { s.pw with tripOut := false } } else s

/-- THERMTRIP_CLEAR. -/
def execThermtripClear (s : State) : Host.Outcome State Fault Refusal :=
  need Instr.thermtripClear.WellFormed s fun s => whenUp s State.clearTrip

/-! ## The picture -/

def clampTemp (v : Int) : Int := max (-640) (min 2400 v)

/-- TF_CUR(k) at `p` (15 R470, R471). -/
def State.fuseCurrent (s : State) (p : W64) (k : Nat) : Fused :=
  let vin : Int := if k < 64 then (match channelAt p (s.chan (128 + k)) with | some v => v.1 | none => 0) else 0
  match channelAt p (s.chan k) with
  | some (v, stale) =>
    { value := narrow 16 v.toNat, vin := narrow 16 vin.toNat, stale := stale }
  | none =>
    { value := if k < 64 then BitVec.ofNat 16 (16 * (s.region k).grant.toNat) else 0
      vin := narrow 16 vin.toNat, missing := true }

/-- TF_SENSOR(k) at `p` (15 R472). -/
def State.fuseTemp (s : State) (p : W64) (k : Nat) : Fused :=
  match channelAt p (s.chan (256 + k)) with
  | some (v, stale) => { value := BitVec.ofInt 16 (clampTemp v), stale := stale }
  | none => { value := BitVec.ofNat 16 (16 * s.tf.missingTemp.toNat), missing := true }

/-- TF_HBM(h) at `p`. -/
def State.fuseHbm (s : State) (p : W64) (h : Nat) : BitVec 8 :=
  match channelAt p (s.chan (1024 + h)) with
  | some (v, _) => BitVec.ofInt 8 (max (-40) (min 150 v))
  | none => s.tf.missingTemp

/-- Where sensor `k` of region `r` lies in the package frame, in µm (15 R475, R476). -/
def State.sensorAt (s : State) (k : Nat) : Int × Int :=
  let r := k / 8
  let i := k % 8
  let pl := nget {} s.tf.place (r / 4)
  let u : Int := (9000 * (r % 2) + 1125 + 2250 * (i % 4) : Nat)
  let v : Int := (9000 * (r % 4 / 2) + 2250 + 4500 * (i / 4) : Nat)
  let u := if pl.mirror then -u else u
  let xy : Int × Int := match pl.rot.toNat with
    | 0 => (u, v) | 1 => (-v, u) | 2 => (-u, -v) | _ => (v, -u)
  (xy.1 + pl.x0.toNat, xy.2 + pl.y0.toNat)

def clampCell (i : Int) : Nat := (max 0 (min 31 i)).toNat

/-- The cells a sensor is splatted onto, with integer weights (15 R477). -/
def splat (x y : Int) : List (Nat × Nat) :=
  let nx := 4 * x - 6875
  let ny := 4 * y - 5625
  let i0 := nx / 13750
  let j0 := ny / 11250
  let ax := (nx % 13750).toNat
  let ay := (ny % 11250).toNat
  let cell : Int → Int → Nat := fun i j => 32 * clampCell j + clampCell i
  [(cell i0 j0, (13750 - ax) * (11250 - ay)), (cell (i0 + 1) j0, ax * (11250 - ay)),
   (cell i0 (j0 + 1), (13750 - ax) * ay), (cell (i0 + 1) (j0 + 1), ax * ay)]

/-- Weight and weighted temperature of each cell. -/
def State.cellSums (s : State) : NMap (Nat × Int) :=
  forN 512 (fun k m =>
    let xy := s.sensorAt k
    let t := sval 16 (nget {} s.tf.sensors k).value.toNat
    forEach (splat xy.1 xy.2) (fun p m =>
      if p.2 = 0 then m
      else
        let o := nget (0, 0) m p.1
        nset p.1 (o.1 + p.2, o.2 + (p.2 : Int) * t) m) m) []

/-- TF_CELL from the sensors (15 R477). -/
def State.fuseCells (s : State) : State :=
  let sums := s.cellSums
  let one : Nat → NMap Cell → NMap Cell := fun c m =>
    let old := nget {} m c
    match nfind sums c with
    | some p => nset c { old with temp := BitVec.ofInt 16 (fuse p.2 p.1), noData := false } m
    | none => if nhas m c then nset c { old with temp := 0, noData := true } m else m
  { s with tf := { s.tf with cells := forN 1024 one s.tf.cells } }

/-- Whether the wait for picture `p` is over (15 R470). -/
def State.waitOver (s : State) (p : W64) : Bool :=
  decide (p.toNat + min 20000 s.tf.waitLimit.toNat ≤ s.tb.now.toNat)
    || (List.range 68).all fun k => (s.chan k).any fun x => decide (p ≤ x.1)

/-- Samples a later picture can still use: those from `p` − 8,000 on, and the last two. -/
def keepSamples (p : W64) (l : List (W64 × Int)) : List (W64 × Int) :=
  let n := l.length
  (l.zip (List.range n)).filterMap fun x =>
    if p.toNat ≤ x.1.1.toNat + 8000 ∨ n ≤ x.2 + 2 then some x.1 else none

/-- I_r in 1/16 units (15 R456, R473). -/
def State.windowCurrent (s : State) (p : W64) (r : Nat) : Nat :=
  ((s.chan r).filter fun x => decide (p.toNat ≤ x.1.toNat + 8000) && decide (x.1 < p)).foldl
    (fun m x => max m x.2.toNat) (nget {} s.tf.curs r).value.toNat

/-- What the signal box takes from a picture (15 R450, R451, R454, R456). -/
def State.snapOf (s : State) (p : W64) : Snap :=
  let rs := List.range numRegions
  let ap := rs.map fun r => appliedAt p (s.region r).applied
  let cur : Nat → Nat := fun k => (nget {} s.tf.curs k).value.toNat
  let vinSum := sumBy (fun r => (nget {} s.tf.curs r).vin.toNat) rs
  { p := p
    cur := rs.map fun r => s.windowCurrent p r
    hot := rs.map fun r => (List.range 8).foldl
      (fun m k => max m (sval 16 (nget {} s.tf.sensors (8 * r + k)).value.toNat)) (-640)
    va := ap.map Prod.fst, na := ap.map Prod.snd
    junction := sumBy (fun j => cur (64 + j)) (List.range 4), vinSum := vinSum
    power := sumBy (fun r => cur r * (nget {} s.tf.curs r).vin.toNat) rs
      + sumBy (fun j => cur (64 + j)) (List.range 4) * vinSum / 64
    cells := s.tf.cells.filterMap fun c => if c.2.noData then none else some (c.1, sval 16 c.2.temp.toNat) }

/-- A current channel without a sample of the last 8 µs loses its samples once they are
too old (15 corner case of R471). -/
def State.dropOld (s : State) (p : W64) : State :=
  let old : List (W64 × Int) → Bool := fun l => match l.getLast? with
    | some x => decide (x.1.toNat + 8000 < p.toNat) && Config.tooOld p.toNat x.1.toNat
    | none => false
  { s with tf := { s.tf with samples := s.tf.samples.map fun q => (q.1, if q.1 < 68 && old q.2 then [] else q.2) } }

/-- Picture `p` is taken (15 R454, R470-R477). -/
def State.takePicture (s : State) (p : W64) : State :=
  let s := s.dropOld p
  let cs := (List.range 68).map fun k => (k, s.fuseCurrent p k)
  let ts := (List.range 512).map fun k => (k, s.fuseTemp p k)
  let hs := (List.range 8).map fun h => (h, s.fuseHbm p h)
  let s := { s with tf := { s.tf with curs := cs, sensors := ts, hbm := hs, picture := p } }
  let s := s.fuseCells
  { s with
    tf := { s.tf with
      snaps := s.tf.snaps ++ [s.snapOf p]
      samples := s.tf.samples.map fun q => (q.1, keepSamples p q.2)
      nextPicture := p.toNat / 8000 + 1 }
    regions := s.regions.map fun q => (q.1, { q.2 with applied := appliedFrom p q.2.applied }) }

/-- PICTURE: the next picture, once its wait has ended (15 R454, R470). -/
def execPicture (s : State) : Host.Outcome State Fault Refusal :=
  need Instr.picture.WellFormed s fun s => whenUp s fun s =>
    let p := BitVec.ofNat 64 (8000 * s.tf.nextPicture)
    if p ≤ s.tb.now ∧ s.waitOver p then s.takePicture p else s

end Sys2Proof.Machine
end

