-- ==== Sys2Proof/Machine/SysRead.lean ====
section
/-!
DEFINITION. What the system registers (01 R39, Table 1.3) read as. Offsets are from
0x0E00_0000_0000; one that no chapter defines reads 0.
-/
namespace Sys2Proof.Machine

/-- Number of the table entry at offset `o` from its first one, entries `step` bytes
apart, if `o` lies on one of the first `n`. -/
def entryNo (o first step n : Nat) : Option Nat :=
  if first ≤ o ∧ (o - first) % step = 0 ∧ (o - first) / step < n then some ((o - first) / step) else none

/-- Entry and offset within it, entries `step` bytes apart. -/
def entryAt (o first step n : Nat) : Option (Nat × Nat) :=
  if first ≤ o ∧ (o - first) / step < n then some ((o - first) / step, (o - first) % step) else none

/-! ## Identity, configuration controller, timebase -/

def State.readId (s : State) (o : Nat) : W64 :=
  match o with
  | 0x000 => 0x7020_1F9A
  | 0x008 => 0x0001_0000_0000_0301
  | 0x010 => Config.serial
  | 0x018 => 0xF_FFFF
  | 0x020 => pack [(16, b2n s.aliasEn), (0, s.pkg.toNat)]
  | _ => 0

def State.readCc (s : State) (o : Nat) : W64 :=
  let c := s.cc
  match o with
  | 0x000 => pack [(32, c.wordOffset.toNat), (8, c.reason.toNat), (0, c.state.toNat)]
  | 0x008 => pack [(32, c.frames.toNat), (0, c.lastFar.toNat)]
  | 0x010 => pack [(32, c.crcExpected.toNat), (0, c.crcComputed.toNat)]
  | 0x018 => pack [(32, c.rejected.toNat), (4, s.pw.bootsel.toNat), (2, c.source.toNat)]
  | 0x020 => c.produced.setWidth 64
  | 0x028 => c.consumed.setWidth 64
  | 0x030 => pack [(32, c.refShortfall.toNat), (8, c.refRegion.toNat), (0, c.refCode.toNat)]
  | 0x038 => pack [(32, s.ra.lowEvents.toNat), (1, b2n s.raLine), (0, b2n s.ra.driving)]
  | 0x040 => s.ra.last
  | 0x048 => c.rwpIgnored.setWidth 64
  | _ => 0

def State.readTb (s : State) (o : Nat) : W64 :=
  match o with
  | 0x000 => s.tb.now
  | 0x008 => pack [(2, b2n s.tb.synced), (1, b2n s.tb.refLost), (0, b2n s.tb.locked)]
  | _ => 0

/-! ## Signal box, telemetry, region control -/

def State.readSb (s : State) (o : Nat) : W64 :=
  let b := s.sb
  match o with
  | 0x000 => pack [(32, b.boardWriter.toNat), (0, b.boardCeil.toNat)]
  | 0x008 => pack [(32, b.hostWriter.toNat), (0, b.reg.hostCeil.toNat)]
  | 0x010 => pack [(32, b.cfgWriter.toNat), (24, b.reg.hotStep.toNat), (16, b.reg.trip.toNat),
      (12, b.reg.capBrake.toNat), (0, b.reg.jres.toNat)]
  | 0x018 => pack [(32, b.cfg2Writer.toNat), (0, b.reg.margin.toNat)]
  | 0x020 => pack [(32, b.ignored.toNat), (20, b2n b.thermtrip), (19, b2n b.capActive), (18, b2n b.floorShort),
      (17, b2n b.burst), (0, b.budget.toNat)]
  | 0x028 => b.epoch
  | 0x030 => pack [(16, s.floorBudget % 4096), (0, s.floorSum % 4096)]
  | 0x038 => pack [(32, b.junction.toNat), (16, b.vin.toNat), (0, b.meanW.toNat)]
  | _ => 0

def placeWord (p : Place) : W64 := pack [(42, b2n p.mirror), (40, p.rot.toNat), (20, p.y0.toNat), (0, p.x0.toNat)]

def State.cellWord (s : State) (c : Nat) : W64 :=
  let k := nget {} s.tf.cells c
  let o := s.cellOwner c
  pack [(38, b2n o.isSome), (32, o.getD 0), (24, k.limit.toNat), (16, b2n k.noData), (0, k.temp.toNat)]

def State.readTf (s : State) (o : Nat) : W64 :=
  let t := s.tf
  if o = 0 then pack [(16, t.missingTemp.toNat), (0, t.waitLimit.toNat)]
  else if o = 8 then t.picture
  else match entryNo o 0x100 8 20 with
  | some d => placeWord (nget {} t.place d)
  | none =>
    match entryNo o 0x400 8 1024 with
    | some c => s.cellWord c
    | none =>
      match entryNo o 0x2400 8 512 with
      | some k => let f := nget {} t.sensors k; pack [(17, b2n f.missing), (16, b2n f.stale), (0, f.value.toNat)]
      | none =>
        match entryNo o 0x3400 8 68 with
        | some k =>
          let f := nget {} t.curs k
          pack [(32, f.vin.toNat), (17, b2n f.missing), (16, b2n f.stale), (0, f.value.toNat)]
        | none =>
          match entryNo o 0x3800 8 8 with
          | some h => (nget 0 t.hbm h).setWidth 64
          | none =>
            match entryNo o 0x3900 8 16 with
            | some b => nget 0 t.board b
            | none => 0

/-- REASON of RGN_STATUS (15 R467): that of the last epoch while the region runs, a brake
that now rules it above, the reason of the stop while it does not. A region that the signal
box parks reports that from the park on (15 R458), also while it still stops. -/
def State.reasonOf (s : State) (r : Nat) : Nat :=
  let g := s.region r
  if g.st.isRunning then
    let cap := decide (g.capBrake.toNat = g.level) && decide (g.epochBrake < g.capBrake)
    let host := decide (g.hostBrake.toNat = g.level) && decide (g.epochBrake < g.hostBrake)
    if g.parkedBudget && g.parkHold then 6
    else if host then 5 else if cap then 4 else if g.why.toNat ≤ 3 then g.why.toNat else 0
  else if g.parkedTrip && g.parkHold then 7
  else if g.parkedBudget && g.parkHold then 6
  else 8

def State.readRgn (s : State) (o : Nat) : W64 :=
  match entryAt o 0 0x40 64 with
  | some (r, 0x00) => pack [(32, (s.region r).lastWriter.toNat)]
  | some (r, 0x08) =>
    let g := s.region r
    pack [(2, g.parkSrc.toNat), (1, b2n g.resetHold), (0, b2n g.parkHold)]
  | some (r, 0x10) =>
    let g := s.region r
    pack [(32, g.ignored.toNat), (8, b2n g.startHeld), (0, g.st.code)]
  | some (r, 0x18) =>
    let g := s.region r
    pack [(52, g.stEpoch.toNat), (51, b2n g.refused), (40, g.vset.toNat), (36, g.brake.toNat), (32, s.reasonOf r),
      (28, g.cls.toNat), (16, g.grant.toNat), (0, g.request.toNat)]
  | some (r, 0x20) =>
    let g := s.region r
    pack [(32, g.pwWriter.toNat), (16, g.hostBrake.toNat), (0, g.vtarget.toNat)]
  | some _ => 0
  | none =>
    match entryNo o 0x1_0000 0x10 16 with
    | some d =>
      let k := s.semDie d
      pack [(32, k.fullRefused.toNat), (16, k.peak.toNat), (0, s.roomUse d)]
    | none => 0

/-! ## Host interface -/

def State.readQueue (s : State) (q o : Nat) : W64 :=
  let k := s.queue q
  let n (i : Nat) : Nat := (nget 0 k.counts i).toNat
  match o with
  | 0x00 => pack [(63, b2n k.baseHost), (6, k.addr.toNat)]
  | 0x08 => pack [(16, k.log2.toNat), (0, b2n k.enable)]
  | 0x10 => pack [(32, k.tailWriter.toNat), (0, k.tail.toNat)]
  | 0x18 => k.head.setWidth 64
  | 0x20 => pack [(32, k.rejected.toNat), (16, k.errors.toNat), (0, k.last.toNat)]
  | 0x28 => pack [(48, n 4), (32, n 3), (16, n 2), (0, n 1)]
  | 0x30 => pack [(32, n 7), (16, n 6), (0, n 5)]
  | _ => 0

def State.readHi (s : State) (o : Nat) : W64 :=
  let h := s.hi
  match o with
  | 0x000 => pack [(12, b2n h.flit), (8, h.speed.toNat), (3, h.width.toNat), (1, b2n (decide (s.pw.hbm = .ready)))]
  | 0x008 => pack [(42, h.hwBase.toNat)]
  | 0x010 => pack [(63, b2n h.ctlEnable), (24, h.ctlTarget.toNat)]
  | 0x020 => pack [(32, h.dbIsolated.toNat)]
  | 0x028 => pack [(56, h.errKind.toNat), (0, h.errAddr.toNat)]
  | _ =>
    match entryNo o 0x100 8 64 with
    | some a => let p := nget (false, 0) h.ap a; pack [(63, b2n p.1), (30, p.2.toNat)]
    | none =>
      match entryNo o 0x400 8 7 with
      | some e => let p := nget (false, 0) h.event e; pack [(16, b2n p.1), (0, p.2.toNat)]
      | none =>
        match entryAt o 0x1000 0x40 64 with
        | some (q, x) => s.readQueue q x
        | none => 0

/-! ## Moriq -/

def PortSt.code : PortSt → Nat
  | .disabled => 0 | .training => 1 | .up => 2 | .failed => 3

def State.readMl (s : State) (o : Nat) : W64 :=
  let m := s.ml
  match o with
  | 0x000 => pack [(32, m.respTimeout.toNat), (28, b2n m.parentEn), (24, m.parent.toNat), (20, b2n m.master),
      (16, m.origin.toNat)]
  | 0x008 => pack [(48, m.switchovers.toNat), (32, m.dup.toNat), (16, m.gaps.toNat), (0, m.noRoute.toNat)]
  | 0x010 => m.tbOffset.setWidth 64
  | 0x020 => pack [(16, m.selDest.toNat), (0, m.selPort.toNat)]
  | 0x028 =>
    let p := m.selPort.toNat
    let d := m.selDest.toNat
    let e := s.routeEntry p d
    pack [(12, b2n (p < 12 && bit e 8 && s.routeSwitched p d)), (0, if p < 12 then bits e 11 0 else 0)]
  | _ =>
    match entryAt o 0x100 0x40 12 with
    | some (p, 0x00) => pack [(32, (s.port p).writer.toNat), (0, b2n (s.port p).enable)]
    | some (p, 0x08) =>
      let k := s.port p
      pack [(28, k.peerPort.toNat), (16, k.peerPkg.toNat), (0, k.st.code)]
    | some (p, 0x10) =>
      let k := s.port p
      pack [(48, k.replays.toNat), (32, k.crcErr.toNat), (16, k.uncorr.toNat), (0, k.corrected.toNat)]
    | _ => 0

/-! ## HBM controllers, attribute windows -/

/-- Requests queued at a home agent, and the entries of a slice's siding. -/
def State.agentQueue (s : State) (a : Nat) : Nat := (nget [] s.co.queue a).length

def State.readHb (s : State) (o : Nat) : W64 :=
  let c := s.co
  match entryNo o 0x9_0000 8 4 with
  | some j => pack [(23, (nget 0 s.dx.base j).toNat)]
  | none =>
    if o = 0x8_0000 then pack [(32, c.holdWriter.toNat), (0, c.hold.toNat)]
    else if o = 0x8_0008 then pack [(32, c.predWriter.toNat)]
    else match entryAt o 0x8_1000 0x10 64 with
    | some (n, 0) => pack [(32, (nget 0 c.farAtomics n).toNat), (0, (nget 0 c.probesSent n).toNat)]
    | some (n, 8) => pack [(16, (nget 0 c.queuePeak n).toNat), (0, s.agentQueue n % 1024)]
    | some _ => 0
    | none =>
      match entryAt o 0x8_2000 0x10 512 with
      | some (n, 0) => pack [(32, (nget 0 c.predFar n).toNat), (0, (nget 0 c.predNear n).toNat)]
      | some (n, 8) => (nget 0 c.holdProbes n).setWidth 64
      | _ => 0

/-- Window `n`, or AW_DEFAULT as window 64. -/
def State.window (s : State) (n : Nat) : Window := nget {} s.co.windows n

/-- Whether a loaded region declares the window (11 R358). -/
def State.pinned (s : State) (n : Nat) : Bool := n < 64 && s.loadedDecls.any fun p => bit p.2.windows n

def State.readAw (s : State) (o : Nat) : W64 :=
  match entryAt o 0 0x20 65 with
  | some (n, 0x00) =>
    let w := s.window n
    if n = 64 then w.attr.setWidth 64
    else pack [(63, b2n w.enable), (62, b2n (s.pinned n)), (32, w.limit.toNat), (0, w.base.toNat)]
  | some (n, 0x08) => if n = 64 then 0 else (s.window n).attr.setWidth 64
  | some (n, 0x10) => pack [(32, (s.window n).ignored.toNat), (0, (s.window n).lastWriter.toNat)]
  | some _ => 0
  | none =>
    match entryAt o 0x1_0000 0x10 512 with
    | some (n, 0) => pack [(32, (nget 0 s.co.merged n).toNat), (0, (nget 0 s.co.delayed n).toNat)]
    | some (n, 8) => pack [(8, (nget 0 s.co.peak n).toNat), (0, (s.siding n).length)]
    | _ => 0

/-! ## Error collection, sideband, Depot -/

/-- Doubleword `i` of a log entry (18 Table 18.3). -/
def LogEntry.word (e : LogEntry) : Nat → W64
  | 0 => e.time
  | 1 => pack [(32, e.source.toNat), (30, b2n e.region.isSome), (24, match e.region with | some r => r.toNat | none => 0),
      (16, e.die.toNat), (8, e.severity.toNat), (0, e.kind.toNat)]
  | 2 => e.addr.setWidth 64
  | _ => e.detail

def State.readEc (s : State) (o : Nat) : W64 :=
  let e := s.ec
  match o with
  | 0x000 => pack [(32, e.dropped.toNat), (0, b2n e.notify)]
  | 0x008 => e.head.setWidth 64
  | 0x010 => e.tail.setWidth 64
  | 0x018 => e.patrol.setWidth 64
  | _ =>
    match entryNo o 0x100 8 7 with
    | some i => (nget 0 e.corrected i).setWidth 64
    | none =>
      match entryAt o 0x1_0000 32 1024 with
      | some (n, x) => if x % 8 = 0 then (match nfind e.ring n with | some l => l.word (x / 8) | none => 0) else 0
      | none => 0

def State.readUart (s : State) (u o : Nat) : W64 :=
  let k := s.uart u
  match o with
  | 0x00 => (k.rx.headD 0).setWidth 64
  | 0x08 => pack [(32, k.rxDropped.toNat), (16, k.txDropped.toNat), (8, k.rx.length), (0, k.tx.length)]
  | 0x10 => pack [(16, b2n (u == 0 && s.sd.bootlog)), (0, k.div.toNat)]
  | _ => 0

def State.readSd (s : State) (o : Nat) : W64 :=
  let d := s.sd
  match o with
  | 0x000 => d.flAddr.setWidth 64
  | 0x008 => pack [(32, d.flWriter.toNat), (16, d.flLen.toNat), (8, b2n d.flSlot)]
  | 0x010 => pack [(48, d.ignored.toNat), (12, d.slotB.toNat), (8, d.slotA.toNat), (4, d.result.toNat),
      (2, b2n d.resumed), (1, b2n d.failed), (0, b2n s.flashBusy)]
  | 0x018 => pack [(16, s.cc.reason2.toNat), (8, s.cc.reason1.toNat), (4, s.cc.tried.toNat)]
  | 0x280 => pack [(16, d.gpioOe.toNat), (0, d.gpioVal.toNat)]
  | 0x288 => d.gpioIn.setWidth 64
  | 0x290 => d.muxIgnored.setWidth 64
  | 0x700 => pack [(16, d.alertEnable.toNat), (0, d.alertEvent.toNat)]
  | _ =>
    match entryNo o 0x100 8 32 with
    | some i => BitVec.ofNat 64 (ofBytes ((List.range 8).map fun j => nget 0 d.flBuf (8 * i + j)))
    | none =>
      match entryNo o 0x200 8 16 with
      | some p =>
        let g := s.gpio p
        pack [(32, g.writer.toNat), (8, b2n g.park.isSome), (0, match g.park with | some q => q.1.toNat | none => g.func.toNat)]
      | none =>
        match entryNo o 0x300 8 16 with
        | some p => (s.gpio p).edge
        | none =>
          match entryAt o 0x400 0x20 4 with
          | some (n, 0x00) => (s.tpo n).start
          | some (n, 0x08) => (s.tpo n).period.setWidth 64
          | some (n, 0x10) => (s.tpo n).width.setWidth 64
          | some _ => 0
          | none =>
            match entryAt o 0x500 0x40 2 with
            | some (u, x) => s.readUart u x
            | none =>
              match entryNo o 0x600 8 16 with
              | some b =>
                let k := nget {} d.pmb b
                pack [(16, b2n k.nack), (15, b2n k.en), (8, k.addr.toNat), (0, k.code.toNat)]
              | none => 0

/-- A Depot location (14 R446, Table 14.4). A slot's write-only ports read 0. -/
def State.readDepot (s : State) (o : Nat) : W64 :=
  if o < 0x4_0000 then
    let t := nget {} s.dx.slots (o / 0x1000)
    match o % 0x1000 with
    | 0x40 => if t.cmd.isSome then (BitVec.ofNat 64 dxPending) else nget 0 t.ports 0x708
    | 0x48 => nget 0 t.ports 0x709
    | 0x50 => nget 0 t.ports 0x70A
    | 0x58 => nget 0 t.ports 0x70B
    | _ => 0
  else if o < 0xF_0000 then 0
  else
    let x := o - 0xF_0000
    if x = 0x1000 then (s.dx.trailer.setWidth 64) <<< 6
    else if x = 0x1008 then pack [(48, s.dx.slotRejected.toNat), (32, s.dx.full.toNat), (16, s.dx.quota.toNat),
      (0, s.dx.collisions.toNat)]
    else match entryAt x 0 0x20 64 with
    | some (i, 0) => nget 0 s.dx.ns i
    | some (i, 8) => if nhas s.dx.ns i then pack [(32, s.nsEntries i), (0, s.nsQuota (nget 0 s.dx.ns i))] else 0
    | _ => 0

/-- The value of the system register at an offset. -/
def State.sysRead (s : State) (off : Nat) : W64 :=
  let o := off % 0x10_0000
  match off / 0x10_0000 with
  | 0x0 => s.readId o
  | 0x1 => s.readCc o
  | 0x2 => s.readSb o
  | 0x3 => s.readTf o
  | 0x4 => s.readHi o
  | 0x5 => s.readMl o
  | 0x6 => s.readHb o
  | 0x7 => s.readAw o
  | 0x8 => s.readEc o
  | 0x9 => s.readSd o
  | 0xA => s.readRgn o
  | _ => s.readTb o

end Sys2Proof.Machine
end

