-- ==== Sys2Proof/Machine/SysWrite.lean ====
section
/-!
DEFINITION. What reads and writes of the system registers do (00 Table 0.3, R577, R581;
12 R392). `m` marks the bits that the access carries.
-/
namespace Sys2Proof.Machine

/-- Whether an access carries every bit of a field (00 R577). -/
def covers (m : W64) (hi lo : Nat) : Bool := bits m hi lo == 2 ^ (hi + 1 - lo) - 1

/-- Whether an access carries some bit of a mask. -/
def carries (m mask : W64) : Bool := (m &&& mask) != 0

/-! ## Effects of reads: RC fields -/

def State.clearCc (s : State) (o : Nat) (m : W64) : State :=
  if o = 0x048 ∧ covers m 31 0 then { s with cc := { s.cc with rwpIgnored := 0 } } else s

def State.clearSb (s : State) (o : Nat) (m : W64) : State :=
  if o = 0x020 ∧ covers m 47 32 then { s with sb := { s.sb with ignored := 0 } } else s

def State.clearHi (s : State) (o : Nat) (m : W64) : State :=
  if o = 0x020 then (if covers m 63 32 then { s with hi := { s.hi with dbIsolated := 0 } } else s)
  else match entryAt o 0x1000 0x40 64 with
  | some (q, x) =>
    let k := s.queue q
    let zero (l : List (Nat × Nat)) : NMap W16 :=
      l.foldl (fun c p => if covers m (p.1 + 15) p.1 then nset p.2 0 c else c) k.counts
    if x = 0x20 then s.setQueue q { k with
      rejected := if covers m 63 32 then 0 else k.rejected
      errors := if covers m 31 16 then 0 else k.errors }
    else if x = 0x28 then s.setQueue q { k with counts := zero [(48, 4), (32, 3), (16, 2), (0, 1)] }
    else if x = 0x30 then s.setQueue q { k with counts := zero [(32, 7), (16, 6), (0, 5)] }
    else s
  | none => s

def State.clearMl (s : State) (o : Nat) (m : W64) : State :=
  if o = 0x008 then
    { s with ml := { s.ml with
        switchovers := if covers m 63 48 then 0 else s.ml.switchovers
        dup := if covers m 47 32 then 0 else s.ml.dup
        gaps := if covers m 31 16 then 0 else s.ml.gaps
        noRoute := if covers m 15 0 then 0 else s.ml.noRoute } }
  else match entryAt o 0x100 0x40 12 with
  | some (p, 0x10) => s.modPort p fun k => { k with
      replays := if covers m 63 48 then 0 else k.replays
      crcErr := if covers m 47 32 then 0 else k.crcErr
      uncorr := if covers m 31 16 then 0 else k.uncorr
      corrected := if covers m 15 0 then 0 else k.corrected }
  | _ => s

def clearAt {α : Type} [OfNat α 0] (ok : Bool) (n : Nat) (c : NMap α) : NMap α := if ok then nset n 0 c else c

def State.clearHb (s : State) (o : Nat) (m : W64) : State :=
  let c := s.co
  match entryAt o 0x8_1000 0x10 64 with
  | some (n, 0) => { s with co := { c with
      farAtomics := clearAt (covers m 63 32) n c.farAtomics, probesSent := clearAt (covers m 31 0) n c.probesSent } }
  | some (n, 8) => { s with co := { c with queuePeak := clearAt (covers m 25 16) n c.queuePeak } }
  | some _ => s
  | none =>
    match entryAt o 0x8_2000 0x10 512 with
    | some (n, 0) => { s with co := { c with
        predFar := clearAt (covers m 63 32) n c.predFar, predNear := clearAt (covers m 31 0) n c.predNear } }
    | some (n, 8) => { s with co := { c with holdProbes := clearAt (covers m 31 0) n c.holdProbes } }
    | _ => s

def State.clearAw (s : State) (o : Nat) (m : W64) : State :=
  let c := s.co
  match entryAt o 0x1_0000 0x10 512 with
  | some (n, 0) => { s with co := { c with
      merged := clearAt (covers m 63 32) n c.merged, delayed := clearAt (covers m 31 0) n c.delayed } }
  | some (n, 8) => { s with co := { c with peak := clearAt (covers m 13 8) n c.peak } }
  | _ => s

def State.clearEc (s : State) (o : Nat) (m : W64) : State :=
  match o with
  | 0x000 => if covers m 47 32 then { s with ec := { s.ec with dropped := 0 } } else s
  | 0x018 => if covers m 31 0 then { s with ec := { s.ec with patrol := 0 } } else s
  | _ =>
    match entryNo o 0x100 8 7 with
    | some i => if covers m 31 0 then { s with ec := { s.ec with corrected := nset i 0 s.ec.corrected } } else s
    | none => s

/-- SD_UART_DATA gives up the byte it returned. -/
def State.clearSd (s : State) (o : Nat) (m : W64) : State :=
  match o with
  | 0x010 => if covers m 63 48 then { s with sd := { s.sd with ignored := 0 } } else s
  | 0x290 => if covers m 31 0 then { s with sd := { s.sd with muxIgnored := 0 } } else s
  | _ =>
    match entryAt o 0x500 0x40 2 with
    | some (u, 0x00) => if covers m 7 0 then (s.uartTake u).1 else s
    | some (u, 0x08) =>
      let k := s.uart u
      s.setUart u { k with
        rxDropped := if covers m 47 32 then 0 else k.rxDropped
        txDropped := if covers m 31 16 then 0 else k.txDropped }
    | _ => s

def State.clearRgn (s : State) (o : Nat) (m : W64) : State :=
  match entryNo o 0x1_0000 0x10 16 with
  | some d =>
    let k := s.semDie d
    s.setSemDie d { k with
      fullRefused := if covers m 63 32 then 0 else k.fullRefused
      peak := if covers m 30 16 then 0 else k.peak }
  | none => s

def State.clearDepot (s : State) (o : Nat) (m : W64) : State :=
  if o = 0xF_1008 then
    { s with dx := { s.dx with
        slotRejected := if covers m 63 48 then 0 else s.dx.slotRejected
        full := if covers m 47 32 then 0 else s.dx.full
        quota := if covers m 31 16 then 0 else s.dx.quota
        collisions := if covers m 15 0 then 0 else s.dx.collisions } }
  else s

/-- What a read of a system register does. -/
def State.sysReadEffect (s : State) (off : Nat) (m : W64) : State :=
  let o := off % 0x10_0000
  match off / 0x10_0000 with
  | 0x1 => s.clearCc o m
  | 0x2 => s.clearSb o m
  | 0x4 => s.clearHi o m
  | 0x5 => s.clearMl o m
  | 0x6 => s.clearHb o m
  | 0x7 => s.clearAw o m
  | 0x8 => s.clearEc o m
  | 0x9 => s.clearSd o m
  | 0xA => s.clearRgn o m
  | _ => s

/-! ## Writes -/

/-- An RWP field of a register without a region, written by another than the junction
section of a full load (R581). -/
def State.rwpRefused (s : State) : State := { s with cc := { s.cc with rwpIgnored := satInc s.cc.rwpIgnored } }

def State.writeId (s : State) (o : Nat) (v m : W64) (rwp : Bool) : State :=
  if o = 0x020 ∧ carries m 0x1_07FF then
    if rwp then
      let n := mergeMask (s.readId o) v m
      { s with pkg := n.setWidth 11, aliasEn := bit n 16 }
    else s.rwpRefused
  else s

/-- CC_WIN_PRODUCED written (04 R104); the words may show a full load (R115). -/
def State.winProduced (s : State) (v : W32) : State := State.seeFull { s with cc := { s.cc with produced := v } }

def State.writeCc (s : State) (o : Nat) (v m : W64) : State :=
  match o with
  | 0x018 => s.loadWrite (bit (v &&& m) 0) (bit (v &&& m) 1)
  | 0x020 => if covers m 31 0 then s.winProduced (v.setWidth 32) else s
  | _ => s

def State.writeSb (s : State) (o : Nat) (v m : W64) (src : Source) : State :=
  let low := covers m 31 0
  let r := s.sb.reg
  match o with
  | 0x000 => if low then s.boardCeilWrite src (bits v 11 0) else s
  | 0x008 =>
    if low then
      let s := s.sbWrite { r with hostCeil := clampCeil (bits v 11 0) }
      { s with sb := { s.sb with hostWriter := src } }
    else s
  | 0x010 =>
    if low then
      let s := s.sbWrite { r with
        hotStep := v.extractLsb' 24 8, trip := v.extractLsb' 16 8, capBrake := v.extractLsb' 12 4, jres := v.setWidth 12 }
      { s with sb := { s.sb with cfgWriter := src } }
    else s
  | 0x018 =>
    if low then
      let s := s.sbWrite { r with margin := v.setWidth 8 }
      { s with sb := { s.sb with cfg2Writer := src } }
    else s
  | 0x020 => if src = srcHost ∧ bit (v &&& m) 20 then s.clearTrip else s
  | _ => s

def State.writeTf (s : State) (o : Nat) (v m : W64) (rwp : Bool) : State :=
  if o = 0 then
    if covers m 31 0 then { s with tf := { s.tf with missingTemp := v.extractLsb' 16 8, waitLimit := v.setWidth 15 } } else s
  else match entryNo o 0x100 8 20 with
  | some d =>
    if rwp then
      let n := mergeMask (placeWord (nget {} s.tf.place d)) v m
      let k : Place := { mirror := bit n 42, rot := n.extractLsb' 40 2, y0 := n.extractLsb' 20 17, x0 := n.setWidth 17 }
      { s with tf := { s.tf with place := nset d k s.tf.place } }
    else s.rwpRefused
  | none =>
    match entryNo o 0x400 8 1024 with
    | some c =>
      if covers m 31 24 then
        { s with tf := { s.tf with cells := nset c { nget {} s.tf.cells c with limit := v.extractLsb' 24 8 } s.tf.cells } }
      else s
    | none => s

/-- HI_CORE_DB (16 R493). -/
def State.coreDoorbell (s : State) (c : Nat) : State :=
  if c < numCores ∧ !s.isolated c then
    s.modCore c fun k => k.raise 2
  else
    { s with hi := { s.hi with dbIsolated := satInc s.hi.dbIsolated, errKind := 2, errAddr := Config.doorbellAddr c } }

def State.writeQueue (s : State) (q o : Nat) (v m : W64) (src : Source) : State :=
  let k := s.queue q
  match o with
  | 0x00 =>
    if k.enable then s
    else
      let n := mergeMask (s.readQueue q 0) v m
      s.setQueue q { k with baseHost := bit n 63, addr := n.extractLsb' 6 57 }
  | 0x08 =>
    if covers m 31 0 then
      let s := if k.enable then s else s.setQueue q { k with log2 := v.extractLsb' 16 5 }
      if bit v 1 then s.resetDma q else s.setQueue q { s.queue q with enable := bit v 0 }
    else s
  | 0x10 => if covers m 31 0 then s.queueTail q (v.setWidth 32) src else s
  | _ => s

def State.writeHi (s : State) (o : Nat) (v m : W64) (src : Source) : State :=
  match o with
  | 0x008 =>
    let n := mergeMask (s.readHi o) v m
    { s with hi := { s.hi with hwBase := n.extractLsb' 42 22 } }
  | 0x010 =>
    let n := mergeMask (s.readHi o) v m
    { s with hi := { s.hi with ctlEnable := bit n 63, ctlTarget := n.extractLsb' 24 32 } }
  | 0x018 => if covers m 14 0 then s.coreDoorbell (bits v 14 0) else s
  | _ =>
    match entryNo o 0x100 8 64 with
    | some a =>
      let n := mergeMask (s.readHi o) v m
      { s with hi := { s.hi with ap := nset a (bit n 63, n.extractLsb' 30 26) s.hi.ap } }
    | none =>
      match entryNo o 0x400 8 7 with
      | some e =>
        let n := mergeMask (s.readHi o) v m
        { s with hi := { s.hi with event := nset e (bit n 16, n.setWidth 11) s.hi.event } }
      | none =>
        match entryAt o 0x1000 0x40 64 with
        | some (q, x) => s.writeQueue q x v m src
        | none => s

def State.writeMl (s : State) (o : Nat) (v m : W64) (src : Source) (rwp : Bool) : State :=
  match o with
  | 0x000 =>
    if rwp then
      let n := mergeMask (s.readMl o) v m
      { s with ml := { s.ml with
          respTimeout := n.extractLsb' 32 16, parentEn := bit n 28, parent := n.extractLsb' 24 4
          master := bit n 20, origin := n.extractLsb' 16 4 } }
    else s.rwpRefused
  | 0x020 =>
    if covers m 31 0 then { s with ml := { s.ml with selDest := v.extractLsb' 16 11, selPort := v.setWidth 4 } } else s
  | _ =>
    match entryAt o 0x100 0x40 12 with
    | some (p, 0x00) =>
      if covers m 31 0 then
        let s := s.portEnable p (bit v 0) src
        if bit v 1 then s.portRetrain p src else s
      else s
    | _ => s

/-- CO_PRED_CTRL.CLEAR (12 Table 12.7). -/
def State.predClear (s : State) (src : Source) : State :=
  { s with co := { s.co with pred := [], predWriter := src } }

def State.writeHb (s : State) (o : Nat) (v m : W64) (src : Source) (rwp : Bool) : State :=
  match entryNo o 0x9_0000 8 4 with
  | some j =>
    if rwp then
      let n := mergeMask (s.readHb o) v m
      { s with dx := { s.dx with base := nset j (n.extractLsb' 23 22) s.dx.base } }
    else s.rwpRefused
  | none =>
    if o = 0x8_0000 ∧ covers m 31 0 then { s with co := { s.co with hold := v.setWidth 8, holdWriter := src } }
    else if o = 0x8_0008 ∧ bit (v &&& m) 0 then s.predClear src
    else s

/-- AW_RANGE of window `n` written (11 R358, R359). -/
def State.awRange (s : State) (n : Nat) (v m : W64) (src : Source) : State :=
  let w := s.window n
  let put (w : Window) : State := { s with co := { s.co with windows := nset n w s.co.windows } }
  if s.pinned n then put { w with ignored := satInc w.ignored }
  else
    let x := mergeMask (pack [(63, b2n w.enable), (32, w.limit.toNat), (0, w.base.toNat)]) v m
    put { w with enable := bit x 63, limit := x.extractLsb' 32 18, base := x.setWidth 18, lastWriter := src }

/-- AW_ATTR of window `n`, or AW_DEFAULT as window 64, written (11 R359). -/
def State.awAttr (s : State) (n : Nat) (v : W64) (src : Source) : State :=
  { s with co := { s.co with
      windows := nset n { s.window n with attr := v.setWidth 8, lastWriter := src } s.co.windows } }

def State.writeAw (s : State) (o : Nat) (v m : W64) (src : Source) : State :=
  match entryAt o 0 0x20 65 with
  | some (n, 0x00) =>
    if n = 64 then (if covers m 7 0 then s.awAttr 64 v src else s) else s.awRange n v m src
  | some (n, 0x08) => if n < 64 ∧ covers m 7 0 then s.awAttr n v src else s
  | _ => s

def State.writeEc (s : State) (o : Nat) (v m : W64) : State :=
  match o with
  | 0x000 => if bit (v &&& m) 0 then { s with ec := { s.ec with notify := false } } else s
  | 0x008 => if covers m 31 0 then s.ecHead (v.setWidth 32) else s
  | _ => s

def State.writeUart (s : State) (u o : Nat) (v m : W64) : State :=
  let k := s.uart u
  match o with
  | 0x00 => if covers m 7 0 then s.uartPut u (v.setWidth 8) else s
  | 0x10 =>
    if covers m 31 0 then
      let s := s.setUart u { k with div := v.setWidth 16 }
      if u = 0 then { s with sd := { s.sd with bootlog := bit v 16 } } else s
    else s
  | _ => s

def State.writeTpo (s : State) (n o : Nat) (v m : W64) : State :=
  let t := s.tpo n
  let put (t : Tpo) : State := { s with sd := { s.sd with tpo := nset n t s.sd.tpo } }
  match o with
  | 0x00 => put { t with start := mergeMask t.start v m }
  | 0x08 => put { t with period := (mergeMask (t.period.setWidth 64) v m).setWidth 32 }
  | 0x10 => put { t with width := (mergeMask (t.width.setWidth 64) v m).setWidth 32 }
  | _ => s

/-- SD_ALERT written: ENABLE, and EVENT by ones. -/
def State.writeAlert (s : State) (v m : W64) : State :=
  State.alertLine { s with sd := { s.sd with
    alertEvent := s.sd.alertEvent &&& ~~~(v &&& m).setWidth 5
    alertEnable := if covers m 20 16 then v.extractLsb' 16 5 else s.sd.alertEnable } }

def State.writeSd (s : State) (o : Nat) (v m : W64) (src : Source) : State :=
  let low := covers m 31 0
  match o with
  | 0x000 => if low then { s with sd := { s.sd with flAddr := v.setWidth 32 } } else s
  | 0x008 => if low then s.flashCommand (bits v 3 0) (bit v 8) (v.extractLsb' 16 9) src else s
  | 0x010 => if bit (v &&& m) 2 then { s with sd := { s.sd with resumed := false } } else s
  | 0x280 => if low then s.gpioOut (v.extractLsb' 16 16) (v.setWidth 16) else s
  | 0x700 => s.writeAlert v m
  | _ =>
    match entryNo o 0x100 8 32 with
    | some i =>
      let n := mergeMask (s.readSd o) v m
      let buf := (List.range 8).foldl (fun b j => nset (8 * i + j) (n.extractLsb' (8 * j) 8) b) s.sd.flBuf
      { s with sd := { s.sd with flBuf := buf } }
    | none =>
      match entryNo o 0x200 8 16 with
      | some p => if low then s.gpioFunc p (v.setWidth 3) src else s
      | none =>
        match entryAt o 0x400 0x20 4 with
        | some (n, x) => s.writeTpo n x v m
        | none =>
          match entryAt o 0x500 0x40 2 with
          | some (u, x) => s.writeUart u x v m
          | none =>
            match entryNo o 0x600 8 16 with
            | some b =>
              if low then
                let k := { nget {} s.sd.pmb b with en := bit v 15, addr := v.extractLsb' 8 7, code := v.setWidth 8 }
                { s with sd := { s.sd with pmb := nset b k s.sd.pmb } }
              else s
            | none => s

/-- RGN_POWER written (15 R462, R463, R479). -/
def State.rgnPower (s : State) (r : Nat) (v : W64) (src : Source) : State :=
  let s := s.brakeChange r fun g => { g with hostBrake := v.extractLsb' 16 4, pwWriter := src }
  s.vtargetWrite r (bits v 9 0)

def State.writeRgn (s : State) (o : Nat) (v m : W64) (src : Source) : State :=
  match entryAt o 0 0x40 64 with
  | some (r, 0x00) => s.rgnCtrl r (v &&& m).toNat src
  | some (r, 0x08) => s.rgnHold r (bit (v &&& m) 0) (bit (v &&& m) 1) src
  | some (r, 0x20) => if covers m 31 0 then s.rgnPower r v src else s
  | _ => s

def State.writeTb (s : State) (o : Nat) (v m : W64) : State :=
  if o = 0x008 ∧ bit (v &&& m) 1 then s.clearRefLost else s

/-- A write of a Depot location; a slot's trigger is fired by a write of its low half. -/
def State.writeDepot (s : State) (o : Nat) (v m : W64) (src : Source) : State :=
  if o < 0x4_0000 then
    let n := o / 0x1000
    let p := 0x700 + o % 0x1000 / 8
    if o % 0x1000 < 0x400 ∧ o % 8 = 0 then
      if isDepot p then (if covers m 31 0 then s.slotTrigger n p (v &&& m) src else s)
      else if canWrite p && dxRole p != .trigger && dxRole p != .reserved then
        let t := nget {} s.dx.slots n
        let t := { t with ports := nset p (mergeMask (nget 0 t.ports p) v m) t.ports }
        { s with dx := { s.dx with slots := nset n t s.dx.slots } }
      else s
    else s
  else if o = 0xF_1000 ∧ covers m 31 0 then { s with dx := { s.dx with trailer := v.extractLsb' 6 26 } }
  else s

/-- A write of a system register. `rwp` marks the junction section of a full load. -/
def State.sysWrite (s : State) (off : Nat) (v m : W64) (src : Source) (rwp : Bool) : State :=
  let o := off % 0x10_0000
  match off / 0x10_0000 with
  | 0x0 => s.writeId o v m rwp
  | 0x1 => s.writeCc o v m
  | 0x2 => s.writeSb o v m src
  | 0x3 => s.writeTf o v m rwp
  | 0x4 => s.writeHi o v m src
  | 0x5 => s.writeMl o v m src rwp
  | 0x6 => s.writeHb o v m src rwp
  | 0x7 => s.writeAw o v m src
  | 0x8 => s.writeEc o v m
  | 0x9 => s.writeSd o v m src
  | 0xA => s.writeRgn o v m src
  | _ => s.writeTb o v m

end Sys2Proof.Machine
end

