-- ==== Sys2Proof/Machine/Regs.lean ====
section
/-!
DEFINITION. Reads and writes of the uncached locations of this package, by address and
through BAR0 and BAR4 (01 R39, R44; 16 R482-R487).
-/
namespace Sys2Proof.Machine

/-- The bits that an access of `n` bytes at offset `o` carries of its 64-bit register. -/
def laneMask (o n : Nat) : W64 := BitVec.ofNat 64 ((2 ^ (8 * n) - 1) * 2 ^ (8 * (o % 8)))

/-- A value of `n` bytes in its place in the register. -/
def laneIn (o n : Nat) (v : W64) : W64 := BitVec.ofNat 64 (v.toNat % 2 ^ (8 * n) * 2 ^ (8 * (o % 8)))

/-- The bytes of an access taken from its register. -/
def laneOut (o n : Nat) (v : W64) : W64 := BitVec.ofNat 64 (v.toNat / 2 ^ (8 * (o % 8)) % 2 ^ (8 * n))

/-- A read of a location that is not memory. The control-port windows of an isolated region
are refused to every agent, the region's own cores included (01 R44; log 72). -/
def State.regRead (s : State) (l : Loc) (n : Nat) : State × RespStatus × W64 :=
  match l with
  | .sysreg o =>
    let b := o / 8 * 8
    (s.sysReadEffect b (laneMask o n), .ok, laneOut o n (s.sysRead b))
  | .cport c o =>
    if s.isolated c then (s, .isolated, 0)
    else
      let p := 0x800 + o / 8
      let t := s.cpReadEffect c p (laneMask o n)
      if (s.core c).isReadBad p then (t, .isolated, 0) else (t, .ok, laneOut o n (s.cpValue c p))
  | .sem i o => let r := s.semRegRead i o; (r.1, .ok, r.2)
  | .depot o =>
    let b := o / 8 * 8
    (s.clearDepot b (laneMask o n), .ok, laneOut o n (s.readDepot b))
  | _ => (s, .unmapped, 0)

/-- A write of a location that is not memory. -/
def State.regWrite (s : State) (l : Loc) (n : Nat) (v : W64) (src : Source) : State × RespStatus :=
  match l with
  | .sysreg o => (s.sysWrite (o / 8 * 8) (laneIn o n v) (laneMask o n) src false, .ok)
  | .cport c o =>
    if s.isolated c then (s, .isolated)
    else (s.cpWrite c (0x800 + o / 8) (laneIn o n v) (laneMask o n) (src == srcCore c), .ok)
  | .sem i o => (s.semRegWrite i o v src, .ok)
  | .depot o => (s.writeDepot (o / 8 * 8) (laneIn o n v) (laneMask o n) src, .ok)
  | _ => (s, .unmapped)

/-! ## MSI-X structures and the image window (16 R495, 04 R104) -/

/-- Register `o / 8 * 8` of the MSI-X table: address, then data and the mask bit. -/
def State.readMsix (s : State) (o : Nat) : W64 :=
  let e := nget {} s.hi.msix (o / 16)
  if o % 16 < 8 then e.addr else pack [(32, b2n e.mask), (0, e.data.toNat)]

/-- A vector that is no longer masked sends the message it holds pending. -/
def State.msixFlush (s : State) (v : Nat) : State :=
  let e := nget {} s.hi.msix v
  if s.hi.msixEnable && !s.hi.funcMask && !e.mask && s.hi.pba.contains v then
    State.sendMsix { s with hi := { s.hi with pba := s.hi.pba.filter (· != v) } } v
  else s

/-- Every pending vector that may now be sent. -/
def State.msixFlushAll (s : State) : State := forEach s.hi.pba (fun v s => s.msixFlush v) s

def State.writeMsix (s : State) (o : Nat) (v m : W64) : State :=
  let i := o / 16
  let e := nget {} s.hi.msix i
  let x := mergeMask (s.readMsix o) v m
  let e := if o % 16 < 8 then { e with addr := x } else { e with data := x.setWidth 32, mask := bit x 32 }
  State.msixFlush { s with hi := { s.hi with msix := nset i e s.hi.msix } } i

/-- 64 pending bits. -/
def State.readPba (s : State) (o : Nat) : W64 :=
  pack ((List.range 64).map fun i => (i, b2n (s.hi.pba.contains (8 * o + i))))

/-- Two ring positions of the image window. -/
def State.readRing (s : State) (k : Nat) : W64 :=
  pack [(32, (nget 0 s.cc.ring (k + 1)).toNat), (0, (nget 0 s.cc.ring k).toNat)]

def State.writeRing (s : State) (k : Nat) (v m : W64) : State :=
  let x := mergeMask (s.readRing k) v m
  let r := if bits m 31 0 ≠ 0 then nset k (x.setWidth 32) s.cc.ring else s.cc.ring
  let r := if bits m 63 32 ≠ 0 then nset (k + 1) (x.extractLsb' 32 32) r else r
  { s with cc := { s.cc with ring := r } }

/-! ## What an access through a BAR reaches (16 Tables 16.2, R484, R486, R487) -/

inductive BarLoc where
  | loc (l : Loc)
  | ring (o : Nat)
  | msix (o : Nat)
  | pba (o : Nat)
  | remote (a : Nat)
  | nothing
  deriving DecidableEq, Repr

/-- The control aperture (R484). -/
def State.ctlTarget (s : State) (o n : Nat) : BarLoc :=
  if s.hi.ctlEnable then
    let a := (s.hi.ctlTarget.toNat * 2 ^ 24 + o) % 2 ^ 56
    match resolve (localOf a) n with
    | some (.cport c x) => if s.isLocal a then .loc (.cport c x) else .remote a
    | _ => .nothing
  else .nothing

/-- A naturally aligned access of at most 64 bits: the image window and the MSI-X structures
take each (16 Table 16.2), registers only those of 32 and 64 bits (01 R39). -/
def wholeAccess (o n : Nat) : Bool := (n == 1 || n == 2 || n == 4 || n == 8) && o % n == 0

/-- What an access of `n` bytes through BAR0, BAR4 or by address reaches; one that breaks
01 R38, R39 or 13 R394 reaches nothing (01 R42). -/
def State.barLoc (s : State) (t : RegTarget) (n : Nat) : BarLoc :=
  match t with
  | .bar0 o =>
    if 0xC0_0000 ≤ o ∧ o < 0xD0_0000 ∧ wholeAccess o n then .ring (o - 0xC0_0000)
    else if 0xE0_0000 ≤ o ∧ o < 0xE0_8000 ∧ wholeAccess o n then .msix (o - 0xE0_0000)
    else if 0xE1_0000 ≤ o ∧ o < 0xE1_0100 ∧ wholeAccess o n then .pba (o - 0xE1_0000)
    else if !regAccess o n then .nothing
    else if o < 0xC0_0000 then .loc (.sysreg o)
    else if 0xD0_0000 ≤ o ∧ o < 0xE0_0000 then .loc (.depot (o - 0xD0_0000))
    else if 0x100_0000 ≤ o ∧ o < 0x200_0000 then s.ctlTarget (o - 0x100_0000) n
    else .nothing
  | .bar4 o => if n = 8 ∧ o % 8 = 0 ∧ o < 0x40_0000 then .loc (.sem (o / 64) (o % 64)) else .nothing
  | .addr a =>
    match resolve a n with
    | some (.sysreg o) => .loc (.sysreg o)
    | some (.cport c o) => .loc (.cport c o)
    | some (.sem i o) => .loc (.sem i o)
    | some (.depot o) => .loc (.depot o)
    | _ => .nothing

/-- What HI_ERR_LAST records of an access. -/
def State.errAddr (s : State) (t : RegTarget) (kind : Nat) : Nat :=
  match t with
  | .bar0 o =>
    if kind = 1 ∨ o < 0x100_0000 then o else (s.hi.ctlTarget.toNat * 2 ^ 24 + (o - 0x100_0000)) % 2 ^ 56
  | .bar4 o => o
  | .addr a => s.pkg.toNat * 2 ^ 45 + a

/-- A refused access of the host is reported (16 Table 16.3); one of another agent
reaches nothing. -/
def State.refuseHost (s : State) (read : Bool) (kind : Nat) (t : RegTarget) (src : Source) : State :=
  if src = srcHost then
    s.hostFailure read kind (s.errAddr t kind) (match t with | .bar0 o | .bar4 o => o | .addr a => a)
  else s

/-- The bytes read go to the host, or to the SMBus master. -/
def State.readReply (s : State) (src : Source) (n : Nat) (v : W64) : State :=
  if src = srcHost then s.emit (.completion .success (toBytes n v.toNat))
  else if src = srcSmbus then s.emit (.smbus (toBytes n v.toNat))
  else s

/-- A request of the host to another package's control ports, on VC0 (17 R518). -/
def State.hostRequest (s : State) (read : Bool) (a n : Nat) (v : W64) (t : RegTarget) (src : Source) : State :=
  let w : Pending := { pkg := pkgOf a, addr := localOf a, acc := if read then n else 0
                       off := match t with | .bar0 o | .bar4 o => o | .addr x => x }
  match s.request 0 (pkgOf a) (if read then .read else .write) (localOf a) false
      (if read then toBytes 4 n else toBytes n v.toNat) w with
  | some s => s
  | none => State.refuseHost s.countNoRoute read 3 t src

/-- A write of `n` bytes (REGISTER_WRITE). -/
def State.registerWrite (s : State) (src : Source) (t : RegTarget) (n : Nat) (v : W64) : State :=
  match s.barLoc t n with
  | .loc l =>
    let r := s.regWrite l n v src
    if r.2 = .ok then r.1 else r.1.refuseHost false 2 t src
  | .ring o => s.writeRing (o / 8 * 2) (laneIn o n v) (laneMask o n)
  | .msix o => s.writeMsix (o / 8 * 8) (laneIn o n v) (laneMask o n)
  | .pba _ => s
  | .remote a => s.hostRequest false a n v t src
  | .nothing => s.refuseHost false 1 t src

/-- A read of `n` bytes (REGISTER_READ). -/
def State.registerRead (s : State) (src : Source) (t : RegTarget) (n : Nat) : State :=
  match s.barLoc t n with
  | .loc l =>
    let r := s.regRead l n
    if r.2.1 = .ok then r.1.readReply src n r.2.2 else r.1.refuseHost true 2 t src
  | .ring o => s.readReply src n (laneOut o n (s.readRing (o / 8 * 2)))
  | .msix o => s.readReply src n (laneOut o n (s.readMsix (o / 8 * 8)))
  | .pba o => s.readReply src n (laneOut o n (s.readPba (o / 8 * 8)))
  | .remote a => s.hostRequest true a n 0 t src
  | .nothing => s.refuseHost true 1 t src

def execRegisterWrite (src : Source) (t : RegTarget) (size : Nat) (v : W64) (s : State) :
    Host.Outcome State Fault Refusal :=
  need (Instr.registerWrite src t size v).WellFormed s fun s => whenUp s fun s => s.registerWrite src t size v

def execRegisterRead (src : Source) (t : RegTarget) (size : Nat) (s : State) :
    Host.Outcome State Fault Refusal :=
  need (Instr.registerRead src t size).WellFormed s fun s => whenUp s fun s => s.registerRead src t size

/-! ## Rows of single registers -/

def fullMask : W64 := BitVec.allOnes 64

/-- WIN_PRODUCED_WRITE (04 R104). -/
def execWinProducedWrite (words : W32) (s : State) : Host.Outcome State Fault Refusal :=
  need (Instr.winProducedWrite words).WellFormed s fun s => whenUp s fun s => s.winProduced words

/-- GO (04 R106). -/
def execGo (s : State) : Host.Outcome State Fault Refusal :=
  need Instr.go.WellFormed s fun s => whenUp s fun s => s.loadWrite true false

/-- ABORT (04 R107). -/
def execAbort (s : State) : Host.Outcome State Fault Refusal :=
  need Instr.abort.WellFormed s fun s => whenUp s fun s => s.loadWrite false true

/-- RGN_CTRL.PARK, RUN, RESET and CLEAR_RED (04 Table 4.8), and RGN_HOLD. -/
def execRgnCtrlPark (r : Nat) (src : Source) (s : State) : Host.Outcome State Fault Refusal :=
  need (Instr.rgnCtrlPark r src).WellFormed s fun s => whenUp s fun s => s.ctrlPark r src

def execRun (r : Nat) (src : Source) (s : State) : Host.Outcome State Fault Refusal :=
  need (Instr.run r src).WellFormed s fun s => whenUp s fun s => s.ctrlRun r src

def execReset (r : Nat) (src : Source) (s : State) : Host.Outcome State Fault Refusal :=
  need (Instr.reset r src).WellFormed s fun s => whenUp s fun s => s.ctrlReset r src

def execClearRed (r : Nat) (src : Source) (s : State) : Host.Outcome State Fault Refusal :=
  need (Instr.clearRed r src).WellFormed s fun s => whenUp s fun s => s.ctrlClearRed r src

def execRgnHoldClear (r : Nat) (park reset : Bool) (src : Source) (s : State) :
    Host.Outcome State Fault Refusal :=
  need (Instr.rgnHoldClear r park reset src).WellFormed s fun s => whenUp s fun s => s.rgnHold r park reset src

/-- AW_RANGE_WRITE and AW_ATTR_WRITE (11 R358, R359). -/
def execAwRangeWrite (n : Nat) (v : W64) (src : Source) (s : State) : Host.Outcome State Fault Refusal :=
  need (Instr.awRangeWrite n v src).WellFormed s fun s => whenUp s fun s => s.awRange n v fullMask src

def execAwAttrWrite (n : Nat) (v : W64) (src : Source) (s : State) : Host.Outcome State Fault Refusal :=
  need (Instr.awAttrWrite n v src).WellFormed s fun s => whenUp s fun s => s.awAttr n v src

/-- CO_PRED_CLEAR (12 Table 12.7). -/
def execCoPredClear (src : Source) (s : State) : Host.Outcome State Fault Refusal :=
  need (Instr.coPredClear src).WellFormed s fun s => whenUp s fun s => s.predClear src

/-- HI_CORE_DB_WRITE (16 R493). -/
def execHiCoreDbWrite (v : W64) (s : State) : Host.Outcome State Fault Refusal :=
  need (Instr.hiCoreDbWrite v).WellFormed s fun s => whenUp s fun s => s.coreDoorbell (bits v 14 0)

/-- MSIX_UNMASK (16 R495). -/
def execMsixUnmask (vector : Nat) (s : State) : Host.Outcome State Fault Refusal :=
  need (Instr.msixUnmask vector).WellFormed s fun s => whenUp s fun s =>
    let e := nget {} s.hi.msix vector
    State.msixFlush { s with hi := { s.hi with msix := nset vector { e with mask := false } s.hi.msix } } vector

end Sys2Proof.Machine
end

