-- ==== Sys2Proof/Machine/Access.lean ====
section
/-!
DEFINITION. A core's accesses: the lines they take, their answers, stores accepted, and
accesses to yards (05 R158-R160, 08 R259-R263, 10 R322-R323, 11 R330-R335, 18 R529).
-/
namespace Sys2Proof.Machine

/-! ## Values (05 Table 5.5) -/

/-- Bytes of a load on an offset of its channel, and whether it sign-extends. -/
def loadKind (n : Nat) : Nat × Bool :=
  match n with
  | 0 => (1, true) | 1 => (1, false) | 2 => (2, true) | 3 => (2, false) | 4 => (4, true) | 5 => (4, false) | _ => (8, false)

/-- The same of the load's port. -/
def loadForm (p : Nat) : Nat × Bool := loadKind ((p - 0x150) % 8)

/-- What a load leaves in its result port. -/
def loadValue (p : Nat) (bs : List Byte) : W64 :=
  let f := loadForm p
  let x := ofBytes (bs.take f.1)
  if f.2 then BitVec.ofInt 64 (sval (8 * f.1) x) else BitVec.ofNat 64 x

/-- The value that an atomic leaves in memory (05 Table 5.5). -/
def amoValue (p : Nat) (old data cmp : W64) : W64 :=
  match p with
  | 0x178 => old + data
  | 0x179 => old &&& data
  | 0x17A => old ||| data
  | 0x17B => old ^^^ data
  | 0x17C => data
  | 0x17D => if old = cmp then data else old
  | 0x17E => if old.sle data then old else data
  | _ => if old.sle data then data else old

/-- The bytes that an access received; none is missing once it is served. -/
def gotBytes (l : List (Option Byte)) : List Byte := l.map fun b => b.getD 0

/-! ## TMOVE (10 R322, R323) -/

/-- Accesses of one row, one for each 64-byte line. -/
def Core.rowAccs (k : Core) (id : Nat) (kind : AccKind) (addr n : Nat) (byte : Nat → Option Byte) : Core :=
  (pieces addr n).foldl (fun k p =>
    k.addAcc id kind (p.1 % 2 ^ 56) ((List.range p.2.2).map fun i => byte (p.2.1 + i)) 0 0) k

/-- A stopped TMOVE goes to its suspend slot, or is abandoned where the slot is held (06
R194, R199; log 38); its carried signal is withdrawn (13 R409). -/
def Core.toMvSlot (k : Core) (o : Op) (fault : Bool) : Core :=
  let k := { k with ops := k.ops.filter (fun q => q.id != o.id)
                    accs := k.accs.filter (fun a => a.op != o.id || a.accepted) }
  let k := match o.carry, fault with
    | some c, true =>
      (match k.opOf c.op with
        | some q => k.finish q [semWord semCancelled 0]
        | none => k)
    | _, _ => k
  match k.slotMv with
  | none => { k with
      slotMv := some (if fault then { o with carry := none } else o)
      due := mapIf (fun d => d.waitOp == some o.id) (fun d => { d with filled := d.filled ||| 4 }) k.due }
  | some _ => k

/-- The loads of the row that a TMOVE has come to. -/
def Core.mvRow (k : Core) (o : Op) : Core :=
  let o := { o with pass := 0, buf := [] }
  let k := k.modOp o.id fun _ => o
  if o.index < o.mvRows && o.mvBytes != 0 then
    k.rowAccs o.id .load (o.mvSrc o.index) o.mvBytes fun _ => some 0
  else k

/-- A TMOVE goes on once nothing of its row is outstanding: from loads to stores, from
stores to the next row. -/
def Core.mvAdvance (k : Core) (id : Nat) : Core :=
  match k.opOf id with
  | some o =>
    if o.port != 0x428 || !k.accsDone id then k
    else if o.limit = some o.index then k.toMvSlot o true
    else if o.pass = 0 then
      let k := k.modOp id fun o => { o with pass := 1 }
      k.rowAccs id .store (o.mvDst o.index) o.mvBytes fun i => nget none o.buf i
    else
      let o := { o with index := o.index + 1 }
      if o.limit = some o.index then k.toMvSlot o true else k.mvRow o
  | none => k

/-! ## Answers -/

/-- Number of the element of a vector access that address `a` falls in. -/
def Op.elemAt (o : Op) (a : Nat) : Nat := (a + 2 ^ 56 - bits (o.operand 0x202) 55 0) % 2 ^ 56 / (o.vec.w / 8)

/-- Address of an element of a vector access. -/
def Op.elemAddr (o : Op) (i : Nat) : Nat := (bits (o.operand 0x202) 55 0 + i * (o.vec.w / 8)) % 2 ^ 56

/-- Address of the first byte that an access touches. -/
def Access.first (a : Access) : Nat := ((touched a.addr a.bytes).headD a.addr) % 2 ^ 56

/-- A long operation must stop at element or row `i`, whose access failed; a lower one
that failed before stands (08 R263, 10 R323, 01 R43). -/
def Core.stopAt (k : Core) (o : Op) (i addr : Nat) : Core :=
  if (match o.limit with | some n => decide (n ≤ i) | none => false) then k
  else
    let d : Due := { code := 3, addr := addr, waitOp := some o.id }
    let due := if k.due.any fun d => d.waitOp == some o.id
      then mapIf (fun d => d.waitOp == some o.id) (fun d => { d with addr := addr }) k.due
      else k.due ++ [d]
    { k with
      due := due
      accs := k.accs.filter fun x => x.op != o.id || x.accepted || x.addr < addr
      ops := mapIf (fun q => q.id == o.id) (fun q => { q with limit := some i }) k.ops }

/-- The failed access of an operation (05 R160). -/
def Core.accFault (k : Core) (o : Op) (a : Access) : Core :=
  let k := k.dropAcc a.id
  match longUnit o.port with
  | some .vec => k.stopAt o (o.elemAt a.first) (o.elemAddr (o.elemAt a.first))
  | some .mv => Core.mvAdvance (k.stopAt o o.index a.first) o.id
  | _ => Core.fault (if isStorePort o.port then { k with ops := k.ops.filter fun q => q.id != o.id }
      else k.finish o [0]) { code := 3, addr := a.addr }

/-- Bytes received go to their operation. -/
def Core.accDone (k : Core) (o : Op) (a : Access) : Core :=
  let k := k.dropAcc a.id
  let store (base : Nat) : Core :=
    let put (m : NMap (Option Byte)) (i : Nat) : NMap (Option Byte) :=
      nset ((a.addr + i + 2 ^ 56 - base) % 2 ^ 56) ((nth a.got i).getD none) m
    k.modOp o.id fun o => { o with buf := (List.range a.got.length).foldl put o.buf }
  match longUnit o.port with
  | some .vec => store (bits (o.operand 0x202) 55 0)
  | some .mv => Core.mvAdvance (store (o.mvSrc o.index)) o.id
  | _ =>
    if isLoadPort o.port then k.finish o [loadValue o.port (gotBytes a.got)]
    else if isAtomicPort o.port then k.finish o [BitVec.ofNat 64 (ofBytes (gotBytes a.got))]
    else { k with ops := k.ops.filter fun q => q.id != o.id }

/-- The unit that consumes poison (18 Table 18.6). -/
def Op.consumer (o : Op) : Nat :=
  match longUnit o.port with
  | some .vec => 1 | some .mx => 2 | some .mv => 3 | some .cv => 4 | none => 0

/-- An answered access reaches its core. -/
def State.deliverAcc (s : State) (c : Nat) (a : Access) : State :=
  let k := s.core c
  match k.opOf a.op with
  | none => s.setCore c (k.dropAcc a.id)
  | some o =>
    match a.status with
    | .ok => if a.kind.isLoad then s.setCore c (k.accDone o a) else s
    | .poisoned => s.redFlag (regionOf c) 0x04 (srcCore c) (s.canonical a.addr) o.consumer
    | _ => s.setCore c (k.accFault o a)

/-- The current record of an access reaches its core. -/
def State.deliverId (s : State) (c id : Nat) : State :=
  match (s.core c).acc id with
  | some a => if a.done then s.deliverAcc c a else s
  | none => s

/-! ## Yards -/

/-- An access of core `c` at the yard of core `d`, by local address: its bytes, or an
answer other than ok (11 R330-R335). `ecc` reports on the words that it reads. -/
def State.yardAccess (s : State) (c d : Nat) (a : Access) (ecc : Ecc) : State :=
  let k := s.core c
  let la := localOf a.addr
  let n := a.bytes.length
  let bad (s : State) (w : Nat) : State := (s.uncorrYard d w).modCore c fun k => k.refuseAcc a.id .isolated
  match a.kind with
  | .load =>
    let s := s.yardEcc la ecc
    match s.firstBadWord la n with
    | some w => bad s w
    | none => s.modCore c fun k => k.loadServed a.id (k.overlay s.canonical a ((s.yardRead la n).1.map some))
  | .store =>
    let s := s.mergeEcc la (k.storeData a) ecc
    match s.firstBadMerge la (k.storeData a) with
    | some w => bad (s.yardWrite la (k.storeData a)).1 w
    | none => (s.yardWrite la (k.storeData a)).1.modCore c fun k => k.storeVisible a.id
  | .atomic p =>
    let s := s.yardEcc la ecc
    match s.firstBadWord la n with
    | some w => bad s w
    | none =>
      let old := (s.yardRead la n).1
      let r := s.yardStore la 8 (amoValue p (BitVec.ofNat 64 (ofBytes old)) a.b a.c).toNat
      r.1.modCore c fun k => k.loadServed a.id (old.map some)
  | _ => s

/-! ## MEMORY_RESPONSE -/

/-- A value read from a register as an access's bytes. -/
def State.serveRegister (s : State) (c : Nat) (a : Access) (l : Loc) : State :=
  let r := s.regRead l a.bytes.length
  r.1.modCore c fun k =>
    if r.2.1 = .ok then k.loadServed a.id ((toBytes a.bytes.length r.2.2.toNat).map some) else k.refuseAcc a.id r.2.1

/-- The line of local HBM number `l` in a core's L1. -/
def Core.l1Hit (k : Core) (l : Nat) : Option L1Line := (firstIf (fun p => p.2.line == l) k.l1).map Prod.snd

/-- A load that the L1 may serve (11 R337). -/
def Core.mayL1 (k : Core) (a : Access) : Bool :=
  match k.opOf a.op with
  | some o => o.port != 0x428
  | none => false

/-- A local load or own-yard atomic that is not held back is performed. -/
def State.performLocal (s : State) (c : Nat) (a : Access) (host : List Byte) (ecc : Ecc) : State :=
  let k := s.core c
  let n := a.bytes.length
  match decodeLocal (localOf a.addr) with
  | .yard d _ => if d = c then s.yardAccess c d a ecc else s
  | .hbm x =>
    if a.kind = .load ∧ k.mayL1 a then
      (match k.l1Hit (x / 64) with
        | some w => s.setCore c (k.loadServed a.id (k.overlay s.canonical a ((w.data.drop (x % 64)).take n)))
        | none => s)
    else s
  | .host h =>
    if a.kind = .load ∧ host.length = n then
      let s := s.emit (.hostRead (s.hi.hwBase.toNat * 2 ^ 42 + h) n)
      s.setCore c (k.loadServed a.id (host.map some))
    else s
  | _ =>
    if a.kind = .load then
      (match resolve (localOf a.addr) n with
        | some l => s.serveRegister c a l
        | none => s.setCore c (k.refuseAcc a.id .unmapped))
    else s

/-- MEMORY_RESPONSE: the answer of access `id` reaches core `c`. -/
def State.memoryResponse (s : State) (c id : Nat) (host : List Byte) (ecc : Ecc) : State :=
  match (s.core c).acc id with
  | none => s
  | some a =>
    if a.done then s.deliverAcc c a
    else if a.stage = .issued ∧ s.blocked c a = false then
      if s.noWayOut a.addr && !a.kind.isFence then
        State.deliverId (s.countNoRoute.modCore c fun k => k.refuseAcc id .noRoute) c id
      else if s.isLocal a.addr && a.kind.isLoad then State.deliverId (s.performLocal c a host ecc) c id
      else s
    else s

def execMemoryResponse (c id : Nat) (host : List Byte) (ecc : Ecc) (s : State) :
    Host.Outcome State Fault Refusal :=
  need (Instr.memoryResponse c id host ecc).WellFormed s fun s => whenUp s fun s => s.memoryResponse c id host ecc

/-- HOST_READ_FAILURE (16 R491): a core's read of the host ends with the ACCESS response. -/
def State.hostReadFailure (s : State) (c id : Nat) : State :=
  match (s.core c).acc id with
  | some a =>
    if a.stage = .issued ∧ s.blocked c a = false ∧ a.kind = .load ∧ s.destOf a.addr = .host then
      let h := localOf a.addr - 0x1000_0000_0000
      let s := s.emit (.hostRead (s.hi.hwBase.toNat * 2 ^ 42 + h) a.bytes.length)
      State.deliverId (s.modCore c fun k => k.refuseAcc id .hostError) c id
    else s
  | none => s

def execHostReadFailure (c id : Nat) (s : State) : Host.Outcome State Fault Refusal :=
  need (Instr.hostReadFailure c id).WellFormed s fun s => whenUp s fun s => s.hostReadFailure c id

/-! ## STORE_ACCEPTED (05 R149, 18 R533) -/

/-- The core counts a store as accepted. -/
def Core.acceptStore (k : Core) (a : Access) : Core :=
  let k := if a.done then k.dropAcc a.id else k.modAcc a.id fun a => { a with accepted := true }
  match k.opOf a.op with
  | some o =>
    if isStorePort o.port then { k with ops := k.ops.filter fun q => q.id != o.id } else k.mvAdvance o.id
  | none => k

/-- A store to the own yard, to a register or to the host is performed. -/
def State.performStore (s : State) (c : Nat) (a : Access) (ecc : Ecc) : State :=
  let k := s.core c
  let n := a.bytes.length
  match decodeLocal (localOf a.addr) with
  | .yard d _ => if d = c then s.yardAccess c d a ecc else s
  | .hbm _ => s
  | .host h =>
    let s := s.hostWriteGaps (s.hi.hwBase.toNat * 2 ^ 42 + h) (k.storeData a) false
    s.modCore c fun k => k.storeVisible a.id
  | _ =>
    match resolve (localOf a.addr) n with
    | some l =>
      let r := s.regWrite l n (BitVec.ofNat 64 (ofBytes (gotBytes a.bytes))) (srcCore c)
      r.1.modCore c fun k => if r.2 = .ok then k.storeVisible a.id else k.refuseAcc a.id r.2
    | none => s.setCore c (k.refuseAcc a.id .unmapped)

/-- What follows an attempt to perform a store. -/
def State.settleStore (s : State) (c id : Nat) : State :=
  match (s.core c).acc id with
  | some a =>
    if a.done ∧ a.status ≠ .ok then s.deliverAcc c a
    else if a.stage ≠ .issued then s.modCore c fun k => k.acceptStore a
    else s
  | none => s

/-- STORE_ACCEPTED. -/
def State.storeAccepted (s : State) (c id : Nat) (ecc : Ecc) : State :=
  match (s.core c).acc id with
  | some a =>
    if a.kind != .store || a.accepted then s
    else if a.stage = .issued then
      if s.blocked c a then s
      else if s.noWayOut a.addr then
        State.settleStore (s.countNoRoute.modCore c fun k => k.refuseAcc id .noRoute) c id
      else if s.isLocal a.addr then (s.performStore c a ecc).settleStore c id
      else s
    else s.settleStore c id
  | none => s

def execStoreAccepted (c id : Nat) (ecc : Ecc) (s : State) : Host.Outcome State Fault Refusal :=
  need (Instr.storeAccepted c id ecc).WellFormed s fun s => whenUp s fun s => s.storeAccepted c id ecc

/-! ## REMOTE_YARD_ACCESS (11 R332-R335, 01 R44) -/

/-- REMOTE_YARD_ACCESS: access `id` of core `c` reaches another core's yard, which an
isolated region refuses to every other core, its own cores included (01 R44, 11 R334). -/
def State.remoteYard (s : State) (c id : Nat) (ecc : Ecc) : State :=
  match (s.core c).acc id with
  | some a =>
    if a.stage = .issued ∧ s.blocked c a = false ∧ s.isLocal a.addr then
      match decodeLocal (localOf a.addr) with
      | .yard d _ =>
        if d = c then s
        else if s.isolated d then s.modCore c fun k => k.refuseAcc id .isolated
        else s.yardAccess c d a ecc
      | _ => s
    else s
  | none => s

def execRemoteYardAccess (c id : Nat) (ecc : Ecc) (s : State) : Host.Outcome State Fault Refusal :=
  need (Instr.remoteYardAccess c id ecc).WellFormed s fun s => whenUp s fun s => s.remoteYard c id ecc

end Sys2Proof.Machine
end

