-- ==== Sys2Proof/Machine/Cache.lean ====
section
/-!
DEFINITION. What die-cache slices, sidings and L1s share (11 R336-R359): attributes,
lines read and written, victims, the atomic predictor, and the messages between slices
and home agents (12 R361-R380).
-/
namespace Sys2Proof.Machine

/-! ## Attribute windows (11 R352-R357) -/

structure Attr where
  cache : Nat
  walloc : Bool
  stream : Bool
  order : Bool
  atomic : Nat
  ro : Bool
  deriving DecidableEq, Repr

/-- AW_ATTR (11 Table 11.5); CACHE 3 acts as 2. -/
def attrOf (w : BitVec 8) : Attr :=
  { cache := min 2 (bits w 1 0), walloc := bit w 2, stream := bit w 3, order := bit w 4, atomic := bits w 6 5
    ro := bit w 7 }

def Window.holdsAddr (w : Window) (a : Nat) : Bool :=
  w.enable && decide (w.base.toNat * 2 ^ 21 ≤ a) && decide (a < min w.limit.toNat 147456 * 2 ^ 21)

/-- The AW_ATTR that governs an HBM local address (R353). -/
def State.governingBits (s : State) (a : Nat) : BitVec 8 :=
  match firstIf (fun p => decide (p.1 < 64) && p.2.holdsAddr a) s.co.windows with
  | some p => p.2.attr
  | none => (s.window 64).attr

/-- The attributes that govern an HBM local address. -/
def State.governing (s : State) (a : Nat) : Attr := attrOf (s.governingBits a)

/-- The attributes that govern an access: those in force when it reached its slice (R354). -/
def State.attrBits (s : State) (a : Access) : BitVec 8 := a.attr.getD (s.governingBits (localOf a.addr))

/-! ## L1 (R336-R341) -/

/-- A line enters the L1 (R336). -/
def Core.fillL1 (k : Core) (line : Nat) (d : LineData) : Core :=
  let set := line % 64
  let k := { k with l1 := k.l1.filter fun p => p.2.line != line }
  match firstIf (fun i => !nhas k.l1 (set * 4 + i)) (List.range 4) with
  | some i => { k with l1 := nset (set * 4 + i) { line := line, data := d } k.l1 }
  | none =>
    let p := nget 0 k.l1ptr set
    { k with l1 := nset (set * 4 + p) { line := line, data := d } k.l1, l1ptr := nset set ((p + 1) % 4) k.l1ptr }

/-- A store updates the copy in its own core's L1 (R338). -/
def Core.patchL1 (k : Core) (line : Nat) (d : LineData) : Core :=
  { k with l1 := k.l1.map fun p => if p.2.line = line then (p.1, { p.2 with data := mergeData p.2.data d }) else p }

def Core.dropOwnL1 (k : Core) (line : Nat) : Core := { k with l1 := k.l1.filter fun p => p.2.line != line }

/-! ## Accesses served from a line -/

/-- A load or atomic has its bytes, poisoned or not. -/
def Core.serveLoad (k : Core) (id : Nat) (got : List (Option Byte)) (poison : Bool) : Core :=
  let k := k.loadServed id got
  if poison then k.modAcc id fun a => { a with status := .poisoned } else k

/-- Where an access lies in its line. -/
def Access.inLine (a : Access) : Nat := localOf a.addr % 64

/-- The values of an access's bytes in a line. -/
def State.lineBytesOf (s : State) (a : Access) (d : LineData) : List Byte :=
  s.byteVals (localOf a.addr) ((d.drop a.inLine).take a.bytes.length)

/-- A load is served from a whole line, which may fill the L1 (R337). -/
def State.serveLine (s : State) (c : Nat) (a : Access) (line : Nat) (d : LineData) (poison l1 : Bool) : State :=
  let got := (s.lineBytesOf a d).map some
  s.modCore c fun k =>
    let fill := l1 && !poison && bit k.l1Enable.cur 0 && k.mayL1 a
    let k := k.serveLoad a.id (k.overlay s.canonical a got) poison
    if fill then k.fillL1 line d else k

/-- The data of a line after a store, and whether it is poisoned (18 R529). -/
def stored (old : LineData) (bad : Bool) (a : Access) : LineData × Bool :=
  let d := placeInLine a.inLine a.bytes
  (mergeData old d, bad && !whole d)

/-- The data of a line after an atomic, the bytes it had there, and whether it acted: one
that meets poison consumes it. -/
def State.atomicOn (s : State) (old : LineData) (a : Access) : LineData × List Byte :=
  let was := s.lineBytesOf a old
  let p := match a.kind with | .atomic p => p | _ => 0
  let new := amoValue p (BitVec.ofNat 64 (ofBytes was)) a.b a.c
  (mergeData old (placeInLine a.inLine ((toBytes 8 new.toNat).map some)), was)

/-- A store becomes visible to every core (R340): L1 copies go, but the core's own takes
the bytes. -/
def State.showStore (s : State) (c line : Nat) (a : Access) : State :=
  (s.dropL1 line (some c)).modCore c fun k =>
    (k.patchL1 line (placeInLine a.inLine a.bytes)).storeVisible a.id

/-! ## Messages -/

/-- Requests that bring a line into the die, or upgrade it there. -/
def HKind.fills : HKind → Bool
  | .readFill | .ownFill => true
  | _ => false

/-- Whether the slice has a fill or an upgrade of the line under way. -/
def State.filling (s : State) (slice line : Nat) : Bool :=
  s.co.net.any (fun q => q.kind.fills && q.slice == slice && q.line == line)
    || s.co.queue.any (fun p => p.2.any fun q => q.kind.fills && q.slice == slice && q.line == line)
    || s.co.fwds.any (fun f => f.req.slice == slice && f.req.line == line)
    || s.co.grants.any (fun g => g.kind.fills && g.slice == slice && g.line == line)

/-- Whether a probe or a forwarded request is on its way to the slice for the line. -/
def State.sought (s : State) (slice line : Nat) : Bool :=
  s.co.probes.any (fun p => p.slice == slice && p.line == line)
    || s.co.fwds.any (fun f => f.owner == slice && f.req.line == line)

/-- Whether one of those has arrived there and waits (12 R370, R378). -/
def State.probeWaits (s : State) (slice line : Nat) : Bool :=
  s.co.probes.any (fun p => p.arrived && p.slice == slice && p.line == line)
    || s.co.fwds.any (fun f => f.arrived && f.owner == slice && f.req.line == line)

/-- The access waits at its slice, under the attributes it came with; a store's data goes
with it. -/
def State.waitAtSlice (s : State) (c : Nat) (a : Access) : State :=
  s.modCore c fun k => k.modAcc a.id fun x =>
    { x with stage := .atSlice, bytes := k.storeData a, attr := some (s.attrBits a) }

/-- A request that fills: with one under way for its line, the access waits for it. -/
def State.orWait (s : State) (c : Nat) (a : Access) (slice line : Nat) (f : State → State) : State :=
  if s.filling slice line then s.waitAtSlice c a else f s

/-- A request to the line's home agent. -/
def State.sendRequest (s : State) (c : Nat) (a : Access) (slice line : Nat) (kind : HKind) (t : Attr)
    (predicted : Bool) : State :=
  let q : HReq :=
    { id := s.co.nextReq, agent := homeAgent (64 * line), line := line, slice := slice, core := c, acc := a.id
      kind := kind, age3 := t.stream, l1 := t.cache ≤ 1 && !t.stream, ro := t.ro, predicted := predicted }
  let s := s.modCore c fun k => k.modAcc a.id fun x =>
    { x with stage := .sent, bytes := k.storeData a, attr := some (s.attrBits a) }
  { s with co := { s.co with net := s.co.net ++ [q], nextReq := s.co.nextReq + 1 } }

/-! ## Sidings and victims (R344-R350) -/

/-- A line leaves its set for the siding (R341, R346, R347). -/
def State.enterSiding (s : State) (slice key : Nat) (w : Line) : State :=
  let s := (s.dropDieL1 (slice / 32) w.line).dropLine key
  let l := s.siding slice ++ [{ line := w.line, st := w.st, data := w.data, poison := w.poison }]
  let s := s.setSiding slice l
  let peak := nget 0 s.co.peak slice
  { s with co := { s.co with peak := if peak.toNat < l.length then nset slice (BitVec.ofNat 6 l.length) s.co.peak else s.co.peak } }

def State.eligible (s : State) (slice : Nat) (w : Line) : Bool :=
  w.holdEnd.isNone && !s.filling slice w.line && !s.sought slice w.line

/-- Every way of a set one step older. -/
def State.ageSet (s : State) (slice set : Nat) : State :=
  { s with co := { s.co with lines := s.co.lines.map fun p =>
      if p.1 / 16 = slice * 2048 + set then (p.1, { p.2 with age := min 3 (p.2.age + 1) }) else p } }

/-- The victim of a set with no free way (R345), after at most `n` rounds of ageing. -/
def State.victim (s : State) (slice set : Nat) : Nat → State × Option (Nat × Line)
  | 0 => (s, none)
  | n + 1 =>
    let mine := s.co.lines.filter fun p => decide (p.1 / 16 = slice * 2048 + set) && s.eligible slice p.2
    match firstIf (fun p => p.2.age == 3) mine with
    | some p => (s, some p)
    | none => if mine.isEmpty then (s, none) else State.victim (s.ageSet slice set) slice set n

/-- A way for a fill: none where it must wait. A full siding delays the eviction, which
is counted once for a request (R350). -/
def State.takeWay (s : State) (slice set req : Nat) : State × Option Nat :=
  match firstIf (fun i => !nhas s.co.lines (wayKey slice set i)) (List.range 16) with
  | some i => (s, some (wayKey slice set i))
  | none =>
    if 32 ≤ (s.siding slice).length then
      if s.co.delayedBy.contains (slice, req) then (s, none)
      else
        ({ s with co := { s.co with
            delayed := nset slice (satInc (nget 0 s.co.delayed slice)) s.co.delayed
            delayedBy := (slice, req) :: s.co.delayedBy } }, none)
    else
      let v := s.victim slice set 4
      match v.2 with
      | some p => (v.1.enterSiding slice p.1 p.2, some p.1)
      | none => (v.1, none)

/-! ## Predictor (12 R374-R376) -/

def predKey (slice a : Nat) : Nat := slice * 1024 + ((a / 2 ^ 12 % 1024) ^^^ (a / 2 ^ 22 % 1024))

def State.predAt (s : State) (slice line : Nat) : BitVec 2 := nget 0 s.co.pred (predKey slice (64 * line))

def State.predUp (s : State) (slice line : Nat) : State :=
  let v := s.predAt slice line
  { s with co := { s.co with pred := nset (predKey slice (64 * line)) (if v = 3 then 3 else v + 1) s.co.pred } }

def State.predDown (s : State) (slice line : Nat) : State :=
  let v := s.predAt slice line
  { s with co := { s.co with pred := nset (predKey slice (64 * line)) (if v = 0 then 0 else v - 1) s.co.pred } }

/-- A predicted near atomic was performed on a line: the counter falls at once, or is
judged when the line's hold ends. -/
def State.predNearDone (s : State) (slice key : Nat) (w : Line) : State :=
  let s := { s with co := { s.co with predNear := nset slice (satInc (nget 0 s.co.predNear slice)) s.co.predNear } }
  if w.holdEnd.isSome then s.setLine key { w with predicted := w.predicted + 1 } else s.predDown slice w.line

/-! ## Accesses performed on a held line -/

/-- A store updates a line that its die holds alone (12 R383). -/
def State.storeHit (s : State) (c key : Nat) (w : Line) (a : Access) : State :=
  let r := stored w.data w.poison a
  let s := (s.setLine key { w with st := .M, age := 0, data := r.1, poison := r.2 }).holdAs (key / 32768) w.line .M
  s.showStore c w.line a

/-- A near atomic on a line that its die holds alone (12 R373). -/
def State.atomicHit (s : State) (c slice key : Nat) (w : Line) (a : Access) (predicted : Bool) : State :=
  if w.poison then
    (s.setLine key { w with age := 0 }).modCore c fun k => k.serveLoad a.id ((s.lineBytesOf a w.data).map some) true
  else
    let r := s.atomicOn w.data a
    let w := { w with st := .M, age := 0, data := r.1 }
    let s := ((s.setLine key w).holdAs slice w.line .M).dropL1 w.line none
    let s := if predicted then s.predNearDone slice key w else s
    s.modCore c fun k => k.loadServed a.id (r.2.map some)

end Sys2Proof.Machine
end

