-- ==== Sys2Proof/Machine/Tiles.lean ====
section
/-!
DEFINITION. Tile descriptors, the checks of matrix triggers, and train links (10
R293-R298, R317, Tables 10.1-10.3).
-/
namespace Sys2Proof.Machine

/-! ## Descriptors (R296) -/

/-- The fields of a descriptor (Table 10.2). -/
structure Tile where
  base : Nat
  pitch : Nat
  fmt : Nat
  src : Nat
  rows : Nat
  cols : Nat
  scale : Nat
  depth : Nat
  stride : Nat
  occ : Nat
  fold : Bool
  count : Nat
  kOrg : Nat
  seed : W32
  round : Nat
  rowOrg : Nat
  colOrg : Nat
  deriving DecidableEq, Repr

def tileOf (ws : List W64) : Tile :=
  let w (i : Nat) : W64 := (nth ws i).getD 0
  { base := bits (w 0) 16 0, pitch := bits (w 0) 36 20, fmt := bits (w 0) 43 40, src := bits (w 0) 45 44
    rows := bits (w 0) 59 48, cols := bits (w 1) 19 0, scale := bits (w 1) 48 32, depth := bits (w 2) 4 0
    stride := bits (w 2) 24 8, occ := bits (w 2) 41 25, fold := bit (w 2) 42, count := bits (w 3) 23 0
    kOrg := bits (w 3) 47 24, seed := BitVec.ofNat 32 (bits (w 4) 31 0), round := bits (w 4) 63 32
    rowOrg := bits (w 5) 23 0, colOrg := bits (w 5) 47 24 }

/-- The bits of descriptor word `w` that are not reserved. -/
def tileMask (w : Nat) : W64 :=
  match w with
  | 0 => 0x0FFF_3F1F_FFF1_FFFF
  | 1 => 0x0001_FFFF_000F_FFFF
  | 2 => 0x0000_07FF_FFFF_FF1F
  | 3 | 5 => 0x0000_FFFF_FFFF_FFFF
  | 4 => 0xFFFF_FFFF_FFFF_FFFF
  | _ => 0

def Core.tileWord (k : Core) (d w : Nat) : W64 := nget 0 k.tiles (8 * d + w)
def Core.tileWords (k : Core) (d : Nat) : List W64 := (List.range 8).map (k.tileWord d)
def Core.tile (k : Core) (d : Nat) : Tile := tileOf (k.tileWords d)

def Core.putTile (k : Core) (d w : Nat) (v : W64) : Core :=
  { k with tiles := nset (8 * d + w) (v &&& tileMask w) k.tiles }

/-- OCC, COUNT and FOLD of a ladder descriptor replaced (R329). -/
def Core.putLadder (k : Core) (d occ count : Nat) (fold : Bool) : Core :=
  let w2 := mergeMask (k.tileWord d 2) (pack [(25, occ), (42, b2n fold)]) 0x0000_07FF_FE00_0000
  let w3 := mergeMask (k.tileWord d 3) (BitVec.ofNat 64 count) 0xFF_FFFF
  (k.putTile d 2 w2).putTile d 3 w3

/-! ## Operand pairs (R294) -/

/-- MX formats and FP8 formats of the first row of Table 10.1. -/
def mixFmt (c : Nat) : Bool := inRange 0x4 0x9 c

/-- Width of the interval sum (none where it is exact) and the ladder format of an
operand pair; none for a pair that the array refuses. -/
def mxPair (a b : Nat) : Option (Option Nat × Nat) :=
  if (mixFmt a || a == 0xA) && (mixFmt b || b == 0xA) then some (some 20, 1)
  else if a = 0xB ∧ b = 0xB then some (none, 1)
  else if a = b ∧ (a = 2 ∨ a = 3) then some (some 40, 1)
  else if a = 1 ∧ b = 1 then some (some 40, 1)
  else if a = 0 ∧ b = 0 then some (some 80, 0)
  else if a = 0xD ∧ b = 0xD then some (none, 0xE)
  else if (a = 0xC ∧ (b = 0xC ∨ b = 0xD)) ∨ (a = 0xD ∧ b = 0xC) then some (none, 0xE)
  else none

/-- Whether a prompt stop lets the step in progress complete, by the format of operand A
(R326): FP32 and FP64 discard it. -/
def wholeStep (fmt : Nat) : Bool := fmt != 0 && fmt != 1

/-! ## Places (R297) -/

def rowBytes (fmt cols : Nat) : Nat := (cols * codeWidth fmt + 7) / 8

/-- Bytes that a tile of a format occupies; none where its rows do not fit (R298) or it
has none. -/
def Tile.range (t : Tile) (fmt : Nat) : Option (Nat × Nat) :=
  let r := rowBytes fmt t.cols
  if t.rows = 0 ∨ t.cols = 0 ∨ t.pitch < r then none else some (t.base, t.base + (t.rows - 1) * t.pitch + r)

/-- Bytes that a ladder occupies. -/
def Tile.ladderRange (t : Tile) : Option (Nat × Nat) :=
  if (t.fmt = 0 ∨ t.fmt = 1 ∨ t.fmt = 0xE) ∧ 1 ≤ t.depth ∧ t.depth ≤ 16 ∧ t.rows % 8 = 0 then
    match t.range t.fmt with
    | some r => if t.stride < r.2 - r.1 then none else some (t.base, r.2 + t.depth * t.stride)
    | none => none
  else none

/-- Bytes of an operand's block scales. -/
def Tile.scales (t : Tile) : List (Nat × Nat) :=
  if isMx t.fmt then [(t.scale, t.scale + t.rows * ((t.cols + 31) / 32))] else []

/-- Positions of a ladder: rows and columns of 8 × 8 outputs. -/
def Tile.posCols (t : Tile) : Nat := (t.cols + 7) / 8
def Tile.positions (t : Tile) : Nat := t.rows / 8 * t.posCols

/-! ## The trigger's checks (R298, R312; 08 Table 8.8) -/

/-- Formats that the epilogue gives (08 Table 8.8). -/
def epiFmt (c : Nat) : Bool := c ≤ 5 || c == 0xC

def epiCoupled (cfg : W64) : Bool := bit cfg 0

/-- Format of a result tile. -/
def resultFmt (cfg : W64) (l : Tile) : Nat := if epiCoupled cfg then bits cfg 11 8 else l.fmt

/-- An operand's own checks, and its ranges: tile, scales. A tile that streams in takes
no bytes of the yard. -/
def operandRanges (t : Tile) (link : Bool) : Option (List (Nat × Nat) × List (Nat × Nat)) :=
  let w := codeWidth t.fmt
  if (w = 6 ∧ t.cols % 4 ≠ 0) ∨ (w = 4 ∧ t.cols % 2 ≠ 0) ∨ t.rows = 0 ∨ t.cols = 0 then none
  else if t.src = 1 then (if link ∧ rowBytes t.fmt t.cols ≤ t.pitch then some ([], []) else none)
  else if t.src ≠ 0 then none
  else match t.range t.fmt with
    | some r => some ([r], t.scales)
    | none => none

/-- Ranges within the yard that do not overlap as R298 forbids: operands, then ladders
and results, then scales. -/
def rangesFit (ops outs scales : List (Nat × Nat)) : Option (List (Nat × Nat)) :=
  let clash : Bool := (List.range outs.length).any fun i =>
    match nth outs i with
    | some r => (ops ++ dropNth outs i).any (crosses r)
    | none => false
  if (ops ++ outs).any (fun r => decide (0x1_FF00 < r.2)) || scales.any (fun r => decide (0x2_0000 < r.2)) || clash then
    none
  else some (ops ++ outs ++ scales)

/-- A result tile's range: its rows and columns are the output's. -/
def resultRange (cfg : W64) (l r : Tile) : Option (Nat × Nat) :=
  if r.rows = l.rows ∧ r.cols = l.cols then r.range (resultFmt cfg l) else none

/-- TMMA's checks. -/
def checkTmma (b cfg : W64) (d : Nat → Tile) (link : Bool) : Option (List (Nat × Nat)) :=
  let x := d (bits b 3 0)
  let y := d (bits b 7 4)
  let l := d (bits b 11 8)
  let n := (x.cols + 7) / 8
  match mxPair x.fmt y.fmt, operandRanges x link, operandRanges y link, l.ladderRange with
  | some pr, some ox, some oy, some lr =>
    if pr.2 ≠ l.fmt ∨ x.cols ≠ y.cols ∨ x.rows ≠ l.rows ∨ y.rows ≠ l.cols ∨ 4096 < l.positions ∨ 65535 < n
        ∨ 2 ^ 24 - 1 < l.count + n then none
    else if bit b 16 then
      (match resultRange cfg l (d (bits b 15 12)) with
        | some rr => rangesFit (ox.1 ++ oy.1) [lr, rr] (ox.2 ++ oy.2)
        | none => none)
    else rangesFit (ox.1 ++ oy.1) [lr] (ox.2 ++ oy.2)
  | _, _, _, _ => none

/-- The own-yard ranges of a matrix operation, or none where its trigger raises
ILLEGAL_BUNDLE. `d` gives the descriptors as the operations in flight leave them, `link`
says that the core has an upstream link. -/
def mxCheck (p : Nat) (b cfg : W64) (d : Nat → Tile) (link : Bool) : Option (List (Nat × Nat)) :=
  if epiCoupled cfg && !epiFmt (bits cfg 11 8) then none
  else
    let x := d (bits b 3 0)
    let y := d (bits b 7 4)
    match p with
    | 0x410 => checkTmma b cfg d link
    | 0x411 =>
      (match x.ladderRange, resultRange cfg x y with
        | some lr, some rr => if 4096 < x.positions then none else rangesFit [] [lr, rr] []
        | _, _ => none)
    | 0x412 =>
      (match x.ladderRange, y.ladderRange with
        | some xr, some yr =>
          if x.rows ≠ y.rows ∨ x.cols ≠ y.cols ∨ x.fmt ≠ y.fmt ∨ 4096 < x.positions ∨ 2 ^ 24 - 1 < x.count + y.count then none
          else rangesFit [] [xr, yr] []
        | _, _ => none)
    | _ => (match x.ladderRange with
        | some lr => (rangesFit [] [lr] []).map fun _ => []
        | none => none)

/-- The descriptors that an operation works on, in the order of Table 10.3. -/
def mxUses (p : Nat) (b : W64) : List Nat :=
  match p with
  | 0x410 => [bits b 3 0, bits b 7 4, bits b 11 8] ++ (if bit b 16 then [bits b 15 12] else [])
  | 0x411 | 0x412 => [bits b 3 0, bits b 7 4]
  | _ => [bits b 3 0]

/-- The ladder descriptor that an operation changes. -/
def mxLadder (p : Nat) (b : W64) : Nat := if p = 0x410 then bits b 11 8 else bits b 3 0

/-- Intervals of a TMMA (R299). -/
def mxSteps (a : Tile) : Nat := (a.cols + 7) / 8

/-- COUNT of every descriptor as the matrix operations in flight will leave it. -/
def Core.countsAhead (k : Core) : NMap Nat :=
  forEach (k.ops.filter (isUnit .mx)) (fun o m =>
    let x := mxLadder o.port o.b
    let now (d : Nat) : Nat := nget (k.tile d).count m d
    match o.port with
    | 0x410 => nset x (now x + mxSteps (tileOf ((nth o.desc 0).getD []))) m
    | 0x412 => nset x (now x + now (bits o.b 7 4)) m
    | 0x413 => nset x 0 m
    | _ => m) []

/-- A matrix trigger fires: the operation with its descriptors captured, or none for
ILLEGAL_BUNDLE. -/
def Core.fireMx (k : Core) (p : Nat) (b : W64) (link : Bool) : Option Core :=
  let r := k.newOp p b
  let ahead := k.countsAhead
  let d (i : Nat) : Tile := let t := k.tile i; { t with count := nget t.count ahead i }
  match mxCheck p b (r.2.operand 0x3C0) d link with
  | some spans => some (r.1.launchOp { r.2 with desc := (mxUses p b).map k.tileWords, spans := spans })
  | none => none

/-! ## Train links (R317) -/

/-- A neighbour named by a train field on core `c`'s die, if it names one. -/
def trainCore (c v : Nat) : Option Nat := if v < 1600 then some (dieOf c * 1600 + v) else none

/-- The upstream core, where the link is reciprocal. -/
def State.upstream (s : State) (c : Nat) : Option Nat :=
  match trainCore c (bits (s.core c).train 10 0) with
  | some x => if trainCore x (bits (s.core x).train 26 16) = some c then some x else none
  | none => none

/-- The downstream core, where the link is reciprocal. -/
def State.downstream (s : State) (c : Nat) : Option Nat :=
  match trainCore c (bits (s.core c).train 26 16) with
  | some y => if trainCore y (bits (s.core y).train 10 0) = some c then some y else none
  | none => none

/-- TRAIN_RAISE (R320). It makes the source pending at once, across an isolated or idle
border too: what 03 R86 and 04 R124 say of requests and train data leaves it open (DESIGN
CHOICE, log 60). -/
def State.trainRaise (s : State) (c : Nat) (b : W64) : State :=
  let up (s : State) : State := match s.upstream c with
    | some x => if bit b 0 then s.modCore x fun k => k.raise 5 else s
    | none => s
  match s.downstream c with
  | some y => if bit b 1 then (up s).modCore y fun k => k.raise 5 else up s
  | none => up s

end Sys2Proof.Machine
end

