-- ==== Sys2Proof/Machine/Matrix.lean ====
section
/-!
DEFINITION. The matrix array: interval steps, promotion, ladders, the epilogue, trains
(10 R299-R329, 08 R268-R271).
-/
namespace Sys2Proof.Machine

/-! ## Interval sums (R299-R302) -/

/-- Products of two lists of elements, zero where one has ended. -/
def productsOf (a b : List Val) : List (Val × Flags) := (a.zip b).map fun p => mulVal p.1 p.2

/-- A product on the grid of weight 2^u, nearest even. -/
def onGrid (u : Int) (v : Val) : Val :=
  match v with
  | .fin s m e => .fin s (roundAt {} s m e u false).1 u
  | x => x

/-- The largest exponent of the nonzero products. -/
def topExp (ps : List Val) : Option Int :=
  ps.foldl (fun m p => match p with
    | .fin _ k e => if k = 0 then m else some (match m with | some x => max x (leading k e) | none => leading k e)
    | _ => m) none

/-- The sum of an interval; `w` is the width of an aligned sum. -/
def intervalSum (w : Option Nat) (ps : List Val) : Val × Flags :=
  let plus := ps.any fun p => p == .inf false
  let minus := ps.any fun p => p == .inf true
  if ps.any Val.isNan || (plus && minus) then (.nan false, flInvalid)
  else if plus || minus then (.inf minus, 0)
  else
    let qs := match w, topExp ps with
      | some w, some e => ps.map (onGrid (e + 5 - w))
      | _, _ => ps
    let v := qs.foldl (fun v p => (addVal 0 v p).1) (.fin false 0 0)
    (if v.isZero then .fin false 0 0 else v, 0)

/-! ## The ladder's arithmetic (R304-R306, R311) -/

/-- Bytes of a ladder element, and its floating-point format; none for INT32. -/
def ladSize (fmt : Nat) : Nat := if fmt = 0 then 8 else 4
def ladFmt (fmt : Nat) : Option Fmt := if fmt = 0 then some fp64 else if fmt = 1 then some fp32 else none

def ladVal (fmt x : Nat) : Val :=
  match ladFmt fmt with
  | some f => f.decode x
  | none => intVal (sval 32 x) 0

/-- An addition in the ladder format. -/
def ladAdd (fmt : Nat) (sat : Bool) (x y : Nat) : Num :=
  match ladFmt fmt with
  | some f => f.add { sat := sat } x y
  | none => { bits := (x + y) % 2 ^ 32 }

/-- An interval sum promoted; INT32 wraps. -/
def promote (fmt : Nat) (rd : Rnd) (v : Val) : Num :=
  match ladFmt fmt with
  | some f => f.result rd v
  | none => match v with
    | .fin s m e => { bits := uval 32 (scaled s m e 0) }
    | _ => { bits := 0 }

/-- Full levels from level `l` up, looking at `n` of them. -/
def fullFrom (occ : Nat) : Nat → Nat → Nat
  | l, 0 => l
  | l, n + 1 => if occ.testBit l then fullFrom occ (l + 1) n else l

/-- Where one interval goes: the levels taken up, the level written, whether it folds,
and the new OCC (R306). -/
structure Carrying where
  taken : Nat
  target : Nat
  folds : Bool
  occ : Nat
  deriving DecidableEq, Repr

def carrying (occ depth : Nat) : Carrying :=
  let c := fullFrom occ 0 depth
  let rest := occ / 2 ^ c * 2 ^ c
  if occ.testBit c then { taken := c, target := depth, folds := true, occ := rest }
  else { taken := c, target := c, folds := false, occ := rest + 2 ^ c }

/-- OCC and FOLD after `n` intervals. -/
def evolve (depth n : Nat) (st : Nat × Bool) : Nat × Bool :=
  forN n (fun _ st => let c := carrying st.1 depth; (c.occ, st.2 || c.folds)) st

/-- Values joined from the highest level down (R311). -/
def collapseOf (fmt : Nat) (sat : Bool) : List Nat → Num
  | [] => { bits := 0 }
  | x :: t => t.foldl (fun r y => let q := ladAdd fmt sat r.bits y; { bits := q.bits, fl := r.fl ||| q.fl }) { bits := x }

/-- Occupied levels, highest first. -/
def levelsDown (occ depth : Nat) : List Nat := ((List.range (depth + 1)).reverse).filter fun l => occ.testBit l

/-! ## Epilogue (08 R269-R271) -/

def epiActivate (f : Fmt) (cfg lo hi : W64) (t : Nat) : Num :=
  let bound (x : W64) : Num := f.convert {} (fp32.decode (bits x 31 0))
  match bits cfg 3 1 with
  | 1 => f.minMax true t 0
  | 2 => f.func (if f.width = 64 then 0 else 1) 0x30E {} t
  | 3 => f.func (if f.width = 64 then 0 else 1) 0x30F {} t
  | 4 =>
    let a := f.minMax true t (bound lo).bits
    let b := f.minMax false a.bits (bound hi).bits
    { bits := b.bits, fl := a.fl ||| b.fl ||| (bound lo).fl ||| (bound hi).fl }
  | _ => { bits := t }

/-- An output element of column `j` through the epilogue. -/
def Core.epilogue (k : Core) (o : Op) (fmt x j : Nat) : Num :=
  let cfg := o.operand 0x3C0
  let f := if fmt = 0 then fp64 else fp32
  let x : Num := if fmt = 0xE then f.result {} (ladVal fmt x) else { bits := x }
  let s : Val := if bit cfg 18 then fp32.decode (bits (o.operand 0x3C1) 31 0) else .fin false 1 0
  let b : Val := if bit cfg 17 && decide (j < 8192 / f.width) then f.decode (k.elem (bits cfg 16 12) f.width j)
    else .fin false 0 0
  let v := fmaVal 0 false (f.decode x.bits) s b
  let rd := rndOf (o.operand 0x3C4).toNat (o.operand 0x805)
  let t := f.result { sat := rd.sat } v.1
  let a := epiActivate f cfg (o.operand 0x3C2) (o.operand 0x3C3) t.bits
  let y := toCode (bits cfg 11 8) (if rd.mode = 5 then { rd with mode := 0 } else rd) (f.decode a.bits)
  { bits := y.bits, fl := x.fl ||| v.2 ||| t.fl ||| a.fl ||| y.fl }

/-! ## An operation's parts -/

def Op.tileAt (o : Op) (i : Nat) : Tile := tileOf ((nth o.desc i).getD [])

/-- The ladder that an operation changes, and its result tile. -/
def Op.ladder (o : Op) : Tile := o.tileAt (if o.port = 0x410 then 2 else 0)
def Op.resultTile (o : Op) : Tile := o.tileAt (if o.port = 0x410 then 3 else 1)

/-- Whether an operation is coupled (08 R268). -/
def Op.coupled (o : Op) : Bool := isUnit .mx o && epiCoupled (o.operand 0x3C0)

/-- Intervals at each position. -/
def Op.mxPer (o : Op) : Nat := if o.port = 0x410 then mxSteps (o.tileAt 0) else 1

/-- Steps or positions committed (Table 10.4). -/
def Op.committed (o : Op) : Nat := o.index * o.mxPer + o.pos

/-- Positions to be done. -/
def Op.mxPositions (o : Op) : Nat := if o.port = 0x413 then 0 else o.ladder.positions

/-- Whether the next step writes the result tile (R310). -/
def Op.mxWrites (o : Op) : Bool := o.port == 0x411 || (o.port == 0x410 && bit o.b 16 && o.pos + 1 == o.mxPer)

/-- The ladder's round word. -/
def Op.mxRound (o : Op) : Rnd := (rndOf o.ladder.round (o.operand 0x805)).arith

/-- The outputs of a position. -/
def Tile.cellsAt (l : Tile) (pos : Nat) : List Nat × List Nat :=
  let r := 8 * (pos / l.posCols)
  let c := 8 * (pos % l.posCols)
  ((List.range 8).map fun i => r + i, (List.range (min 8 (l.cols - c))).map fun j => c + j)

/-- Yard offset of a level's element. -/
def Tile.levelOff (t : Tile) (l i j : Nat) : Nat := t.base + l * t.stride + i * t.pitch + j * ladSize t.fmt

def State.yardNum (s : State) (c off n : Nat) : Nat := ofBytes (s.yardRead (yardBase c + off) n).1

def State.levelVal (s : State) (c : Nat) (t : Tile) (l i j : Nat) : Nat := s.yardNum c (t.levelOff l i j) (ladSize t.fmt)

/-! ## Operands of a step -/

/-- Rows of an operand for one interval: raw elements and block scales. -/
structure Rows where
  values : List (List Nat)
  scales : List Nat
  deriving DecidableEq, Repr

/-- Where the elements of interval `t` of a row lie, and how many bytes. -/
def Tile.rowAt (x : Tile) (row t : Nat) : Nat × Nat :=
  let w := codeWidth x.fmt
  (x.base + row * x.pitch + t * w, (min 8 (x.cols - 8 * t) * w + 7) / 8)

def Tile.scaleAt (x : Tile) (row t : Nat) : Nat := x.scale + row * ((x.cols + 31) / 32) + t / 4

/-- Bytes that rows of an operand take, for the link's buffer. -/
def Tile.rowsBytes (x : Tile) (rows : Nat) (t : Nat) : Nat :=
  rows * ((x.rowAt 0 t).2 + if isMx x.fmt then 1 else 0)

def State.rowsOf (s : State) (c : Nat) (x : Tile) (rows : List Nat) (t : Nat) : Rows :=
  let w := codeWidth x.fmt
  { values := rows.map fun r =>
      let p := x.rowAt r t
      let v := s.yardNum c p.1 p.2
      (List.range (min 8 (x.cols - 8 * t))).map fun e => (v >>> (w * e)) % 2 ^ w
    scales := if isMx x.fmt then rows.map fun r => s.yardNum c (x.scaleAt r t) 1 else [] }

def Tile.rowReads (x : Tile) (rows : List Nat) (t : Nat) : List (Nat × Nat) :=
  if x.src = 1 then []
  else rows.map (fun r => x.rowAt r t) ++ (if isMx x.fmt then rows.map (fun r => (x.scaleAt r t, 1)) else [])

/-- The values of one row. -/
def Rows.vals (x : Rows) (fmt i : Nat) : List Val :=
  ((nth x.values i).getD []).map fun e => codeValue fmt e ((nth x.scales i).getD 0)

/-- The first step of a stream in a link's buffer. -/
def trainStep (isB : Bool) (l : List TrainItem) : Option Rows :=
  match firstIf (fun x => match x with | .step b .. => b == isB | .header b .. => b == isB) l with
  | some (.step _ v sc _) => some { values := v, scales := sc }
  | _ => none

def isKind (isB : Bool) : TrainItem → Bool
  | .step b .. => b == isB
  | .header b .. => b == isB

/-- The rows of operand A or B for the next step; none where they have not come. -/
def State.operandRows (s : State) (c : Nat) (o : Op) (isB : Bool) : Option Rows :=
  let x := o.tileAt (b2n isB)
  let cells := o.ladder.cellsAt o.index
  if x.src = 1 then
    (if o.pass.testBit (b2n isB) then trainStep isB (s.core c).trainIn else none)
  else some (s.rowsOf c x (if isB then cells.2 else cells.1) o.pos)

/-! ## One step -/

/-- What a step does: yard bytes read (offset, length), values written (offset, bytes,
value), flags, and a trap with the output's place. -/
structure StepOut where
  reads : List (Nat × Nat) := []
  writes : List (Nat × Nat × Nat) := []
  fl : Flags := 0
  trap : Option (Nat × Nat) := none
  deriving DecidableEq, Repr

/-- One output joins a step, unless an earlier one traps; the flags of the one that traps
are set (07 R222). -/
def StepOut.join (k : Core) (r : StepOut) (place : Nat) (writes : List (Nat × Nat × Nat)) (fl : Flags) : StepOut :=
  if r.trap.isSome then r
  else match k.laneTrap fl with
    | some code => { r with trap := some (code, place), fl := r.fl ||| fl }
    | none => { r with writes := r.writes ++ writes, fl := r.fl ||| fl }

/-- The write of an output element, and its flags. -/
def Core.outWrite (k : Core) (o : Op) (i j x : Nat) : (Nat × Nat × Nat) × Flags :=
  let t := o.resultTile
  let l := o.ladder
  if o.coupled then
    let y := k.epilogue o l.fmt x j
    let n := codeWidth (bits (o.operand 0x3C0) 11 8) / 8
    ((t.base + i * t.pitch + j * n, n, y.bits), y.fl)
  else ((t.base + i * t.pitch + j * ladSize l.fmt, ladSize l.fmt, x), 0)

/-- Yard bytes of some levels of a position. -/
def Tile.levelReads (t : Tile) (ls : List Nat) (cells : List Nat × List Nat) : List (Nat × Nat) :=
  ls.flatMap fun l => cells.1.map fun i => (t.levelOff l i (cells.2.headD 0), cells.2.length * ladSize t.fmt)

/-- An interval joins the ladder at output (i, j) (R304-R306): the value, with the flags
of forming it. -/
def State.ladderAdd (s : State) (c : Nat) (o : Op) (cy : Carrying) (i j : Nat) (sum : Val × Flags) : Num :=
  let l := o.ladder
  let rd := o.mxRound
  let r := if rd.mode = 5 then
      positionBits l.seed (l.rowOrg + i) (l.colOrg + j) (l.kOrg + o.res.toNat + o.pos) rd.n else 0
  let p := promote l.fmt { rd with r := r } sum.1
  let ls := List.range cy.taken ++ (if cy.folds then [l.depth] else [])
  ls.foldl (fun q v =>
    let x := ladAdd l.fmt rd.sat (s.levelVal c l v i j) q.bits
    { bits := x.bits, fl := q.fl ||| x.fl }) { bits := p.bits, fl := sum.2 ||| p.fl }

/-- One interval step of a TMMA (R299-R310). -/
def State.tmmaStep (s : State) (c : Nat) (o : Op) (a b : Rows) : StepOut :=
  let k := s.core c
  let x := o.tileAt 0
  let y := o.tileAt 1
  let l := o.ladder
  let cells := l.cellsAt o.index
  let cy := carrying o.occ l.depth
  let w := match mxPair x.fmt y.fmt with | some p => p.1 | none => none
  let down := if o.mxWrites then levelsDown cy.occ l.depth else []
  let old := down.filter (· != cy.target)
  let reads := x.rowReads cells.1 o.pos ++ y.rowReads cells.2 o.pos
    ++ l.levelReads (List.range cy.taken ++ (if cy.folds then [l.depth] else []) ++ old) cells
  let one (r : StepOut) (p : (Nat × Nat) × (Nat × Nat)) : StepOut :=
    let i := p.1.1
    let j := p.2.1
    let ps := productsOf (a.vals x.fmt p.1.2) (b.vals y.fmt p.2.2)
    let v := s.ladderAdd c o cy i j (intervalSum w (ps.map Prod.fst))
    let place := l.levelOff 0 i j
    let main := (l.levelOff cy.target i j, ladSize l.fmt, v.bits)
    if o.mxWrites then
      let z := collapseOf l.fmt o.mxRound.sat (down.map fun q => if q = cy.target then v.bits else s.levelVal c l q i j)
      let out := k.outWrite o i j z.bits
      r.join k place [main, out.1] (v.fl ||| z.fl ||| out.2)
    else r.join k place [main] v.fl
  let idx (l : List Nat) : List (Nat × Nat) := l.zip (List.range l.length)
  ((idx cells.1).flatMap fun i => (idx cells.2).map fun j => (i, j)).foldl one { reads := reads }

/-- One position of a TCOLLAPSE (R311). -/
def State.collapseStep (s : State) (c : Nat) (o : Op) : StepOut :=
  let k := s.core c
  let l := { o.ladder with occ := o.occ }
  let cells := l.cellsAt o.index
  let down := levelsDown l.occ l.depth
  let one (r : StepOut) (p : Nat × Nat) : StepOut :=
    let z := collapseOf l.fmt o.mxRound.sat (down.map fun q => s.levelVal c l q p.1 p.2)
    let out := k.outWrite o p.1 p.2 z.bits
    r.join k (l.levelOff 0 p.1 p.2) [out.1] (z.fl ||| out.2)
  (cells.1.flatMap fun i => cells.2.map fun j => (i, j)).foldl one { reads := l.levelReads down cells }

/-- The level that a pairwise merge takes, if it is one (R312). -/
def mergeLevel (d e : Tile) : Option Nat :=
  let i := Nat.log2 d.occ
  if d.occ ≠ 0 ∧ d.occ = 2 ^ i ∧ e.occ = d.occ ∧ i < d.depth ∧ d.count = e.count ∧ e.kOrg = d.kOrg + d.count then some i
  else none

/-- One position of a TMERGE (R312). -/
def State.mergeStep (s : State) (c : Nat) (o : Op) : StepOut :=
  let k := s.core c
  let d := o.tileAt 0
  let e := o.tileAt 1
  let sat := o.mxRound.sat
  let cells := d.cellsAt o.index
  let places := cells.1.flatMap fun i => cells.2.map fun j => (i, j)
  match mergeLevel d e with
  | some m =>
    let one (r : StepOut) (p : Nat × Nat) : StepOut :=
      let z := ladAdd d.fmt sat (s.levelVal c d m p.1 p.2) (s.levelVal c e m p.1 p.2)
      r.join k (d.levelOff 0 p.1 p.2) [(d.levelOff (m + 1) p.1 p.2, ladSize d.fmt, z.bits)] z.fl
    places.foldl one { reads := d.levelReads [m] cells ++ e.levelReads [m] cells }
  | none =>
    let down := levelsDown e.occ e.depth
    let top := d.occ.testBit d.depth
    let one (r : StepOut) (p : Nat × Nat) : StepOut :=
      let z := collapseOf d.fmt sat (down.map fun q => s.levelVal c e q p.1 p.2)
      let y := if top then ladAdd d.fmt sat (s.levelVal c d d.depth p.1 p.2) z.bits else { bits := z.bits }
      r.join k (d.levelOff 0 p.1 p.2) [(d.levelOff d.depth p.1 p.2, ladSize d.fmt, y.bits)] (z.fl ||| y.fl)
    places.foldl one { reads := e.levelReads down cells ++ (if top then d.levelReads [d.depth] cells else []) }

/-! ## Committing -/

/-- Values written into the own yard, word by word, and whether one met an error. -/
def State.yardPut (s : State) (c : Nat) (ws : List (Nat × Nat × Nat)) : State × Bool :=
  let put (m : NMap Byte) (w : Nat × Nat × Nat) : NMap Byte :=
    (((toBytes w.2.1 w.2.2).zip (List.range w.2.1)).foldl (fun m b => nset (yardBase c + w.1 + b.2) b.1 m) m)
  let m := ws.foldl put []
  let words := (m.foldl (fun l b => nset (b.1 / 8 * 8) () l) ([] : NMap Unit)).map Prod.fst
  words.foldl (fun p w =>
    let r := p.1.yardWriteWord w ((List.range 8).map fun i => nfind m (w + i))
    (r.1, p.2 || r.2)) (s, false)

/-- A stopped matrix operation goes to its suspend slot, or is abandoned where the slot is
held (06 R194, R199; log 38). -/
def Core.toMxSlot (k : Core) (o : Op) : Core :=
  let k := { k with ops := k.ops.filter fun q => q.id != o.id }
  match k.slotMx with
  | none => { k with
      slotMx := some o
      due := mapIf (fun d => d.waitOp == some o.id) (fun d => { d with filled := d.filled ||| 2 }) k.due }
  | some _ => k

/-- A fault of a matrix operation (R328): its step is not committed. -/
def Core.mxFault (k : Core) (o : Op) (code addr : Nat) : Core :=
  let k := { k with ports := nset 0x402 (BitVec.ofNat 64 o.committed) k.ports }
  Core.toMxSlot (k.fault { code := code, addr := addr, waitOp := some o.id }) o

/-- A step's outcome takes effect: a yard error, a trap, or its writes; `o` is the
operation with the step counted. -/
def State.mxCommit (s : State) (c : Nat) (was o : Op) (r : StepOut) (ecc : Ecc) : State :=
  let s := match r.reads.head? with
    | some q => s.yardEcc (yardBase c + q.1) ecc
    | none => s
  match (r.reads.filterMap fun q => s.firstBadWord (yardBase c + q.1) q.2).head? with
  | some w => s.uncorrYard c w
  | none =>
    match r.trap with
    | some t => s.modCore c fun k => (k.flag r.fl).mxFault was t.1 (s.yardGlobal c + t.2)
    | none =>
      let p := s.yardPut c r.writes
      if p.2 then
        (match (r.writes.filterMap fun q => s.firstBadMerge (yardBase c + q.1) ((toBytes q.2.1 q.2.2).map some)).head? with
          | some w => s.uncorrYard c w
          | none => s)
      else p.1.modCore c fun k => (k.flag r.fl).modOp o.id fun _ => o

/-! ## Order (R324; 12 R387, R388; 13 R407; 08 R255, R268) -/

/-- Whether an earlier TMOVE touches the operation's tiles. -/
def State.moveMeets (s : State) (c : Nat) (q o : Op) : Bool :=
  q.port == 0x428 && (List.range q.mvRows).any fun r => decide (q.index ≤ r) &&
    [q.mvSrc r, q.mvDst r].any fun a => match s.ownRange c a q.mvBytes with
      | some x => o.spans.any (crosses x)
      | none => false

/-- Whether the oldest matrix operation must wait before its next step: for earlier loads, and
earlier stores to its yard (12 R384). The tile mover runs beside it, but for bytes that both
touch (R322, R324; log 60). -/
def State.mxWaits (s : State) (c : Nat) (o : Op) : Bool :=
  let k := s.core c
  let cfg := o.operand 0x3C0
  k.accs.any (fun a => decide (a.op < o.id) && !a.done && (a.kind.isLoad
      || (a.kind.isStore && s.destOf a.addr == .yard c)))
    || k.ops.any (fun q => decide (q.id < o.id)
        && (isFence q.port || q.port == 0x691 || q.port == 0x692
            || (inRange 0x710 0x714 q.port && !isAsync (q.operand 0x703)) || s.moveMeets c q o
            || (isUnit .vec q && q.stage == .queued)))
    || (o.coupled && o.mxWrites && (k.ops.any (fun q => decide (q.id < o.id) && isUnit .vec q)
        || (bit cfg 17 && k.regBusy o.id [bits cfg 16 12] [])))

/-- A captured descriptor with OCC, FOLD and COUNT as it now holds them. -/
def mixLadder (old now : List W64) : List W64 :=
  (old.zip (List.range old.length)).map fun p =>
    let x := (nth now p.2).getD 0
    if p.2 = 2 then mergeMask p.1 x 0x0000_07FF_FE00_0000 else if p.2 = 3 then mergeMask p.1 x 0xFF_FFFF else p.1

/-- OCC, FOLD and COUNT of the ladders as the operation finds them when it begins, or goes
on after a suspension (R307, R327). -/
def Core.mxBegin (k : Core) (o : Op) : Op :=
  if o.pass.testBit 2 then o
  else
    let t := k.tile (mxLadder o.port o.b)
    let st := evolve o.ladder.depth o.pos (t.occ, t.fold)
    { o with
      desc := (o.desc.zip (mxUses o.port o.b)).map fun p => mixLadder p.1 (k.tileWords p.2)
      pass := o.pass + 4, res := BitVec.ofNat 64 t.count, res2 := pack [(0, t.occ), (17, b2n t.fold)]
      occ := st.1, fold := st.2 }

/-- OCC and FOLD at the start of every position. -/
def Op.mxStart (o : Op) : Nat × Bool := (bits o.res2 16 0, bit o.res2 17)

/-! ## Trains (R317-R321) -/

/-- Whether train data that crosses a border is turned away, and whether it waits at the
sender's idle border (03 R86, 04 R124). -/
def State.trainShut (s : State) (from_ dest : Nat) : Bool :=
  regionOf from_ != regionOf dest && s.isolated dest && !s.isolated from_
def State.trainIdle (s : State) (from_ dest : Nat) : Bool := regionOf from_ != regionOf dest && s.isolated from_

def TrainItem.size : TrainItem → Nat
  | .step _ _ _ n => n
  | .header .. => 0

/-- An item reaches a link's buffer; what follows a mismatch is dropped up to the next
header (R319). -/
def Core.takeTrain (k : Core) (x : TrainItem) : Core :=
  match x with
  | .header b .. => { k with trainIn := k.trainIn ++ [x], trainSkip := k.trainSkip &&& ~~~BitVec.ofNat 2 (2 ^ b2n b) }
  | .step b .. => if k.trainSkip.getLsbD (b2n b) then k else { k with trainIn := k.trainIn ++ [x] }

/-- What a step sends downstream: a header before an operation's first step (R318). -/
def Op.trainItems (o : Op) (a b : Rows) : List TrainItem :=
  let l := o.ladder
  let one (isB : Bool) (r : Rows) : List TrainItem :=
    let x := o.tileAt (b2n isB)
    let head := if o.hdr then [] else [TrainItem.header isB x.rows x.cols x.fmt l.rows l.cols]
    head ++ [.step isB r.values r.scales (x.rowsBytes r.values.length o.pos)]
  (if bit o.b 17 then one false a else []) ++ (if bit o.b 18 then one true b else [])

/-- The first step of a kind leaves a buffer. -/
def Core.eatTrain (k : Core) (isB : Bool) : Core := { k with trainIn := eraseFirst (isKind isB) k.trainIn }

/-! ## INTERVAL_STEP -/

/-- A step of a TMMA with its operands at hand, sending nothing or with room to send. -/
def State.doStep (s : State) (c : Nat) (o : Op) (a b : Rows) (send : Option Nat) (ecc : Ecc) : State :=
  let r := s.tmmaStep c o a b
  let cy := carrying o.occ o.ladder.depth
  let last := o.pos + 1 == o.mxPer
  let z := o.mxStart
  let o' := { o with
    index := if last then o.index + 1 else o.index, pos := if last then 0 else o.pos + 1
    occ := if last then z.1 else cy.occ, fold := if last then z.2 else o.fold || cy.folds, hdr := true }
  let t := s.mxCommit c o o' r ecc
  if (t.core c).ops.any fun q => q == o' then
    let t := t.modCore c fun k =>
      let k := if (o.tileAt 0).src = 1 then k.eatTrain false else k
      if (o.tileAt 1).src = 1 then k.eatTrain true else k
    match send with
    | some y => forEach (o.trainItems a b) (fun x t => t.modCore y fun k => k.takeTrain x) t
    | none => t
  else t

/-- INTERVAL_STEP: one step of the oldest matrix operation, once its operands are
ready. -/
def State.intervalStep (s : State) (c : Nat) (ecc : Ecc) : State :=
  let k := s.core c
  match k.oldest (isUnit .mx) with
  | none => s
  | some o =>
    let o := k.mxBegin o
    if o.port != 0x410 || decide (o.mxPositions ≤ o.index) || s.mxWaits c o then s
    else
      match s.operandRows c o false, s.operandRows c o true with
      | some a, some b =>
        let sends := bit o.b 17 || bit o.b 18
        (match (if sends then s.downstream c else none) with
          | some y =>
            let size := sumBy TrainItem.size (o.trainItems a b)
            if s.trainIdle c y then s
            else if s.trainShut c y then s.modCore c fun k => k.mxFault o 3 (s.yardGlobal y)
            else if 1024 < sumBy TrainItem.size (s.core y).trainIn + size then s
            else s.doStep c o a b (some y) ecc
          | none => s.doStep c o a b none ecc)
      | a, b =>
        match s.upstream c with
        | some x =>
          let dry (isB : Bool) (r : Option Rows) : Bool := r.isNone && !(k.trainIn.any (isKind isB))
          if s.trainShut c x && (dry false a || dry true b) then
            s.modCore c fun k => k.mxFault o 3 (s.yardGlobal x)
          else s
        | none => s

def execIntervalStep (c : Nat) (ecc : Ecc) (s : State) : Host.Outcome State Fault Refusal :=
  need (Instr.intervalStep c ecc).WellFormed s fun s => whenUp s fun s => s.intervalStep c ecc

/-! ## TRAIN_HEADER (R318, R319) -/

/-- The rest of a stream before its next header is dropped. -/
def dropStream (isB : Bool) : List TrainItem → List TrainItem
  | [] => []
  | x :: t =>
    match x with
    | .step b .. => if b = isB then dropStream isB t else x :: dropStream isB t
    | .header b .. => if b = isB then x :: t else x :: dropStream isB t

/-- The header of operand A's or B's stream is taken, if it has come and is awaited. -/
def State.headerFor (s : State) (c : Nat) (isB : Bool) : State :=
  let k := s.core c
  match k.oldest (isUnit .mx) with
  | none => s
  | some o =>
    let x := o.tileAt (b2n isB)
    let l := o.ladder
    if o.port != 0x410 || x.src != 1 || o.pass.testBit (b2n isB) then s
    else
      let rest := dropStream isB k.trainIn
      match firstIf (isKind isB) rest with
      | some (.header _ rows cols fmt lrows lcols) =>
        let rest := eraseFirst (isKind isB) rest
        if rows = x.rows ∧ cols = x.cols ∧ fmt = x.fmt ∧ lrows = l.rows ∧ lcols = l.cols then
          s.setCore c (({ k with trainIn := rest } : Core).modOp o.id fun o => { o with pass := o.pass + 2 ^ b2n isB })
        else
          let rest := dropStream isB rest
          let open_ := !(rest.any (isKind isB))
          let addr := match s.upstream c with | some x => s.yardGlobal x | none => 0
          let k := { k with
            trainIn := rest, trainMismatch := true
            trainSkip := if open_ then k.trainSkip ||| BitVec.ofNat 2 (2 ^ b2n isB) else k.trainSkip }
          s.setCore c (k.mxFault o 3 addr)
      | _ => s

def execTrainHeader (c : Nat) (s : State) : Host.Outcome State Fault Refusal :=
  need (Instr.trainHeader c).WellFormed s fun s => whenUp s fun s => (s.headerFor c false).headerFor c true

/-! ## MATRIX_OP_COMPLETE -/

/-- A matrix operation completes: its ladder's OCC, COUNT and FOLD follow from those that it
found when it began (R329), and MX_DONE. -/
def Core.mxFinish (k : Core) (o : Op) : Core :=
  let o := k.mxBegin o
  let d := mxLadder o.port o.b
  let t := o.ladder
  let k := match o.port with
    | 0x410 =>
      let st := evolve o.ladder.depth o.mxPer o.mxStart
      k.putLadder d st.1 (o.res.toNat + o.mxPer) st.2
    | 0x412 =>
      let e := o.tileAt 1
      (match mergeLevel t e with
        | some i => k.putLadder d (2 ^ (i + 1)) (t.count + e.count) t.fold
        | none => k.putLadder d (t.occ ||| 2 ^ t.depth) (t.count + e.count) true)
    | 0x413 => k.putLadder d 0 0 false
    | _ => k
  let k := k.finish o []
  { k with ports := nset 0x402 (BitVec.ofNat 64 o.committed) k.ports }

/-- One position of a TCOLLAPSE or TMERGE. -/
def State.positionStep (s : State) (c : Nat) (o : Op) (ecc : Ecc) : State :=
  s.mxCommit c o { o with index := o.index + 1 } (if o.port = 0x411 then s.collapseStep c o else s.mergeStep c o) ecc

/-- Up to `n` positions of the oldest matrix operation, a TCOLLAPSE or TMERGE. -/
def State.runPositions (s : State) (c id : Nat) : Ecc → Nat → State
  | _, 0 => s
  | ecc, n + 1 =>
    match (s.core c).opOf id with
    | some o =>
      let o := (s.core c).mxBegin o
      if o.index < o.mxPositions then State.runPositions (s.positionStep c o ecc) c id .clean n else s
    | none => s

/-- MATRIX_OP_COMPLETE: TMMA once its steps are done; the others are performed here. -/
def State.matrixComplete (s : State) (c : Nat) (ecc : Ecc) : State :=
  match (s.core c).oldest (isUnit .mx) with
  | none => s
  | some o =>
    if s.mxWaits c o then s
    else
      let s := if o.port = 0x410 then s else s.runPositions c o.id ecc (o.mxPositions - o.index)
      match (s.core c).opOf o.id with
      | some o => if o.mxPositions ≤ o.index then s.modCore c fun k => k.mxFinish o else s
      | none => s

def execMatrixOpComplete (c : Nat) (ecc : Ecc) (s : State) : Host.Outcome State Fault Refusal :=
  need (Instr.matrixOpComplete c ecc).WellFormed s fun s => whenUp s fun s => s.matrixComplete c ecc

/-! ## TMOVE_COMPLETE (R322; 13 R409) -/

/-- TMOVE_COMPLETE: the oldest copy whose rows are all written leaves flight; MV_DONE
takes its rows, and its signal is due. -/
def Core.moveComplete (k : Core) : Core :=
  match k.oldest (isUnit .mv) with
  | none => k
  | some o =>
    if (decide (o.index < o.mvRows) && o.mvBytes != 0) || !k.accsDone o.id then k
    else
      let k := k.finish o []
      let k := { k with ports := nset 0x429 (BitVec.ofNat 64 o.mvRows) k.ports }
      match o.carry with
      | some y => { k with carriedDue := k.carriedDue ++ [y] }
      | none => k

def execTmoveComplete (c : Nat) (s : State) : Host.Outcome State Fault Refusal :=
  need (Instr.tmoveComplete c).WellFormed s fun s => whenUp s fun s => s.modCore c Core.moveComplete

end Sys2Proof.Machine
end

