-- ==== Sys2Proof/Machine/Traps.lean ====
section
/-!
DEFINITION. Interrupts, exceptions, the frame and the return (06).
-/
namespace Sys2Proof.Machine

/-! ## Sources (06 Table 6.1, R184-R186) -/

def isEdge (i : Nat) : Bool := i == 0 || i == 2 || i == 4 || i == 5 || i == 6

def Core.priority (k : Core) (i : Nat) : Nat := bits k.intPriority (2 * i + 1) (2 * i)

def Core.wants (k : Core) (i : Nat) : Bool := bit k.intPending i && bit k.intEnable i

/-- The source that R186 chooses above a level, with its priority. -/
def Core.chosen (k : Core) (above : Option Nat) : Option (Nat × Nat) :=
  let outranks (p : Nat) : Bool := match above with | some l => decide (l < p) | none => true
  (List.range 7).foldl (fun best i =>
    let p := k.priority i
    let better : Bool := match best with | some b => decide (b.2 < p) | none => true
    if k.wants i && outranks p && better then some (i, p) else best) none

def Core.promptMode (k : Core) (i : Nat) : Bool := bit k.intMode.cur i

def Core.longBusy (k : Core) : Bool := k.ops.any fun o => (longUnit o.port).isSome

/-! ## Exceptions due (R188, R203) -/

/-- An exception due waits until its operation has left flight. -/
def Core.dueReady (k : Core) (d : Due) : Bool :=
  match d.waitOp with
  | some id => !k.inFlight id
  | none => true

/-- The exception taken next: that of the bundle itself before any other. -/
def Core.nextDue (k : Core) : Option Due :=
  match firstIf (fun d => d.resume.isSome) k.due with
  | some d => if k.dueReady d then some d else none
  | none => firstIf k.dueReady k.due

/-- Whether an exception that is due keeps the next bundle from beginning (05 R160), also
where its operation has lower elements or rows still to complete (R199). -/
def Core.dueBlocks (k : Core) : Bool := !k.due.isEmpty

/-! ## Addresses of vector and tile-mover operations (08 R260-R263, 10 R322, R323) -/

/-- The first place of [a, a + n) where such an operation may not go. -/
def badPlace (a n : Nat) : Option Nat :=
  (firstIf (fun p : Nat × Nat × Nat => !memoryLike (p.1 % 2 ^ 56)) (pieces a n)).map fun p => p.1 % 2 ^ 56

/-- The accesses of a VLOAD or VSTORE from its index on, one for each line that it
touches, below the first active element whose address faults; that element. -/
def Core.vecAccesses (k : Core) (o : Op) : Core × Option Nat :=
  let v := o.vec
  let n := v.w / 8
  let base := bits (o.operand 0x202) 55 0
  let active (i : Nat) : Bool := decide (o.index ≤ i) && k.laneOn v i
  let bad := firstIf (fun i => active i && (badPlace (o.elemAddr i) n).isSome) (List.range v.vl)
  let stop := bad.getD v.vl
  let mark (q : Nat) : Option Byte := if active (q / n) && decide (q / n < stop) then some 0 else none
  let lines := (pieces base (stop * n)).map fun p => (p.1, (List.range p.2.2).map fun i => mark (p.2.1 + i))
  let kind : AccKind := if o.port = 0x210 then .load else .store
  ((lines.filter fun p => p.2.any Option.isSome).foldl
    (fun k p => k.addAcc o.id kind (p.1 % 2 ^ 56) p.2 0 0) k, bad)

/-- The first row, from its index on, whose address faults, with the place. -/
def Op.badRow (o : Op) : Option (Nat × Nat) :=
  let at_ (r : Nat) : Option Nat :=
    match badPlace (o.mvSrc r) o.mvBytes with
    | some a => some a
    | none => badPlace (o.mvDst r) o.mvBytes
  (firstIf (fun r => decide (o.index ≤ r) && (at_ r).isSome) (List.range o.mvRows)).bind fun r =>
    (at_ r).map fun a => (r, a)

/-- Whether a VLOAD or VSTORE awaits the mask that says which elements it touches (08
R256). -/
def Op.maskWaits (o : Op) (k : Core) : Bool := o.vecMem && o.vec.men && k.regBusy o.id [32 + o.vec.mreg] []

/-- A VLOAD, VSTORE or TMOVE in flight sends its accesses out; `resume` is that of the
exception that a faulting address raises. -/
def Core.sendOut (k : Core) (o : Op) (resume : Option Nat) : Core :=
  if o.port = 0x428 then
    match o.badRow with
    | some b =>
      let k := k.fault { code := 3, resume := resume, addr := b.2, waitOp := some o.id }
      let o := { o with limit := some b.1 }
      let k := k.modOp o.id fun _ => o
      if b.1 = o.index then k.toMvSlot o true else k.mvRow o
    | none => k.mvRow o
  else if o.vecMem then
    let r := k.vecAccesses o
    match r.2 with
    | some i =>
      let k := r.1.fault { code := 3, resume := resume, addr := o.elemAddr i, waitOp := some o.id }
      k.modOp o.id fun o => { o with limit := some i }
    | none => r.1
  else k

/-! ## Suspension (R193, R194, Table 6.2) -/

def Core.slotOf (k : Core) (u : LongUnit) : Option Op :=
  match u with
  | .vec => k.slotVec | .mx => k.slotMx | .mv => k.slotMv | .cv => k.slotCv

/-- VECTOR_OP_COMPLETE: the oldest vector operation is performed; an access that has awaited
its mask sends out its accesses. -/
def Core.vecStep (k : Core) : Core :=
  match k.oldest (isUnit .vec) with
  | some o =>
    if o.stage = .queued then
      (if o.maskWaits k then k
       else
        let o := { o with stage := .running }
        (k.modOp o.id fun _ => o).sendOut o none)
    else if k.vecReady o then k.vecDone o
    else k
  | none => k

def execVectorOpComplete (c : Nat) (s : State) : Host.Outcome State Fault Refusal :=
  need (Instr.vectorOpComplete c).WellFormed s fun s => whenUp s fun s => s.modCore c Core.vecStep

/-- FILLED bits for the slots that hold an operation now and did not before. -/
def filledBits (before after : Core) : BitVec 4 :=
  let f (u : LongUnit) (i : Nat) : Nat := if (before.slotOf u).isNone && (after.slotOf u).isSome then 2 ^ i else 0
  BitVec.ofNat 4 (f .vec 0 + f .mx 1 + f .mv 2 + f .cv 3)

/-- The lowest element of a vector access that is not yet done. -/
def Core.vecFront (k : Core) (o : Op) : Nat :=
  (k.accs.filter fun a => a.op == o.id && !a.accepted).foldl (fun m a => min m (o.elemAt a.first)) o.vec.vl

/-- Whole element groups of `g` elements that hold the first `i` ones. -/
def groupsOf (g i : Nat) : Nat := (i + g - 1) / g

/-- The vector operation stops after its current element group and `n` more (R193, 08 R264,
09 R292); none where it must run on first. -/
def Core.suspendVec (k : Core) (o : Op) (n : Nat) : Option Core :=
  let v := o.vec
  let g := 128 / v.w
  if o.stage = .queued ∨ k.vecFree o = false ∨ (isMaskOp o.port ∧ n = 0) then some (k.toVecSlot o)
  else if isMaskOp o.port ∨ o.port = 0x343 ∨ o.port = 0x383 then some (k.vecDone o)
  else if o.port == 0x211 && k.accs.any (fun a => a.op == o.id && (a.stage == .atSlice || a.stage == .sent)) then none
  else
    let most := if o.vecMem then k.vecFront o else v.vl
    let last := groupsOf g o.index + n
    let stop := if v.vl ≤ most then min v.vl (last * g) else min (last * g) (most / g * g)
    if stop < o.index then none
    else
      let r := k.runVec o stop (min v.vl ((last - groupsOf g v.vl) * g))
      match r.2.2.2 with
      | some code => some (r.1.vecTrap r.2.1 code)
      | none =>
        if r.2.1.index < v.vl then some (r.1.toVecSlot r.2.1) else some (r.1.vecEnd r.2.1 r.2.2.1)

/-- The conversion stops after its current element group and `n` more. -/
def Core.suspendCv (k : Core) (o : Op) (n : Nat) : Option Core :=
  let fmt := o.operand 0x603
  let t := o.regSets
  if k.regBusy o.id t.1 t.2 then some (k.toCvSlot o)
  else if o.port = 0x612 then (if n = 0 then some (k.toCvSlot o) else some (k.cvDone o))
  else
    let count := cvCount fmt o.b
    let g := 128 / max (codeWidth (bits fmt 3 0)) (codeWidth (bits fmt 11 8))
    let r := k.runCv o (min count ((groupsOf g o.index + n) * g))
    match r.2.2.2 with
    | some code => some (Core.toCvSlot (r.1.fault { code := code, waitOp := some o.id }) r.2.1)
    | none =>
      if r.2.1.index < count then some (r.1.toCvSlot r.2.1)
      else some (r.1.finish o [BitVec.ofNat 64 count])

/-- The TMOVE stops between two rows. -/
def Core.suspendMv (k : Core) (o : Op) : Option Core :=
  if o.index < o.mvRows ∧ o.mvBytes ≠ 0 then
    if o.pass = 0 then some (k.toMvSlot { o with buf := [] } false) else none
  else if k.accsDone o.id then some k.moveComplete else none

/-- A TMMA stops after `n` more interval steps, where its steps are whole (R193); the
others after `n` positions. -/
def State.stepsMore (s : State) (c : Nat) (o : Op) (n : Nat) : State :=
  if o.port = 0x410 then
    (if wholeStep (o.tileAt 0).fmt then
      forN n (fun _ s => if (s.core c).inFlight o.id then s.intervalStep c .clean else s) s
     else s)
  else if s.mxWaits c o then s
  else s.runPositions c o.id .clean n

def State.suspendMx (s : State) (c : Nat) (o : Op) (n : Nat) : State :=
  let s := s.stepsMore c o n
  match (s.core c).opOf o.id with
  | none => s
  | some o =>
    s.modCore c fun k => if o.mxPositions ≤ o.index ∧ s.mxWaits c o = false then k.mxFinish o else k.toMxSlot o

/-- A unit's operation in flight is stopped (R194); none where it must run to its end
first. Nothing more is stopped once an exception beyond the first `n` has come up, which
is taken before (R188). -/
def State.suspendUnit (s : State) (c : Nat) (p : Progress) (n : Nat) (u : LongUnit) : Option State :=
  let k := s.core c
  if n < k.due.length then some s
  else match k.ops.filter (isUnit u) with
    | [] => some s
    | [o] =>
      if (k.slotOf u).isSome || k.due.any (fun d => d.waitOp == some o.id) then none
      else match u with
        | .vec => (k.suspendVec o p.vec).map (s.setCore c)
        | .cv => (k.suspendCv o p.cv).map (s.setCore c)
        | .mv => (k.suspendMv o).map (s.setCore c)
        | .mx => some (s.suspendMx c o p.mx)
    | _ => none

/-- Every unit's operation in flight is stopped, or those up to the first one whose stop
raises an exception, whose entry then records all of their slots (R201). -/
def State.suspendAll (s : State) (c : Nat) (p : Progress) : Option State :=
  let n := (s.core c).due.length
  let r := [LongUnit.vec, .cv, .mx, .mv].foldl (fun r u => r.bind fun s => s.suspendUnit c p n u) (some s)
  r.map fun t => t.modCore c fun k =>
    match k.due.drop n with
    | d :: rest => { k with due := k.due.take n ++ { d with filled := filledBits (s.core c) k } :: rest }
    | [] => k

/-! ## The frame (R200, Tables 6.5-6.7) -/

/-- An event to be taken. `original` is ORIG_CODE should its push fail. -/
structure Trap where
  code : Nat
  vector : Nat
  addr : Nat := 0
  slot : Nat := 0
  original : Nat
  source : Option (Nat × Nat) := none
  filled : BitVec 4 := 0
  deriving DecidableEq, Repr

def levelCode : Option Nat → Nat
  | some l => l
  | none => 4

/-- Cause word (Table 6.6). -/
def causeWord (orig : Nat) (shadow : Bool) (slot : Nat) (prev : Option Nat) (code : Nat) : W64 :=
  pack [(24, orig % 256), (23, b2n shadow), (20, slot % 4), (16, levelCode prev), (0, code % 256)]

/-- Progress word of the slots that an entry filled (Table 6.7, R201). -/
def Core.progressWord (k : Core) (filled : BitVec 4) : W64 :=
  let on (i : Nat) (l : List (Nat × Nat)) : List (Nat × Nat) := if bit filled i then l else []
  let at_ (o : Option Op) (f : Op → Nat) : Nat := match o with | some o => f o | none => 0
  pack (on 3 [(63, 1), (59, 1), (40, at_ k.slotCv Op.index % 2048)]
    ++ on 2 [(62, 1), (58, 1), (28, at_ k.slotMv Op.index % 4096)]
    ++ on 1 [(61, 1), (57, 1), (16, at_ k.slotMx Op.index % 4096), (0, at_ k.slotMx Op.pos % 65536)]
    ++ on 0 [(60, 1), (56, 1)])

/-- Vector resume index. -/
def Core.vecResume (k : Core) (filled : BitVec 4) : W64 :=
  match k.slotVec with
  | some o => if bit filled 0 then BitVec.ofNat 64 (o.index % 2048) else 0
  | none => 0

/-- A suspended operation at the progress that its frame names, ready to go on. -/
def Op.resumed (o : Op) (progress vidx : W64) : Op :=
  let o := { o with limit := none, buf := [] }
  match longUnit o.port with
  | some .vec =>
    let i := min (bits vidx 10 0) o.vec.vl
    let leaves := if o.leaves.isEmpty then [] else o.leaves.take i ++ List.replicate (i - o.leaves.length) none
    { o with index := i, leaves := leaves }
  | some .cv => { o with index := min (bits progress 50 40) (cvCount (o.operand 0x603) o.b) }
  | some .mv => { o with index := min (bits progress 39 28) o.mvRows, pass := 0 }
  | some .mx =>
    { o with index := min (bits progress 27 16) o.mxPositions, pos := min (bits progress 15 0) (o.mxPer - 1)
             pass := o.pass % 4 }
  | none => o

/-- A discarded operation leaves its slot: MX_DONE keeps what a matrix operation has
committed, and a TMOVE's signal is withdrawn. -/
def Core.discarded (k : Core) (o : Op) : Core :=
  let k := if isUnit .mx o then { k with ports := nset 0x402 (BitVec.ofNat 64 o.committed) k.ports } else k
  match o.carry with
  | some y => (match k.opOf y.op with
    | some q => k.finish q [semWord semCancelled 0]
    | none => k)
  | none => k

/-- A suspend slot is emptied. -/
def Core.clearSlot (k : Core) (u : LongUnit) : Core :=
  match u with
  | .vec => { k with slotVec := none }
  | .mx => { k with slotMx := none }
  | .mv => { k with slotMv := none }
  | .cv => { k with slotCv := none }

/-- A suspended operation goes on: from here on its accesses and its reads and writes of
registers follow those of the handler (08 R265), so that it takes a new number. -/
def Core.relaunch (k : Core) (was : Op) : Core :=
  let id := k.nextId
  let o := { was with id := id, carry := was.carry.map fun (y : Carry) => { y with moves := id :: y.moves } }
  let o := { o with stage := if o.maskWaits k then .queued else .running }
  let k := { k with
    nextId := id + 1, ops := k.ops ++ [o]
    portLast := k.portLast.map fun p => (p.1, if p.2 = was.id then id else p.2) }
  if o.stage = .queued then k else k.sendOut o none

/-- The suspend slots at a RETI: FILLED and SUSP decide (R204). The operations that resume
keep their order among each other. -/
def Core.unslot (k : Core) (filled susp : LongUnit → Bool) (progress vidx : W64) : Core :=
  let units := [LongUnit.vec, .mx, .mv, .cv].filter fun u => filled u && (k.slotOf u).isSome
  let go := (units.filter susp).foldl (fun m u => match k.slotOf u with
    | some o => nset o.id o m
    | none => m) ([] : NMap Op)
  let gone := (units.filter fun u => !susp u).filterMap k.slotOf
  let k := units.foldl Core.clearSlot k
  let k := gone.foldl Core.discarded k
  go.foldl (fun k p => k.relaunch (p.2.resumed progress vidx)) k

/-- A unit's bit among those of `Due.filled`. -/
def unitBit : LongUnit → Nat
  | .vec => 0 | .mx => 1 | .mv => 2 | .cv => 3

/-- The long operations that a park stopped go on, once the core runs again (04 R123,
R129; log 49). -/
def State.unpark (s : State) (c : Nat) : State :=
  let k := s.core c
  if s.running c && k.parkFilled != 0 then
    let f := k.parkFilled
    let k := k.unslot (fun u => bit f (unitBit u)) (fun _ => true) (k.progressWord f) (k.vecResume f)
    s.setCore c { k with parkFilled := 0 }
  else s

/-- The sixteen doublewords of a frame (Table 6.5). -/
def Core.frame (k : Core) (t : Trap) (cause : W64) : List W64 :=
  [k.pc.setWidth 64, cause, BitVec.ofNat 64 (t.addr % 2 ^ 56), k.progressWord t.filled, k.vecResume t.filled
   , (k.preds &&& 0xFE).setWidth 64, k.pennant.setWidth 64, nget 0 k.gpr 62] ++ (List.range 8).map (nget 0 k.gpr)

/-- Whether an earlier access of the core to `n` bytes of its own yard is still to be
performed. -/
def State.frameBusy (s : State) (c off n : Nat) : Bool :=
  (s.core c).accs.any fun x => !x.done && (match s.ownRange c x.addr x.bytes.length with
    | some r => crosses r (off, off + n)
    | none => false)

/-- The hardware's own stores of `bs` at an offset of the core's yard, behind the accesses
in flight. -/
def Core.queueFrame (k : Core) (addr : Nat) (bs : List Byte) : Core :=
  let id := k.nextId
  (pieces addr bs.length).foldl (fun k p =>
    k.addAcc id .store (p.1 % 2 ^ 56) (((bs.drop p.2.1).take p.2.2).map some) 0 0) { k with nextId := id + 1 }

/-- Doublewords written into the own yard from an offset on. The entry does not wait for
accesses in flight (R195): where one touches these bytes, the words follow it as stores of
the core (10 R324; log 52). -/
def State.putFrame (s : State) (c off : Nat) (ws : List W64) : State :=
  if s.frameBusy c off (8 * ws.length) then
    s.modCore c fun k => k.queueFrame (s.yardGlobal c + off) (ws.flatMap fun w => toBytes 8 w.toNat)
  else
    forEach (ws.zip (List.range ws.length))
      (fun p s => (s.yardStore (yardBase c + off + 8 * p.2) 8 p.1.toNat).1) s

/-! ## Stack checks (R205, R210) -/

def Core.sp (k : Core) : Nat := bits (nget 0 k.gpr 62) 55 0

/-- Whether a frame may be pushed below g62 (R210). -/
def State.stackOk (s : State) (c : Nat) : Bool :=
  let k := s.core c
  let a := localOf k.sp
  k.sp % 16 == 0 && s.isLocal k.sp
    && decide (localOf k.stackBase.cur.toNat + 128 ≤ a) && decide (a ≤ localOf k.stackTop.cur.toNat)
    && decide (yardBase c + 128 ≤ a) && decide (a ≤ yardBase c + 0x1_FF00)

/-- Whether RETI may read a frame at g62 (R205). -/
def State.frameOk (s : State) (c : Nat) : Bool :=
  let k := s.core c
  let a := localOf k.sp
  k.sp % 16 == 0 && s.isLocal k.sp && decide (yardBase c ≤ a) && decide (a + 128 ≤ yardBase c + 0x2_0000)

/-- Where an entry writes its frame; none where it stops the core (R210, R211, R213). -/
def State.framePlace (s : State) (c : Nat) : Option Nat :=
  let k := s.core c
  if s.stackOk c then some (localOf k.sp - 128 - yardBase c)
  else if k.shadow then none else some 0x1_FF00

/-! ## Entry (R203, R211, R213) -/

/-- Execution goes on at a bundle; held bundles off its path are given up (05 R178). -/
def Core.goTo (k : Core) (pc : BitVec 11) : Core :=
  let k := { k with pc := pc }
  { k with ahead := k.ahead.filter fun b => k.heldAhead b.1 }

/-- The core leaves its program for a vector (R197). -/
def Core.toVector (k : Core) (v : Nat) : Core :=
  Core.goTo { k with waiting := false, waiti := false, ctl := [] } (BitVec.ofNat 11 (k.vectorBase.cur.toNat + v))

/-- The pending bit of an edge source clears when its interrupt is taken. -/
def Core.taken (k : Core) (i : Nat) : Core := if isEdge i then k.unpend i else k

/-- The running level and pending bit that an entry leaves (R187, Table 6.8). -/
def Core.raised (k : Core) (t : Trap) : Core :=
  match t.source with
  | some p => Core.taken { k with level := some p.2 } p.1
  | none => k

/-- An event is taken: TAKING AN EXCEPTION OR INTERRUPT. -/
def State.enter (s : State) (c : Nat) (t : Trap) : State :=
  let k := s.core c
  match s.framePlace c with
  | some off =>
    if s.stackOk c then
      let orig := if t.code = 5 then t.original else 0
      let s := s.putFrame c off (k.frame t (causeWord orig false t.slot k.level t.code))
      s.setCore c (Core.toVector (Core.raised { k with gpr := nset 62 (nget 0 k.gpr 62 - 128) k.gpr } t) t.vector)
    else
      let s := s.putFrame c off (k.frame t (causeWord t.original true t.slot k.level 5))
      s.setCore c (Core.toVector { k with shadow := true, level := some 3 } 5)
  | none =>
    State.redFlag (s.setCore c { k with stopped := true }) (regionOf c) 0x06 (srcCore c) 0
      (nget 0 k.gpr 62).toNat

/-- Whether the core stands at a bundle boundary where it may leave its program. -/
def State.atBoundary (s : State) (c : Nat) : Bool := s.running c && (s.core c).guest.isNone

/-- EXCEPTION_ENTRY. -/
def State.exceptionEntry (s : State) (c : Nat) : State :=
  let k := s.core c
  match k.nextDue with
  | some d =>
    if s.atBoundary c && !k.waiting then
      State.enter (s.setCore c { k with due := k.due.erase d }) c
        { code := d.code, vector := d.code, addr := d.addr, slot := d.slot
          original := if d.origOnly then 0 else d.code, filled := d.filled }
    else s
  | none => s

def execExceptionEntry (c : Nat) (s : State) : Host.Outcome State Fault Refusal :=
  need (Instr.exceptionEntry c).WellFormed s fun s => whenUp s fun s => (s.unpark c).exceptionEntry c

/-- The event of an accepted interrupt. -/
def interruptTrap (p : Nat × Nat) (filled : BitVec 4) : Trap :=
  { code := 0x20 + p.1, vector := 16 + p.1, original := 0x20 + p.1, source := some p, filled := filled }

/-- INTERRUPT_ENTRY (R186, R192-R194). Where an exception is due as well, a prompt-mode
source abandons a waiting bundle, and the exception is taken first (R188, R193). -/
def State.interruptEntry (s : State) (c : Nat) (prog : Progress) : State :=
  let k := s.core c
  if !s.atBoundary c then s
  else match k.chosen k.level with
    | none => s
    | some p =>
      if k.dueBlocks then
        (if k.promptMode p.1 then s.setCore c { k with waiting := false, ctl := [] } else s)
      else if k.promptMode p.1 then
        (match s.suspendAll c prog with
          | some t => if (t.core c).due.length == k.due.length && t.running c then
              t.enter c (interruptTrap p (filledBits k (t.core c))) else t
          | none => s)
      else if k.waiting || k.longBusy then s
      else s.enter c (interruptTrap p 0)

def execInterruptEntry (c : Nat) (prog : Progress) (s : State) : Host.Outcome State Fault Refusal :=
  need (Instr.interruptEntry c prog).WellFormed s fun s => whenUp s fun s => (s.unpark c).interruptEntry c prog

/-! ## Return (R204-R208) -/

/-- The frame at g62 as doublewords, the core's own earlier stores included. -/
def State.frameWords (s : State) (c : Nat) : List W64 :=
  let k := s.core c
  let got := (s.yardRead (localOf k.sp) 128).1.map some
  let y : Access := { id := k.nextId, op := k.nextId, kind := .load, addr := k.sp, bytes := List.replicate 128 (some 0) }
  let bs := gotBytes (k.overlay s.canonical y got)
  (List.range 16).map fun i => BitVec.ofNat 64 (ofBytes ((bs.drop (8 * i)).take 8))

/-- PREV_LEVEL; values above 4 act as none. -/
def prevLevel (cause : W64) : Option Nat := if bits cause 18 16 < 4 then some (bits cause 18 16) else none

/-- The frame is read back (R204, R206). -/
def Core.restore (k : Core) (ws : List W64) (shadowFrame : Bool) : Core :=
  let w (i : Nat) : W64 := (nth ws i).getD 0
  let p := w 3
  let gpr := nset 62 (w 7) ((List.range 8).foldl (fun m i => nset i (w (8 + i)) m) k.gpr)
  let k := { k with
    gpr := gpr, preds := ((w 5).setWidth 8) &&& 0xFE, level := prevLevel (w 1), shadow := k.shadow && !shadowFrame }
  let k := k.unslot (fun u => bit p (60 + unitBit u)) (fun u => bit p (56 + unitBit u)) p (w 4)
  k.goTo ((w 0).setWidth 11)

/-- The frame's words 1, 3 and 4 when a handler chains (R207, R208): the new code, and
the units that it has stopped. -/
def Core.chainWords (k : Core) (ws : List W64) (source : Nat) (filled : BitVec 4) : List W64 :=
  let w (i : Nat) : W64 := (nth ws i).getD 0
  let cause := ((w 1 >>> 8) <<< 8) ||| BitVec.ofNat 64 (0x20 + source) ||| 0x40_0000
  let mask : W64 := pack ((if bit filled 3 then [(40, 2047)] else []) ++ (if bit filled 2 then [(28, 4095)] else [])
    ++ (if bit filled 1 then [(0, 2 ^ 28 - 1)] else []))
  let progress := (w 3 &&& ~~~mask) ||| k.progressWord filled
  [w 0, cause, w 2, progress, if bit filled 0 then k.vecResume filled else w 4]

/-- What firing RETI comes to. -/
inductive RetiEnd where
  | done (s : State)
  | chained (s : State)
  | halted (s : State)
  | wait
  | stackFault
  deriving DecidableEq, Repr

/-- A chained source is entered (R207): its handler takes over the frame. -/
def State.chain (s : State) (c : Nat) (p : Nat × Nat) (ws : List W64) (filled : BitVec 4) : State :=
  let k := s.core c
  let off := localOf k.sp - yardBase c
  let s := s.putFrame c (off + 8) ((k.chainWords ws p.1 filled).drop 1)
  s.setCore c (Core.toVector (Core.taken { k with level := some p.2 } p.1) (16 + p.1))

/-- RETI: RETURN FROM AN EXCEPTION OR INTERRUPT. A prompt-mode source that it chains to
stops the long units where they stand. -/
def State.reti (s : State) (c : Nat) : RetiEnd :=
  let k := s.core c
  if !s.frameOk c then .stackFault
  else
    let off := localOf k.sp - yardBase c
    match s.firstBadWord (localOf k.sp) 128 with
    | some w => .halted (s.uncorrYard c w)
    | none =>
      let ws := s.frameWords c
      match k.chosen (prevLevel ((nth ws 1).getD 0)) with
      | none => .done (s.setCore c (k.restore ws (off == 0x1_FF00)))
      | some p =>
        if k.promptMode p.1 then
          (match s.suspendAll c { vec := 0, mx := 0, cv := 0, mv := 0 } with
            | some t =>
              if (t.core c).due.length = k.due.length then .chained (t.chain c p ws (filledBits k (t.core c)))
              else .wait
            | none => .wait)
        else if k.longBusy then .wait
        else .chained (s.chain c p ws 0)

end Sys2Proof.Machine
end

