-- ==== Sys2Proof/Machine/Guest.lean ====
section
/-!
DEFINITION. The guest block: its elements, its handshake with the move bus, its timeout
and its interrupt (05 R165-R172).
-/
namespace Sys2Proof.Machine

/-! ## Elements (Table 5.2) -/

def Core.guestWord (k : Core) (e j : Nat) : W32 := nget 0 k.cfg ((34 + e / 64) * 256 + 4 * (e % 64) + j)

def Core.truth (k : Core) (e : Nat) : Nat := (k.guestWord e 0).toNat + (k.guestWord e 1).toNat * 2 ^ 32

def Core.guestMode (k : Core) (e : Nat) : Nat := bits (k.guestWord e 2) 31 30

/-- The element that drives input `j`. -/
def Core.guestInput (k : Core) (e j : Nat) : Nat :=
  let w := if j < 3 then k.guestWord e 2 else k.guestWord e 3
  bits w (10 * (j % 3) + 9) (10 * (j % 3))

/-- Elements with a word that is not zero; every other one outputs 0. -/
def Core.guestElements (k : Core) : List Nat :=
  (k.cfg.filterMap fun p =>
    if 34 ≤ p.1 / 256 ∧ p.1 / 256 < 50 then some ((p.1 / 256 - 34) * 64 + p.1 % 256 / 4) else none).eraseDups

/-! ## Signals (R170, R171) -/

/-- What the core presents; none for what it does not present now. `edge` counts the edges
of REQ since START, `n` names the evaluation (log 23). -/
structure GuestIn where
  value : Option W64 := none
  port : Option Nat := none
  req : Bool := false
  write : Option Bool := none
  edge : Nat := 0
  n : Nat := 0
  deriving DecidableEq, Repr

/-- Outputs that are known, and their values. -/
structure GuestNet where
  known : BitVec 1024
  value : BitVec 1024
  deriving DecidableEq, Repr

def GuestNet.at_ (g : GuestNet) (e : Nat) : Option Bool := if bit g.known e then some (bit g.value e) else none

def GuestNet.put (g : GuestNet) (e : Nat) (b : Bool) : GuestNet :=
  let m : BitVec 1024 := BitVec.ofNat 1024 (2 ^ e)
  { known := g.known ||| m, value := if b then g.value ||| m else g.value &&& ~~~m }

/-- 18 outputs from element `e` on, as a two's complement number. -/
def GuestNet.operand (g : GuestNet) (e : Nat) : Option Int :=
  if (List.range 18).all fun i => bit g.known (e + i) then some (sval 18 (g.value.toNat >>> e)) else none

/-- Interface signal `i`. -/
def GuestNet.signal (g : GuestNet) (x : GuestIn) (i : Nat) : Option Bool :=
  let idle := some (Config.guestIdle x.edge i)
  if i < 64 then (match x.value with | some v => some (bit v i) | none => idle)
  else if i < 72 then (match x.port with | some p => some (p.testBit (i - 64)) | none => idle)
  else if i = 72 then some x.req
  else if i = 73 then (match x.write with | some w => some w | none => idle)
  else if i < 218 then
    let m := (i - 74) / 36
    match g.operand (768 + 36 * m), g.operand (786 + 36 * m) with
    | some a, some b => some ((uval 36 (a * b)).testBit ((i - 74) % 36))
    | _, _ => none
  else some false

/-- The entries of a truth table that the known inputs leave. -/
def truthAt (t : Nat) (ins : List (Option Bool)) : Option Bool :=
  let idx := (ins.zip (List.range 6)).foldl (fun l p =>
    match p.1 with
    | some b => l.map fun x => x + b2n b * 2 ^ p.2
    | none => l ++ l.map fun x => x + 2 ^ p.2) [0]
  if idx.all fun x => t.testBit x then some true
  else if idx.all fun x => !t.testBit x then some false
  else none

def Core.guestTable (k : Core) (g : GuestNet) (e : Nat) : Option Bool :=
  truthAt (k.truth e) ((List.range 6).map fun j => g.at_ (k.guestInput e j))

/-- Output of an element, as far as the known outputs settle it. -/
def Core.guestOut (k : Core) (x : GuestIn) (g : GuestNet) (e : Nat) : Option Bool :=
  match k.guestMode e with
  | 0 => k.guestTable g e
  | 3 => g.signal x (k.truth e % 512)
  | _ => some (nget false k.latches e)

/-- Passes over the elements until nothing more is settled. -/
def Core.guestPasses (k : Core) (x : GuestIn) (es : List Nat) : Nat → GuestNet → GuestNet
  | 0, g => g
  | n + 1, g =>
    let r := es.foldl (fun (g : GuestNet) e =>
      if bit g.known e then g else match k.guestOut x g e with | some b => g.put e b | none => g) g
    if r.known = g.known then g else Core.guestPasses k x es n r

/-- The outputs of all elements; those of a loop, and what depends on them, are free
(R172). -/
def Core.guestNet (k : Core) (x : GuestIn) : GuestNet :=
  let es := k.guestElements
  let open_ : BitVec 1024 := es.foldl (fun m e => m ||| BitVec.ofNat 1024 (2 ^ e)) 0
  let g := k.guestPasses x es es.length { known := ~~~open_, value := 0 }
  es.foldl (fun g e => if bit g.known e then g else g.put e (Config.guestLoop x.n e)) g

/-- The latches of a mode capture their tables (R169; log 40). -/
def Core.guestCapture (k : Core) (x : GuestIn) (mode : Nat) : Core :=
  let g := k.guestNet x
  let take (e : Nat) (m : NMap Bool) : NMap Bool := nset e ((k.guestTable g e).getD false) m
  { k with latches := forEach (k.guestElements.filter fun e => k.guestMode e == mode) take k.latches }

/-! ## Handshakes (R165-R168) -/

/-- What a handshake in progress presents. -/
def Guest.drive (g : Guest) (edge n : Nat) : GuestIn :=
  match g.moves with
  | [] => { edge := edge, n := n }
  | m :: _ =>
    { value := m.2.2, port := some (m.2.1 - 0xE00), req := g.req, write := some m.2.2.isSome, edge := edge, n := n }

/-- REQ rises for the next move, if one is left: latches of mode 1 capture. -/
def State.guestRaise (s : State) (c : Nat) (g : Guest) : State :=
  let f := s.fresh
  let k := f.2.core c
  match g.moves with
  | [] => s.setCore c { k with guest := some { g with req := false } }
  | _ =>
    let k := k.guestCapture (Guest.drive { g with req := false } k.guestEdges f.1) 1
    f.2.setCore c { k with guest := some { g with req := true, since := s.pw.now }, guestEdges := k.guestEdges + 1 }

/-- REQ falls: latches of mode 2 capture. -/
def State.guestLower (s : State) (c : Nat) (g : Guest) : State :=
  let f := s.fresh
  f.2.modCore c fun k => { k.guestCapture (g.drive k.guestEdges f.1) 2 with guestEdges := k.guestEdges + 1 }

/-- The result bits and ACK now. -/
def State.guestNow (s : State) (c : Nat) (g : Guest) : GuestNet :=
  let k := s.core c
  k.guestNet (g.drive k.guestEdges s.free)

/-- Whether the awaited edge of ACK can still come in time (R168, 00 R10). -/
def State.guestInTime (s : State) (c : Nat) (g : Guest) : Bool :=
  decide (s.pw.now < g.since + (s.core c).guestLimit)

/-- Writes still to come of the move whose read has given `v` (R167). -/
def Guest.passOn (g : Guest) (slot : Nat) (v : W64) (rest : List (Nat × Nat × Option W64)) :
    List (Nat × Nat × Option W64) :=
  match firstIf (fun m => m.slot == slot) (bundleMoves g.bundle) with
  | some m => mapIf (fun x => x.1 == slot && x.2.2.isSome) (fun x => (x.1, x.2.1, some (carried m.width v))) rest
  | none => rest

def guestAck? (g : GuestNet) : Bool := bit g.value 959

/-- GUEST_ACK: the core sees ACK where the handshake awaits it; one that comes at the end of
the limit or later is ignored (R168). -/
def State.guestAnswer (s : State) (c : Nat) : State :=
  match (s.core c).guest with
  | none => s
  | some g =>
    let net := s.guestNow c g
    match g.moves with
    | [] => s
    | m :: rest =>
      if !s.guestInTime c g then s
      else if g.req then
        if guestAck? net then
          let t := State.guestLower s.fresh.2 c g
          let v := BitVec.ofNat 64 (net.value.toNat / 2 ^ 960)
          let g := if m.2.2.isSome then g
            else { g with results := g.results ++ [(m.1, v)], moves := m :: g.passOn m.1 v rest }
          t.modCore c fun k => { k with guest := some { g with req := false, since := s.pw.now } }
        else s.fresh.2
      else if guestAck? net then s.fresh.2
      else State.guestRaise s.fresh.2 c { g with moves := rest }

def execGuestAck (c : Nat) (s : State) : Host.Outcome State Fault Refusal :=
  need (Instr.guestAck c).WellFormed s fun s => whenUp s fun s =>
    if s.running c then s.guestAnswer c else s

/-- GUEST_TIMEOUT (R168): the awaited edge of ACK has not come in time. -/
def State.guestExpire (s : State) (c : Nat) : State :=
  let k := s.core c
  match k.guest with
  | none => s
  | some g =>
    match g.moves with
    | [] => s
    | m :: _ =>
      if s.guestInTime c g then s
      else
        let t := if g.req then State.guestLower s.fresh.2 c g else s.fresh.2
        t.modCore c fun k => Core.fault
          { k with guest := none, waiting := false, ctl := [], guestTimeouts := satInc k.guestTimeouts }
          { code := 4, resume := some k.pc.toNat, addr := m.2.1, slot := m.1 }

def execGuestTimeout (c : Nat) (s : State) : Host.Outcome State Fault Refusal :=
  need (Instr.guestTimeout c).WellFormed s fun s => whenUp s fun s =>
    if s.running c then s.guestExpire c else s

/-- GUEST_LOGIC_INTERRUPT (06 Table 6.1): source 3 follows element 958, whose output is
clamped to 0 from ISOLATE until START (04 R124). -/
def State.guestInterrupt (s : State) (c : Nat) : State :=
  let st := (s.region (regionOf c)).st
  let k := s.core c
  let x : GuestIn := match k.guest with
    | some g => g.drive k.guestEdges s.free
    | none => { edge := k.guestEdges, n := s.free }
  let on := (!st.isolated || st == .startedIsolated) && bit (k.guestNet x).value 958
  s.fresh.2.setCore c (if on then k.raise 3 else k.unpend 3)

def execGuestLogicInterrupt (c : Nat) (s : State) : Host.Outcome State Fault Refusal :=
  need (Instr.guestLogicInterrupt c).WellFormed s fun s => whenUp s fun s => s.guestInterrupt c

end Sys2Proof.Machine
end

