-- ==== Sys2Proof/Machine/Fire.lean ====
section
/-!
DEFINITION. What firing a trigger does (05 R148-R164, and the trigger tables of the unit
chapters).
-/
namespace Sys2Proof.Machine

/-- What firing one trigger comes to: the state with its effect, a wait, a fault of the
bundle with code and address, or a long operation that runs up to a faulting address while
the bundle takes no other effect (08 R263, 10 R323). -/
inductive Fired where
  | ok (s : State)
  | wait
  | fault (code addr : Nat)
  | partly (s : State) (op : Nat)

/-- A result of one core. -/
def State.fired (s : State) (c : Nat) (k : Core) : Fired := .ok (s.setCore c k)

/-! ## Scalar loads, stores and atomics (R158, Table 5.5) -/

/-- Bytes of a scalar access. -/
def scalarSize (p : Nat) : Nat :=
  if isLoadPort p then (loadForm p).1 else if isStorePort p then 2 ^ (p - 0x170) else 8

/-- Whether a scalar access is unmapped or breaks 01 R39; an atomic reaches HBM and yards
only (11 R335). -/
def scalarRefused (p a n : Nat) : Bool :=
  match resolve a n with
  | none => true
  | some (.hbm _) | some (.yard ..) => false
  | some _ => isAtomicPort p

/-- The code of a misaligned scalar access: MISALIGNED (05 R158) to HBM, a yard or the host,
and ACCESS where the address is unmapped or the access breaks 01 R38, R39 or 13 R394 as well,
for which 01 R41 names ACCESS (DEDUCED, log 71). -/
def misalignedCode (p a : Nat) : Nat :=
  match decodeLocal a with
  | .hbm _ | .yard .. => if scalarRefused p a 1 then 3 else 2
  | .host _ => if isAtomicPort p then 3 else 2
  | _ => 3

def State.fireScalar (s : State) (c p : Nat) (b : W64) : Fired :=
  let k := s.core c
  let r := k.newOp p b
  let ea := (r.2.operand 0x140 + b).toNat % 2 ^ 56
  let n := scalarSize p
  if ea % n ≠ 0 then .fault (misalignedCode p (localOf ea)) ea
  else if (s.isLocal ea || isAtomicPort p) && scalarRefused p (localOf ea) n then .fault 3 ea
  else
    let k := r.1.launchOp r.2
    let data := r.2.operand 0x141
    let read := List.replicate n (some (0 : Byte))
    s.fired c (
      if isLoadPort p then k.addAcc r.2.id .load ea read 0 0
      else if isStorePort p then k.addAcc r.2.id .store ea ((toBytes n data.toNat).map some) 0 0
      else k.addAcc r.2.id (.atomic p) ea read data (r.2.operand 0x142))

/-! ## Fences and cache operations (R163, R164) -/

def unmappedPlace (a : Nat) : Bool :=
  match decodeLocal a with
  | .unmapped => true
  | .yard _ o => decide (0x2_0000 ≤ o)
  | _ => false

def hbmPlace (a : Nat) : Bool :=
  match decodeLocal a with
  | .hbm _ => true
  | _ => false

def State.fireCache (s : State) (c p : Nat) (b : W64) : Fired :=
  let k := s.core c
  let a := b.toNat % 2 ^ 56
  let go (kind : AccKind) (addr : Nat) (bytes : List (Option Byte)) : Fired :=
    let r := k.newOp p b
    s.fired c ((r.1.launchOp r.2).addAcc r.2.id kind addr bytes 0 0)
  let ctl (kind : AccKind) : Fired :=
    if s.isLocal a && hbmPlace (localOf a) then go kind (a / 64 * 64) (List.replicate 64 none)
    else if s.isLocal a && unmappedPlace (localOf a) && kind != .prefetch then .fault 3 a
    else .ok s
  match p with
  | 0x784 => ctl .clean
  | 0x787 => ctl .prefetch
  | 0x788 => ctl .flush
  | 0x785 => if s.isLocal a && hbmPlace (localOf a) then s.fired c (k.dropOwnL1 (localOf a / 64)) else .ok s
  | 0x786 => s.fired c { k with l1 := [] }
  | _ => go (.fence p) 0 []

/-! ## Long units -/

/-- What a long operation in flight does with its addresses, after it has been launched. -/
def State.launched (s : State) (c : Nat) (k : Core) (o : Op) : Fired :=
  let n := k.due.length
  let k := k.sendOut o (some k.pc.toNat)
  if n < k.due.length then .partly (s.setCore c k) o.id else s.fired c k

/-- Whether a vector trigger of the next bundle is accepted (08 R255), and a VLOAD or VSTORE
finds the mask that its addresses need. -/
def Core.accepts (k : Core) (p : Nat) (b : W64) : Bool :=
  if inRange 0x200 0x3FF p then
    !(k.ops.any Op.coupled) && (k.ops.filter (isUnit .vec)).all k.vecIssued
      && !((p == 0x210 || p == 0x211) && bit b 18 && k.regBusy k.nextId [32 + bits b 17 15] [])
  else true

/-- A vector trigger (08 R246, R247). A length of 0 completes at once; an access whose mask
an operation of the same bundle writes is sent out once it has been written. -/
def State.fireVec (s : State) (c p : Nat) (b : W64) : Fired :=
  let r := (s.core c).newOp p b
  let v := r.2.vec
  if vecIllegal p v.code then .fault 1 0
  else if v.vl = 0 ∧ (isMaskOp p = false ∨ p = 0x23D) then s.fired c ((r.1.launchOp r.2).vecDone r.2)
  else if r.2.maskWaits r.1 then s.fired c (r.1.launchOp { r.2 with stage := .queued })
  else s.launched c (r.1.launchOp r.2) r.2

/-- A CONVERT or SCALE_FROM_MAX trigger (07 R241, Table 7.6). -/
def State.fireCv (s : State) (c p : Nat) (b : W64) : Fired :=
  let r := (s.core c).newOp p b
  if p = 0x610 && cvIllegal (r.2.operand 0x603) then .fault 1 0
  else
    let k := r.1.launchOp r.2
    s.fired c (if p = 0x610 ∧ cvCount (r.2.operand 0x603) b = 0 then k.cvDone r.2 else k)

/-- A matrix trigger, or TRAIN_RAISE (10 Table 10.4, R320). -/
def State.fireMatrix (s : State) (c p : Nat) (b : W64) : Fired :=
  if p = 0x418 then .ok (s.trainRaise c b)
  else match (s.core c).fireMx p b (s.upstream c).isSome with
    | some k => s.fired c k
    | none => .fault 1 0

/-- TMOVE takes the armed signal with it (13 R409). -/
def State.fireMove (s : State) (c : Nat) (b : W64) : Fired :=
  let k := s.core c
  let r := k.newOp 0x428 b
  let o := { r.2 with carry := k.carry.map fun y => { y with moves := [r.2.id] } }
  s.launched c ({ r.1 with carry := none }.launchOp o) o

/-! ## Semaphores (13 Table 13.7, R409, R419) -/

def Op.tag (o : Op) : Nat := bits (o.operand 0x682) 5 4

/-- The wait of a tag still outstanding. -/
def Core.tagWait (k : Core) (t : Nat) : Option Op := k.oldest fun o => o.port == 0x698 && o.tag == t

/-- The armed signal is withdrawn. -/
def Core.dropCarry (k : Core) : Core :=
  match k.carry with
  | some y =>
    let k := { k with carry := none }
    (match k.opOf y.op with
      | some o => k.finish o [semWord semCancelled 0]
      | none => k)
  | none => k

/-- WCANCEL of tag `t`. -/
def State.fireCancel (s : State) (c t : Nat) (b : W64) : State :=
  let k := s.core c
  match k.tagWait t with
  | none => s
  | some o =>
    let a := (o.operand 0x680).toNat % 2 ^ 56
    if o.stage = .served then s
    else if s.isLocal a then
      (match semAt (localOf a), o.stage with
        | some i, .queued => s.semCancel i c o.id
        | _, _ => s.setCore c (k.modOp o.id fun o => { o with pass := 1 }))
    else
      let r := k.newOp 0x69A b
      s.setCore c (r.1.launchOp { r.2 with res := BitVec.ofNat 64 o.id })

def State.fireSem (s : State) (c p : Nat) (b : W64) : Fired :=
  let k := s.core c
  if p = 0x69A then .ok (s.fireCancel c (bits b 1 0) b)
  else
    let r := k.newOp p b
    let a := (r.2.operand 0x680).toNat % 2 ^ 56
    if a % 64 ≠ 0 then .fault 2 a
    else if s.isLocal a && (semAt (localOf a)).isNone then .fault 3 a
    else if p = 0x698 && (k.tagWait r.2.tag).isSome then
      let q := 0x688 + r.2.tag
      s.fired c { k with ports := nset q (semWord semTagBusy 0) k.ports, portLast := nerase q k.portLast }
    else if p = 0x699 then
      let y : Carry := { sem := BitVec.ofNat 64 a, n := b, samePath := bit (r.2.operand 0x682) 0, op := r.2.id }
      s.fired c { r.1.dropCarry.launchOp r.2 with carry := some y }
    else s.fired c (r.1.launchOp r.2)

/-! ## All triggers but those of control flow -/

/-- A Depot command; a second asynchronous one waits (14 R445). -/
def State.fireDepot (s : State) (c p : Nat) (b : W64) : Fired :=
  let k := s.core c
  let r := k.newOp p b
  if isAsync (r.2.operand 0x703) && k.ops.any fun o => isDepot o.port && isAsync (o.operand 0x703) then .wait
  else s.fired c (r.1.launchOp r.2)

/-- A trigger of a unit fires with value `b`; the 65th operation waits (R149). -/
def State.fireUnit (s : State) (c p : Nat) (b : W64) : Fired :=
  if p < 0x140 then
    let r := (s.core c).newOp p b
    s.fired c (r.1.launchOp r.2)
  else if p < 0x180 then s.fireScalar c p b
  else if p < 0x400 then s.fireVec c p b
  else if p = 0x428 then s.fireMove c b
  else if p < 0x600 then s.fireMatrix c p b
  else if p < 0x680 then s.fireCv c p b
  else if p < 0x700 then s.fireSem c p b
  else if p < 0x780 then s.fireDepot c p b
  else s.fireCache c p b

def State.fire (s : State) (c p : Nat) (b : W64) : Fired :=
  match s.fireUnit c p b with
  | .ok t => if 64 < (t.core c).ops.length then .wait else .ok t
  | .partly t id => if 64 < (t.core c).ops.length then .wait else .partly t id
  | r => r

end Sys2Proof.Machine
end

