-- ==== Sys2Proof/Machine/Bundle.lean ====
section
/-!
DEFINITION. BUNDLE_EXECUTE: one bundle of a core begins, waits, goes on, faults or
completes (05 R131-R182).
-/
namespace Sys2Proof.Machine

/-! ## Sources (R139 steps 2 and 3) -/

/-- Registers that a read or write of VX_ELEM or VX_MWORD touches. -/
def Core.pickedReg (k : Core) (p : Nat) : List Nat :=
  if p = 0x206 then [bits (nget 0 k.ports 0x205) 20 16]
  else if p = 0x208 then [32 + bits (nget 0 k.ports 0x207) 6 4]
  else []

/-- Whether a conversion in flight holds back A0-A3, A0F-A3F and CV_LANE_STATE (07 R242). -/
def Core.cvHolds (k : Core) (p : Nat) : Bool := (inRange 0x620 0x627 p || p == 0x631) && k.ops.any (isUnit .cv)

/-- Whether a source is not ready. -/
def Core.srcWaits (k : Core) (p : Nat) : Bool :=
  !k.resultReady p || k.cvHolds p || k.regBusy k.nextId (k.pickedReg p) []
    || (p == 0x209 && k.ops.any (isUnit .vec))
    || (p == 0x402 && k.ops.any (isUnit .mx))
    || (p == 0x429 && k.ops.any (isUnit .mv))
    || (p == 0x401 && k.ops.any fun o =>
          isUnit .mx o && (mxUses o.port o.b).contains (bits (nget 0 k.ports 0x400) 3 0))

/-- VX_STATUS (08 Table 8.9). -/
def Core.vxStatus (k : Core) : W64 :=
  pack [(8, b2n (k.ops.any Op.coupled)), (7, b2n k.slotVec.isSome), (0, (k.ops.filter (isUnit .vec)).length)]

/-- MX_STATUS (10 Table 10.5). -/
def Core.mxStatus (k : Core) : W64 :=
  pack [(4, b2n k.trainMismatch), (3, b2n k.slotMv.isSome), (2, b2n (k.ops.any (isUnit .mv)))
    , (1, b2n k.slotMx.isSome), (0, b2n (k.ops.any (isUnit .mx)))]

/-- The element that VX_ESEL names, under VX_CFG: register, width, index. -/
def Core.pickedElem (k : Core) : Nat × Nat × Nat :=
  let w := cfgWidth (nget 0 k.ports 0x200)
  let e := nget 0 k.ports 0x205
  (bits e 20 16, w, bits e 9 0 % (8192 / w))

/-- The mask word that VX_MSEL names: register and word. -/
def Core.pickedWord (k : Core) : Nat × Nat :=
  let e := nget 0 k.ports 0x207
  (bits e 6 4, bits e 3 0)

/-- The value of a vector, matrix or conversion port. -/
def Core.unitValue (k : Core) (p : Nat) : W64 :=
  match p with
  | 0x201 => BitVec.ofNat 64 (cfgVl (nget 0 k.ports 0x200))
  | 0x206 => let e := k.pickedElem; BitVec.ofNat 64 (k.elem e.1 e.2.1 e.2.2)
  | 0x208 => let e := k.pickedWord; (k.mregOf e.1).extractLsb' (64 * e.2) 64
  | 0x20A => k.vxStatus
  | 0x401 => let e := nget 0 k.ports 0x400; k.tileWord (bits e 3 0) (bits e 10 8)
  | 0x403 => k.mxStatus
  | 0x630 => k.laneIndex.setWidth 64
  | 0x631 => (k.lane k.laneIndex.toNat).setWidth 64
  | _ =>
    if inRange 0x620 0x623 p then nget 0 k.amax (p - 0x620)
    else if inRange 0x624 0x627 p then BitVec.ofNat 64 (b2n (bit k.nanSeen (p - 0x624)))
    else nget 0 k.ports p

/-- SM_APEND and DX_APEND (13 Table 13.7, 14 Table 14.2). -/
def Core.pendingTags (k : Core) : W64 :=
  pack ((List.range 4).map fun t => (t, b2n (k.tagWait t).isSome))

def Core.asyncPending (k : Core) : W64 := boolWord (k.ops.any fun o => isDepot o.port && isAsync (o.operand 0x703))

/-- A constant port (03 Table 3.4). -/
def constKey (n : Nat) : Nat := (32 + n / 128) * 256 + 2 * (n % 128)
def Core.constant (k : Core) (n : Nat) : W64 :=
  pack [(0, (nget 0 k.cfg (constKey n)).toNat), (32, (nget 0 k.cfg (constKey n + 1)).toNat)]

/-- The value that a move carries, before its width. -/
def State.sourceValue (s : State) (c : Nat) (b : BitVec 128) (ctl : NMap W64) (guest : List (Nat × W64)) (m : Move) : W64 :=
  let k := s.core c
  let p := m.src
  if p < 0x040 then nget 0 k.gpr p
  else if p < 0x07F then BitVec.ofInt 64 ((p : Int) - 0x040 - 31)
  else if p = 0x07F then bundleLit b
  else if p = 0x190 then k.pc.setWidth 64
  else if inRange 0x1C1 0x1C7 p then boolWord (bit k.preds (p - 0x1C0))
  else if p = 0x1D0 then (k.preds &&& 0xFE).setWidth 64
  else if inRange 0x200 0x67F p then k.unitValue p
  else if p = 0x686 then k.pendingTags
  else if p = 0x70C then k.asyncPending
  else if isControl p then nget 0 ctl m.slot
  else if isGuest p then ((firstIf (fun r => r.1 == m.slot) guest).map Prod.snd).getD 0
  else if 0xF00 ≤ p then k.constant (p - 0xF00)
  else nget 0 k.ports p

/-- What reading a source does (Table 5.9; 10 Table 10.5; 07 Table 7.6; 18 R525): a move
returns the bits that its width carries (00 R577). -/
def State.sourceEffect (s : State) (c : Nat) (m : Move) : State :=
  let k := s.core c
  let p := m.src
  if isControl p then s.cpReadEffect c p (carried m.width (BitVec.allOnes 64))
  else if p = 0x403 then s.setCore c { k with trainMismatch := false }
  else if p = 0x631 then s.setCore c { k with laneIndex := k.laneIndex + 1 }
  else if 0xF00 ≤ p && k.cfgBad.contains (constKey (p - 0xF00)) then
    s.uncorrConfig c (constKey (p - 0xF00)) (p - 0xF00)
  else s

/-! ## Destinations (R139 step 4) -/

/-- Whether a destination must wait (R152, 08 R256, 07 R242). -/
def Core.dstWaits (k : Core) (p : Nat) : Bool :=
  !k.resultReady p || k.cvHolds p || k.regBusy k.nextId [] (k.pickedReg p)

/-- A write of a unit's port that is no trigger. -/
def Core.putUnit (k : Core) (p : Nat) (v : W64) : Core :=
  match p with
  | 0x206 => let e := k.pickedElem; k.putElem e.1 e.2.1 e.2.2 (v.toNat % 2 ^ e.2.1)
  | 0x208 =>
    let e := k.pickedWord
    let m : BitVec 1024 := (BitVec.ofNat 1024 (2 ^ 64 - 1)) <<< (64 * e.2)
    { k with mreg := nset e.1 ((k.mregOf e.1 &&& ~~~m) ||| (v.setWidth 1024 <<< (64 * e.2))) k.mreg }
  | 0x401 => let e := nget 0 k.ports 0x400; k.putTile (bits e 3 0) (bits e 10 8) v
  | 0x630 => { k with laneIndex := v.setWidth 10 }
  | 0x631 => { k with lanes := nset k.laneIndex.toNat (v.setWidth 32) k.lanes, laneIndex := k.laneIndex + 1 }
  | _ =>
    if inRange 0x620 0x623 p then { k with amax := nset (p - 0x620) v k.amax }
    else if inRange 0x624 0x627 p then
      let m : BitVec 4 := BitVec.ofNat 4 (2 ^ (p - 0x624))
      { k with nanSeen := if bit v 0 then k.nanSeen ||| m else k.nanSeen &&& ~~~m }
    else { k with ports := nset p v k.ports }

/-- A predicate written (Table 5.7). -/
def Core.putGuard (k : Core) (p : Nat) (v : W64) : Core :=
  if p = 0x1D0 then { k with preds := v.setWidth 8 &&& 0xFE }
  else
    let i := if p < 0x1C8 then p - 0x1C0 else p - 0x1C8
    let on := if p < 0x1C8 then v != 0 else v == 0
    let m : BitVec 8 := BitVec.ofNat 8 (2 ^ i)
    { k with preds := if on then k.preds ||| m else k.preds &&& ~~~m }

/-- The writes of a bundle in progress: the state, and what its settles have taken. -/
structure Writing where
  s : State
  pends : List Pend := []

/-- One destination written; none where it must wait. -/
def Writing.put (w : Writing) (c p : Nat) (v : W64) : Option Writing :=
  let k := w.s.core c
  if k.dstWaits p then none
  else if p < 0x040 then some { w with s := w.s.setCore c { k with gpr := nset p v k.gpr } }
  else if inRange 0x1C0 0x1FF p then some { w with s := w.s.setCore c (k.putGuard p v) }
  else if p = 0x8FF then
    let t := k.takePending
    some { s := w.s.setCore c t.1, pends := w.pends ++ [t.2] }
  else if isControl p then some { w with s := w.s.cpWrite c p v (BitVec.allOnes 64) true }
  else if isGuest p then some w
  else some { w with s := w.s.setCore c (k.putUnit p v) }

/-! ## The whole bundle -/

/-- How an attempt at a bundle ends; `halted` where an uncorrectable error stops the
region. -/
inductive Attempt where
  | wait
  | fault (slot code addr : Nat) (origOnly : Bool)
  | partly (s : State) (op : Nat)
  | halted (s : State)
  | done (s : State) (pends : List Pend) (next : Option (BitVec 11))

/-- Triggers in slot order (step 5). `next` is where a transfer goes. -/
def State.fireAll (s : State) (c : Nat) (old : Core) (pends : List Pend) :
    List (Nat × Nat × W64) → Option (BitVec 11) → Attempt
  | [], next => .done s pends next
  | (slot, p, v) :: t, next =>
    let k := s.core c
    let idx := old.pc
    let link := s.setCore c { k with gpr := nset 61 ((idx.toNat + 1 : Nat) : W64) k.gpr }
    match p with
    | 0x180 => s.fireAll c old pends t (some (v.setWidth 11))
    | 0x181 => s.fireAll c old pends t (some (idx + v.setWidth 11))
    | 0x182 => link.fireAll c old pends t (some (v.setWidth 11))
    | 0x183 => link.fireAll c old pends t (some (idx + v.setWidth 11))
    | 0x184 => s.fireAll c old pends t (some ((nget 0 old.gpr 61).setWidth 11))
    | 0x185 =>
      let z := s.setCore c { k with gpr := nset 62 (nget 0 old.gpr 62) k.gpr }
      (match z.reti c with
        | .done s => s.fireAll c old pends t (some (s.core c).pc)
        | .chained s => (s.modCore c fun n => { n with gpr := nset 62 (nget 0 k.gpr 62) n.gpr }).fireAll c old pends t
            (some (s.core c).pc)
        | .halted s => .halted s
        | .wait => .wait
        | .stackFault => .fault slot 5 0 true)
    | 0x186 => (s.setCore c { k with waiti := true }).fireAll c old pends t next
    | _ =>
      match s.fire c p v with
      | .ok s => s.fireAll c old pends t next
      | .wait => .wait
      | .fault code addr => .fault slot code addr false
      | .partly s op => .partly s op

/-- Steps 2 to 5 of R139 for the moves whose guards pass. -/
def State.attempt (s : State) (c : Nat) (b : BitVec 128) (moves : List Move) (ctl : NMap W64)
    (guest : List (Nat × W64)) : Attempt :=
  let k := s.core c
  if moves.any fun m => k.srcWaits m.src then .wait
  else
    let vals := moves.map fun m => (m, carried m.width (s.sourceValue c b ctl guest m))
    let s := forEach moves (fun m s => s.sourceEffect c m) s
    if !s.running c then .halted s
    else
      let writes := (vals.filter fun p => !isTrigger p.1.dst).foldl
        (fun (w : Option Writing) p => w.bind fun w => w.put c p.1.dst p.2) (some { s := s })
      let fires := vals.filter fun p => isTrigger p.1.dst
      match writes with
      | none => .wait
      | some w =>
        if fires.all fun p => k.accepts p.1.dst p.2 then
          w.s.fireAll c k w.pends (fires.map fun p => (p.1.slot, p.1.dst, p.2)) none
        else .wait

/-- Handshakes of a bundle: reads first, then writes (R167). -/
def State.guestMoves (s : State) (c : Nat) (b : BitVec 128) (moves : List Move) (ctl : NMap W64) :
    List (Nat × Nat × Option W64) :=
  (moves.filter fun m => isGuest m.src).map (fun m => (m.slot, m.src, none))
    ++ (moves.filter fun m => isGuest m.dst).map
      (fun m => (m.slot, m.dst, some (carried m.width (s.sourceValue c b ctl [] m))))

/-- The bundle's fault is due, and it has taken no effect (R143). -/
def Core.bundleFaults (k : Core) (slot code addr : Nat) (origOnly : Bool) : Core :=
  Core.fault { k with waiting := false, ctl := [], guest := none }
    { code := code, resume := some k.pc.toNat, addr := addr, slot := slot, origOnly := origOnly }

/-- A long operation of a bundle that takes no other effect (08 R263). -/
def Core.keepOp (old new : Core) (id : Nat) : Core :=
  let fresh := new.due.drop old.due.length
  let k := { old with
    nextId := new.nextId, ops := old.ops ++ new.ops.filter (fun o => o.id == id)
    accs := old.accs ++ new.accs.filter (fun a => a.op == id), due := old.due ++ fresh
    portLast := (new.portLast.filter fun p => p.2 == id).foldl (fun m p => nset p.1 p.2 m) old.portLast
    waiting := false, ctl := [], guest := none }
  if new.ops.any (fun o => o.id == id && o.port != 0x428) then k
  else Core.dropCarry { k with slotMv := new.slotMv, ops := mapIf (fun o => o.id == id) (fun o => { o with carry := none }) k.ops }

/-- The bundle completes: settles apply, and execution goes on (R161, R175). -/
def Core.endBundle (k : Core) (idx : BitVec 11) (pends : List Pend) (next : Option (BitVec 11)) : Core :=
  let k := pends.foldl Core.applyPending k
  Core.goTo { k with waiting := false, ctl := [], guest := none, perfBundles := satInc k.perfBundles } (next.getD (idx + 1))

/-- A bundle that waits keeps the control-port values that it has read; CP_PERF_WAITS
counts (log 19). -/
def Core.waits (k : Core) (ctl : NMap W64) : Core :=
  { k with waiting := true, ctl := ctl, perfWaits := satInc k.perfWaits }

/-- A fetched bundle is tried (R139). -/
def State.tryBundle (s : State) (c : Nat) (b : BitVec 128) (frame : Ecc) : State :=
  let k := s.core c
  match bundleFault b with
  | some slot => s.setCore c (k.bundleFaults slot 1 0 false)
  | none =>
    let moves := (bundleMoves b).filter fun m => guardPasses k.preds m.guard
    if 1 < (moves.filter fun m => isFlow m.dst).length then s.setCore c (k.bundleFaults 0 1 0 false)
    else
      let ctl := if k.waiting || k.guest.isSome then k.ctl
        else (moves.filter fun m => isControl m.src).map fun m => (m.slot, s.cpValue c m.src)
      let guest := s.guestMoves c b moves ctl
      let results := match k.guest with | some g => g.results | none => []
      let reads := moves.any (fun m => m.dst == 0x185) && (s.ownRange c k.sp 128).isSome
      match (if reads then s.yardEcc (localOf k.sp) frame else s).attempt c b moves ctl results with
      | .wait => s.setCore c (k.waits ctl)
      | r =>
        if !guest.isEmpty && k.guest.isNone then
          State.guestRaise (s.setCore c { k with waiting := true, ctl := ctl }) c { bundle := b, moves := guest }
        else match r with
          | .wait => s
          | .fault slot code addr orig => s.setCore c (k.bundleFaults slot code addr orig)
          | .halted t => t
          | .partly t op => s.setCore c (k.keepOp (t.core c) op)
          | .done t pends next => t.modCore c fun n => n.endBundle k.pc pends next

/-! ## Fetch (R178-R181) -/

/-- Whether a store of the core's own into its own CP_IS_HI is still to be performed
(R180). -/
def State.patching (s : State) (c : Nat) : Bool :=
  (s.core c).accs.any fun a => a.kind == .store && !a.done && s.isLocal a.addr
    && (match decodeLocal (localOf a.addr) with
        | .cport d o => d == c && o / 8 == 0x15
        | _ => false)

/-- Whether an interrupt is accepted at this boundary rather than the next bundle begun
(06 R186, R192). -/
def Core.interrupted (k : Core) : Bool :=
  match k.chosen k.level with
  | some p => k.promptMode p.1 || !k.longBusy
  | none => false

/-- Whether the core may begin its next bundle, or go on with one that waits. -/
def State.mayExecute (s : State) (c : Nat) : Bool :=
  let k := s.core c
  let handshake := match k.guest with | some g => g.moves.isEmpty | none => false
  s.running c
    && (handshake || (k.guest.isNone && !(s.region (regionOf c)).parking
        && (k.waiting || (!k.dueBlocks && !k.interrupted && !s.patching c
              && (!k.waiti || (List.range 7).any k.wants)))))

/-- BUNDLE_EXECUTE. `stale` asks for the old content of a bundle held ahead (R181; log
18); `ecc` is what the instruction store reports, `frame` what a frame read by RETI does (18 R525). -/
def State.bundleExecute (s : State) (c : Nat) (stale : Bool) (ecc frame : Ecc) : State :=
  let k := s.core c
  let idx := k.pc.toNat
  if !s.mayExecute c then s
  else if k.waiting || k.guest.isSome then
    s.tryBundle c (match k.guest with | some g => g.bundle | none => (nfind k.ahead idx).getD (k.bundleAt idx)) frame
  else
    let s := s.modCore c fun k => { k with waiti := false, ahead := if stale then k.ahead else nerase idx k.ahead }
    let held := nfind (s.core c).ahead idx
    let bad := firstIf (fun j => k.cfgBad.contains (bundleKey idx j)) [0, 2]
    match held, ecc, bad with
    | none, .uncorrectable, _ => s.uncorrConfig c (bundleKey idx 0) idx
    | none, _, some j => s.uncorrConfig c (bundleKey idx j) idx
    | none, .corrected, none => (s.corrected 1).tryBundle c (k.bundleAt idx) frame
    | none, .clean, none => s.tryBundle c (k.bundleAt idx) frame
    | some b, _, _ => s.tryBundle c b frame

def execBundleExecute (c : Nat) (stale : Bool) (ecc frame : Ecc) (s : State) : Host.Outcome State Fault Refusal :=
  need (Instr.bundleExecute c stale ecc frame).WellFormed s fun s => whenUp s fun s =>
    (s.unpark c).bundleExecute c stale ecc frame

end Sys2Proof.Machine
end

