-- ==== Sys2Proof/Machine/RegionOps.lean ====
section
/-!
DEFINITION. REGION_PARKED: every core of a region has stopped (04 R123, R128, Table 4.4).
-/
namespace Sys2Proof.Machine

/-- Whether an access is still outstanding: one that an earlier access or operation keeps
from being sent stays for the resume (log 49). -/
def State.parkWaits (s : State) (c : Nat) (a : Access) : Bool :=
  let k := s.core c
  !a.accepted && !a.kind.isFence && (a.stage != .issued || !s.blocked c a)
    && !(k.ops.any fun o => o.id == a.op && (longUnit o.port).isSome)

/-- Whether a fence operation in flight could complete now. -/
def State.fenceReady (s : State) (c : Nat) : Bool :=
  let k := s.core c
  k.ops.any fun o => isFence o.port && k.fenced o.id (o.port != 0x780)

/-- A core stops at its bundle boundary; none where it cannot yet. Its long operations
are suspended as in prompt mode, also those beside one that a fault stops, whose exception
records what its stop has filled. -/
def State.parkCore (s : State) (c : Nat) (p : Progress) : Option State :=
  let k := s.core c
  if k.guest.isSome || k.accs.any (s.parkWaits c) || s.fenceReady c then none
  else
    let r := (List.range 4).foldl (fun (r : Option State) _ => r.bind fun s => s.suspendAll c p) (some s)
    r.map fun s =>
      s.modCore c fun n => { n with
        waiting := false, ctl := []
        parkFilled := k.parkFilled ||| (filledBits k n &&& ~~~n.due.foldl (fun m d => m ||| d.filled) 0) }

/-- REGION_PARKED, once every core of a region that parks can stop. -/
def State.regionParked (s : State) (r : Nat) (prog : List (Nat × Progress)) : State :=
  if (s.region r).parking then
    let mine := (s.cores.map Prod.fst).filter fun c => regionOf c == r && s.running c
    let stopped := mine.foldl (fun (x : Option State) c => x.bind fun s =>
      s.parkCore c (nget { vec := 0, mx := 0, cv := 0, mv := 0 } prog c)) (some s)
    match stopped with
    | some s => s.parkDone r
    | none => s
  else s

def execRegionParked (r : Nat) (prog : List (Nat × Progress)) (s : State) : Host.Outcome State Fault Refusal :=
  need (Instr.regionParked r prog).WellFormed s fun s => whenUp s fun s => s.regionParked r prog

end Sys2Proof.Machine
end

