-- ==== Sys2Proof/Machine/Image.lean ====
section
/-!
DEFINITION. The words of a Polkimal image: commands, header, declarations, frame
addresses and frames, and where each command may stand (03).
-/
namespace Sys2Proof.Machine

/-! ## Commands (03 R69, R83, Table 3.3) -/

/-- Register and count in the ranges of Table 3.3. -/
def cmdOk (w : W32) : Bool :=
  let r := cmdReg w
  let n := cmdCount w
  match cmdOp w with
  | 0x00 => r == 0
  | 0x02 => r ≤ 11 && 2 ≤ n
  | 0x03 | 0x0C => r == 0 && n == 1
  | 0x04 => r == 0 && 1 ≤ n
  | 0x05 => r == 0 && 1 ≤ n && n ≤ 51
  | 0x06 => r ≤ 63 && n == 8
  | 0x07 | 0x08 => r ≤ 63 && n == 0
  | 0x09 | 0x0A => (r ≤ 63 || r == 0xFF) && n == 0
  | 0x0B | 0x0D => r == 0 && n == 0
  | _ => false

/-! ## Header (R75-R77, Table 3.1) -/

def magicWord : W32 := 0x504C_4B4D

/-- Words of the header that its SYNC word announces. -/
def headerSize (w : W32) : Nat := cmdCount w + 1

/-- What is wrong once word `i` of the header has been read: the reason and the
offending word. -/
def headerFault (ws : List W32) (i : Nat) : Option (Nat × Nat) :=
  let w := (nth ws i).getD 0
  let size := headerSize ((nth ws 0).getD 0)
  let ns (k : Nat) : Option W32 × Option W32 := (nth ws k, nth ws (k + 1))
  match i with
  | 0 =>
    let n := cmdCount w
    if cmdOp w = 1 ∧ cmdReg w = 0 ∧ 7 ≤ n ∧ n ≤ 135 ∧ n % 2 = 1 then none else some (rsFormat, 0)
  | 1 => if w = magicWord then none else some (rsFormat, 1)
  | 2 => if w = 0x0001_0000 then none else some (rsFormat, 2)
  | 3 =>
    if bits w 31 8 ≠ 0x00_0103 then some (rsTarget, 3)
    else if bits w 7 0 ≠ 0 then some (rsFormat, 3) else none
  | 4 => if w.toNat ≤ 1 then none else some (rsFormat, 4)
  | 7 =>
    if 8 + 2 * w.toNat ≠ size then some (rsFormat, 7)
    else if ((nth ws 6).getD 0).toNat ≤ size then some (rsFormat, 6) else none
  | _ =>
    if 9 ≤ i ∧ i % 2 = 1 ∧ ((List.range ((i - 9) / 2)).any fun k => ns (8 + 2 * k) == ns (i - 1)) then
      some (rsFormat, i - 1)
    else none

/-- The first fault of the header words read so far, with the words read until then. -/
def headerFaults (ws : List W32) : Option (Nat × Nat × Nat) :=
  (firstIf (fun i => (headerFault ws i).isSome) (List.range ws.length)).bind fun i =>
    (headerFault ws i).map fun f => (f.1, f.2, i + 1)

/-- The namespace list. -/
def headerNs (ws : List W32) : List W64 :=
  (List.range ((ws.length - 8) / 2)).map fun k =>
    pack [(0, ((nth ws (8 + 2 * k)).getD 0).toNat), (32, ((nth ws (9 + 2 * k)).getD 0).toNat)]

/-! ## Declarations (R78, R79, Table 3.2) -/

/-- The bits that declaration word `i` uses. -/
def declBits (i : Nat) : W32 :=
  match i with
  | 1 => 0x0FFF_1FFF
  | 2 => 0x3F1F_FFFF
  | 3 => 0x00FF_3FFF
  | 7 => 0x0001_07FF
  | _ => 0xFFFF_FFFF

/-- Whether declaration word `i` breaks a rule, with `n` namespaces in the list. -/
def declFault (n i : Nat) (w : W32) : Bool :=
  (w &&& ~~~declBits i) != 0 ||
  match i with
  | 0 => bits w 15 8 == 0 || bits w 7 0 == 0
  | 1 => decide (4096 < bits w 27 16 + bits w 12 0)
  | 2 => decide (1048576 < bits w 20 0) || (bits w 20 0 != 0 && decide (n ≤ bits w 29 24))
  | 3 => bits w 13 12 == 3 || (bits w 13 12 == 1 && bits w 23 16 == 0) || decide (3000 < bits w 11 0)
  | _ => false

/-- The declaration that eight words hold. -/
def declOf (ns : List W64) (ws : List W32) : Decl :=
  let w (i : Nat) : W32 := (nth ws i).getD 0
  { row0 := bits (w 0) 31 24, col0 := bits (w 0) 23 16, rows := bits (w 0) 15 8, cols := bits (w 0) 7 0
    semFirst := bits (w 1) 27 16, semCount := bits (w 1) 12 0
    ns := if bits (w 2) 20 0 = 0 then none else nth ns (bits (w 2) 29 24)
    quota := bits (w 2) 20 0
    weight := bits (w 3) 23 16, cls := bits (w 3) 13 12, floor := bits (w 3) 11 0
    windows := pack [(0, (w 4).toNat), (32, (w 5).toNat)]
    intMode := w 6
    clearYard := bit (w 7) 16, entry := bits (w 7) 10 0 }

/-- Length of the overlap of [a, a + n) and [b, b + m). -/
def overlapLen (a n b m : Nat) : Nat := min (a + n) (b + m) - max a b

/-- Cores of a declaration that lie outside its region (R80). -/
def coresOutside (r : Nat) (d : Decl) : Nat :=
  d.rows * d.cols - overlapLen d.row0 d.rows (20 * (r % 4 / 2)) 20 * overlapLen d.col0 d.cols (20 * (r % 2)) 20

/-! ## Frame addresses (R88, R89, R91, R92) -/

def farDie (f : Nat) : Nat := f / 2 ^ 18
def farCol (f : Nat) : Nat := f / 4096 % 64
def farRow (f : Nat) : Nat := f / 64 % 64
def farMinor (f : Nat) : Nat := f % 64

/-- Whether a frame may stand at the address. -/
def farOk (f : Nat) : Bool :=
  if farDie f < 16 then decide (farCol f < 40) && decide (farRow f < 40) && decide (farMinor f ≤ 50)
  else decide (17 ≤ farDie f) && decide (farDie f ≤ 19) && farCol f == 0 && decide (farRow f < 4) && decide (farMinor f < 16)

def farAt (die col row minor : Nat) : Nat := die * 2 ^ 18 + col * 4096 + row * 64 + minor

/-- The address after a frame of WRITE_FRAMES; none past the end. -/
def farNext (f : Nat) : Option Nat :=
  let die := farDie f
  let last := if die < 16 then 50 else 15
  let rows := if die < 16 then 40 else 4
  if farMinor f < last then some (f + 1)
  else if farRow f + 1 < rows then some (farAt die (farCol f) (farRow f + 1) 0)
  else if die < 16 ∧ farCol f + 1 < 40 then some (farAt die (farCol f + 1) 0 0)
  else none

/-- The address after a frame of BCAST_FRAMES. -/
def farNextBcast (f : Nat) : Option Nat := if farMinor f < 50 then some (f + 1) else none

/-- The cores of a frame at `f`, broadcast to a rectangle. -/
def farCores (f rows cols : Nat) : List Nat := rectCores (farDie f) (farRow f) (farCol f) rows cols

/-- Whether every core of the frame lies in the rectangle of a declared region (R95). -/
def Load.covers (l : Load) (f rows cols : Nat) : Bool :=
  (farCores f rows cols).all fun c => l.decls.any fun p => p.1 == regionOf c && inDecl p.1 p.2 c

/-- Whether the address of a frame keeps R88, R89, R91, R92, R93 and R95. -/
def Load.frameOk (l : Load) (f rows cols : Nat) : Bool :=
  farOk f && (if farDie f < 16 then l.covers f rows cols else l.full)
    && (match nfind l.lastFars (farDie f) with | some x => decide (x < f) | none => true)

/-- CRC-16 of a frame (R97, R99). -/
def frameCrc (f : Nat) (payload : List W32) : Nat :=
  crc16 0xFFFF ((BitVec.ofNat 32 f :: payload).flatMap wordBytes)

/-! ## Order of parts (R70-R72, R78, R81, R83, R85, R86, R582) -/

/-- The part that a command belongs to; `far` is the word after a SET_FAR. NOP and
unlisted opcodes belong to none. Dies 20 to 31 are in no section (R72), so a SET_FAR that
names one stands in either, and its frame offends at its first payload word (R73; log 48). -/
def Load.partOf (l : Load) (w far : W32) : Option LoadPart :=
  let byDie (d : Nat) : LoadPart :=
    if d < 16 ∨ !l.full ∨ (20 ≤ d ∧ l.part = .fabric) then .fabric else .junction
  match cmdOp w with
  | 0x02 => some (if cmdReg w = 10 then .fabric else .junction)
  | 0x03 => some (byDie (bits far 22 18))
  | 0x04 | 0x05 => some (byDie (farDie (l.far.getD 0)))
  | 0x06 => some .declares
  | 0x07 => some .isolates
  | 0x08 => some .parks
  | 0x09 => some .starts
  | 0x0A => some .unisolates
  | 0x0B | 0x0C => some .checked
  | _ => none

/-- The regions that a START or UNISOLATE names. -/
def Load.named (l : Load) (w : W32) : List Nat := if cmdReg w = 0xFF then l.declared else [cmdReg w]

/-- Whether a command may stand where it is met. -/
def Load.mayStand (l : Load) (w far : W32) : Bool :=
  let r := cmdReg w
  let has (p : List LoadPart) : Bool := p.contains l.part
  let mine := l.declared.contains r
  let ready := !l.full && l.isolated.length == l.decls.length
  let fabricHere := if l.full then has [.declares, .junction, .fabric] else has [.isolates, .fabric] && ready
  let partOk : Bool := match l.partOf w far with
    | some .junction => l.full && has [.declares, .junction]
    | some .fabric => fabricHere
    | _ => false
  let afterCheck := if l.full then has [.starts] else has [.checked, .starts]
  let fresh (seen : List Nat) : Bool := (r == 0xFF || mine) && (l.named w).all fun x => !seen.contains x
  match cmdOp w with
  | 0x00 => true
  | 0x01 => false
  | 0x06 => has [.declares] && l.declared.all fun x => decide (x < r)
  | 0x0D => (afterCheck || has [.unisolates]) && l.pos + 1 == l.length
  | _ =>
    !l.decls.isEmpty &&
    match cmdOp w with
    | 0x02 => partOk && (l.full || r == 10)
    | 0x03 => partOk
    | 0x04 => partOk && l.far.isSome && !l.farPast
    | 0x05 => partOk && l.far.isSome && !l.farPast
        && !(l.full && decide (16 ≤ farDie (l.far.getD 0)) && decide (farDie (l.far.getD 0) < 20))
    | 0x07 => !l.full && has [.parks, .isolates] && mine && !l.isolated.contains r && l.parked.length == l.decls.length
    | 0x08 => !l.full && has [.declares, .parks] && mine && !l.parked.contains r
    | 0x09 => afterCheck && fresh l.started
    | 0x0A => (afterCheck || has [.unisolates]) && fresh l.unisolated
    | 0x0B => l.full && has [.checked]
    | 0x0C => fabricHere
    | _ => false

/-- Whether the declarations are admitted at this command (R81). -/
def Load.admitsAt (l : Load) (w far : W32) : Bool :=
  !l.admitted && cmdOp w != 0 && cmdOp w != 6 &&
    (if l.full then l.partOf w far == some .fabric || cmdOp w == 0x0C else true)

end Sys2Proof.Machine
end

