-- ==== Sys2Proof/Machine/Admission.lean ====
section
/-!
DEFINITION. ADMISSION: the declarations of an image are counted, and admitted or refused
as a whole (03 R80, R81; 04 R118-R122; 14 R423, R425, R427; 15 R452).
-/
namespace Sys2Proof.Machine

/-- The declared regions in ascending order, with what is counted when each is judged. -/
def State.counted (s : State) (l : Load) (r : Nat) : List (Nat × Decl) :=
  (if l.full then [] else s.loadedDecls.filter fun p => !l.declared.contains p.1)
    ++ l.decls.filter fun p => decide (p.1 ≤ r)

/-- First index of a declared semaphore range that lies in a range already counted. -/
def semOverlap (r : Nat) (d : Decl) (others : List (Nat × Decl)) : Option Nat :=
  (others.filter fun p => p.1 / 4 == r / 4 && p.1 != r
      && decide (0 < overlapLen d.semFirst d.semCount p.2.semFirst p.2.semCount)).foldl
    (fun m p =>
      let x := max d.semFirst p.2.semFirst
      match m with | some y => some (min x y) | none => some x) none

/-- Namespace values that hold a slot beside those declared: of the entries of the Depot,
which a full load empties. -/
def State.entryValues (s : State) (l : Load) : List W64 :=
  if l.full then [] else (s.dx.ns.filter fun p => s.nsEntries p.1 != 0).map Prod.snd

/-- What a declaration fails of Table 4.3, in table order: the code and the shortfall. A
region keeps its floor across a rewrite (R120), but for a floor budget of 0, which refuses
any nonzero sum (15 R452). -/
def State.shortfall (s : State) (l : Load) (r : Nat) (d : Decl) : Option (Nat × Nat) :=
  let g := s.region r
  let all := s.counted l r
  let out := coresOutside r d
  let quota := sumBy (fun p => p.2.quota) all
  let names := (s.entryValues l ++ all.filterMap fun p => p.2.ns).eraseDups
  let floors := sumBy (fun p => p.2.floor) all
  let keeps : Bool := s.floorBudget != 0 && !l.full && g.st.loaded && (match g.decl with | some o => decide (d.floor ≤ o.floor) | none => false)
  let shut := firstIf (fun w => bit d.windows w && !(s.window w).enable) (List.range 64)
  if !l.full && (g.st == .red || g.resetHold) then some (rsRegionBusy, g.st.code)
  else if out ≠ 0 then some (rsNoCores, out)
  else match semOverlap r d all with
    | some i => some (rsNoSemaphores, i)
    | none =>
      if 1048576 < quota then some (rsNoDepotQuota, quota - 1048576)
      else if 64 < names.length then some (rsNoDepotQuota, 0)
      else if !keeps && decide (s.floorBudget < floors) then some (rsNoFloor, floors - s.floorBudget)
      else shut.map fun w => (rsNoWindows, w)

/-- The refusal of an image: region, code and shortfall (R118). -/
def State.refusal (s : State) (l : Load) : Option (Nat × Nat × Nat) :=
  let busy := if l.full then firstIf (fun r => (s.region r).st.loaded) (List.range numRegions) else none
  match busy with
  | some r => some (r, rsRegionBusy, (s.region r).st.code)
  | none => l.decls.foldl (fun f p => match f with
      | some x => some x
      | none => (s.shortfall l p.1 p.2).map fun x => (p.1, x.1, x.2)) none

/-- Declared regions hold their new reservations (R119). A region that was unloaded
becomes parked and isolated, or being written in a full load (log 50). -/
def State.reserve (s : State) (l : Load) : State :=
  forEach l.decls (fun p s => s.modRegion p.1 fun g =>
    let st := if l.full then RegionSt.writing else if g.st = .unloaded then .parkedIsolated else g.st
    { g with decl := some p.2, startHeld := false, unisoHeld := false, st := st
             hasRun := if g.st = .unloaded then false else g.hasRun }) s

/-- Namespace values take their slots (14 R427, R428). -/
def State.takeSlots (s : State) (l : Load) : State :=
  let s := s.nsRefresh
  { s with dx := { s.dx with ns := (l.decls.filterMap fun p => p.2.ns).foldl (fun ns v => (takeSlot ns v).getD ns) s.dx.ns } }

/-- What a full load does to the package at its admission (03 R96; 12 R376; 13 R395;
14 R425; 17 R520). The next exchange may step the count, so the package is not synchronised
until the exchanges after it (17 R524; 02 R60, R62). -/
def State.fullAdmitted (s : State) : State :=
  let s := s.depotClear
  let s := s.mapCores (fun _ => true) fun _ k => { k with cfg := [], cfgBad := [], ahead := [] }
  { s with
    sems := [], co := { s.co with pred := [] }, ml := { s.ml with tseqTx := [], tseqRx := [] }
    tb := { s.tb with stepped := false, synced := false, good := 0 } }

/-- The image is admitted: STATE 2. -/
def State.takeAdmitted (s : State) (l : Load) : State :=
  let s := if l.full then s.fullAdmitted else s
  let s := (s.reserve l).takeSlots l
  State.modLoad { s with cc := { s.cc with state := 2 } } fun l => { l with admitted := true }

/-- The words that ADMISSION looks at: the next command, and the FAR of a SET_FAR. -/
def State.upcoming (s : State) : Option (W32 × W32) :=
  match s.nextWords (min 2 s.wordsReady) with
  | [w] => if cmdOp w = 3 then none else some (w, 0)
  | w :: f :: _ => some (w, f)
  | [] => none

/-- ADMISSION. Where its command itself is out of range or may not stand, the image ends with
FORMAT there, and the declarations are neither admitted nor refused (R81 names no precedence:
DESIGN CHOICE, log 48). -/
def State.admission (s : State) : State :=
  match s.cc.load, s.upcoming with
  | some l, some (w, far) =>
    let here := l.part != .header && l.framesLeft == 0 && cmdOk w && l.pos + 1 != l.length
      && (cmdOp w != 3 || bits far 31 23 == 0) && l.mayStand w far && l.admitsAt w far
    if here && s.pw.hbm == .ready then
      if l.full && !s.tablesPlaced then s.formatAt l.pos
      else match s.refusal l with
        | some x => State.endLoad { s with cc := { s.cc with
            refRegion := BitVec.ofNat 8 x.1, refCode := BitVec.ofNat 8 x.2.1, refShortfall := BitVec.ofNat 32 x.2.2 } }
            7 x.2.1 l.pos
        | none => s.takeAdmitted l
    else s
  | _, _ => s

def execAdmission (s : State) : Host.Outcome State Fault Refusal :=
  need Instr.admission.WellFormed s fun s => whenUp s fun s => s.admission

end Sys2Proof.Machine
end

