-- ==== Sys2Proof/Machine/DmaData.lean ====
section
/-!
DEFINITION. The data of host DMA descriptors (16 R499-R504, 05 R181). The bytes of a
descriptor move at one instant (log 32).
-/
namespace Sys2Proof.Machine

/-! ## Pieces -/

/-- [a, a + n) cut into the accesses that registers take (01 R38, R39; log 75): address, offset
and length. -/
def registerUnits (a n : Nat) : List (Nat × Nat × Nat) :=
  (wordsOf a n).map fun w => (max a w, max a w - a, min (a + n) (w + 8) - max a w)

/-- The bytes of a piece that the DMA engine reads, lowest failure first. -/
def State.dmaReadPiece (s : State) (a n : Nat) : State × RangeRead :=
  match decodeLocal a with
  | .hbm _ | .yard .. | .unmapped | .host _ => s.readRange a n
  | _ =>
    (registerUnits a n).foldl (fun (p : State × RangeRead) u =>
      let fail (st : RespStatus) (s : State) : State × RangeRead :=
        (s, { p.2 with bytes := p.2.bytes ++ List.replicate u.2.2 none, bad := if p.2.bad.isNone then some (u.2.1, st) else p.2.bad })
      match resolve u.1 u.2.2 with
      | some l =>
        let r := p.1.regRead l u.2.2
        if r.2.1 = .ok then (r.1, { p.2 with bytes := p.2.bytes ++ (toBytes u.2.2 r.2.2.toNat).map some })
        else fail r.2.1 r.1
      | none => fail .unmapped p.1) (s, {})

/-- A piece that the DMA engine writes: its lowest failure. Bytes that are not to be written
leave their register alone. -/
def State.dmaWritePiece (s : State) (a : Nat) (bs : List (Option Byte)) (mark : Bool) : State × Option (Nat × RespStatus) :=
  match decodeLocal a with
  | .hbm _ | .yard .. | .unmapped | .host _ => s.writeRange a bs mark
  | _ =>
    (registerUnits a bs.length).foldl (fun (p : State × Option (Nat × RespStatus)) u =>
      let b := (bs.drop u.2.1).take u.2.2
      let fail (st : RespStatus) (s : State) : State × Option (Nat × RespStatus) :=
        (s, if p.2.isNone then some (u.2.1, st) else p.2)
      match resolve u.1 u.2.2 with
      | some l =>
        if b.all Option.isSome then
          let r := p.1.regWrite l u.2.2 (BitVec.ofNat 64 (ofBytes (gotBytes b))) srcHost
          if r.2 = .ok then (r.1, p.2) else fail r.2 r.1
        else p
      | none => fail .unmapped p.1) (s, none)

/-- Pieces of a device range read in ascending order. -/
def State.dmaReadRange (s : State) (a n : Nat) : State × RangeRead :=
  (pieces a n).foldl (fun (p : State × RangeRead) q =>
    let r := p.1.dmaReadPiece q.1 q.2.2
    (r.1,
      { bytes := p.2.bytes ++ r.2.bytes
        bad := if p.2.bad.isNone then r.2.bad.map fun b => (q.2.1 + b.1, b.2) else p.2.bad
        poison := if p.2.poison.isNone then r.2.poison else p.2.poison })) (s, {})

/-- Pieces of a device range written in ascending order. -/
def State.dmaWriteRange (s : State) (a : Nat) (bs : List (Option Byte)) (mark : Bool) : State × Option (Nat × RespStatus) :=
  (pieces a bs.length).foldl (fun (p : State × Option (Nat × RespStatus)) q =>
    let r := p.1.dmaWritePiece q.1 ((bs.drop q.2.1).take q.2.2) mark
    (r.1, if p.2.isNone then r.2.map fun b => (q.2.1 + b.1, b.2) else p.2)) (s, none)

/-! ## Data -/

/-- The source bytes of a descriptor by offset, its lowest failure, and the first
poisoned address. -/
def State.dmaSource (s : State) (j : DmaJob) (host : HostAnswer) (ecc : Ecc) :
    State × List (Option Byte) × Option (Nat × Nat) × Option Nat :=
  let n := j.length
  if (s.dmaBus j.srcHost j.src n).isSome then
    match host with
    | .data bs =>
      (s, (bs.take n).map some ++ List.replicate (n - bs.length) none,
        if bs.length < n then some (bs.length, dmaHostError) else none, none)
    | .failed => (s, List.replicate n none, some (0, dmaHostError), none)
  else if s.isLocal j.src then
    let r := (s.readEcc (localOf j.src) n ecc).dmaReadRange (localOf j.src) n
    (r.1, r.2.bytes, r.2.bad.map fun b => (b.1, dmaStatus b.2), r.2.poison.map fun a => s.pkg.toNat * 2 ^ 45 + a)
  else (s, (List.range n).map fun i => nfind j.buf i, j.bad, j.poison)

/-- The bytes to write: all below `stop`, and of the later ones those that 16 R503
lets be written. -/
def dmaChosen (salt stop : Nat) : Nat → List (Option Byte) → List (Option Byte)
  | _, [] => []
  | i, b :: t => (if i < stop || Config.dmaTail salt i then b else none) :: dmaChosen salt stop (i + 1) t

/-- The lowest offset at which the destination cannot take bytes. -/
def State.dmaDstLimit (s : State) (j : DmaJob) : Option (Nat × Nat) :=
  if (s.dmaBus j.dstHost j.dst j.length).isSome || !s.isLocal j.dst then none
  else
    (pieces (localOf j.dst) j.length).foldl (fun bad p =>
      if bad.isSome then bad
      else match decodeLocal p.1 with
        | .hbm _ => if s.pw.hbm = .ready then none else some (p.2.1, dmaUnmapped)
        | .yard c o =>
          if 0x2_0000 < o + p.2.2 then some (p.2.1, dmaUnmapped)
          else if s.isolated c then some (p.2.1, dmaIsolated) else none
        | .unmapped | .host _ => some (p.2.1, dmaUnmapped)
        | .cport c _ =>
          if s.isolated c then some (p.2.1, dmaIsolated)
          else (firstIf (fun u => (resolve u.1 u.2.2).isNone) (registerUnits p.1 p.2.2)).map fun u => (p.2.1 + u.2.1, dmaUnmapped)
        | _ => (firstIf (fun u => (resolve u.1 u.2.2).isNone) (registerUnits p.1 p.2.2)).map fun u => (p.2.1 + u.2.1, dmaUnmapped)) none

/-- The bytes are written, and the descriptor ends or waits for another package. -/
def State.dmaWrite (s : State) (q : Nat) (j : DmaJob) (bytes : List (Option Byte)) (bad : Option (Nat × Nat))
    (poison : Option Nat) (ecc : Ecc) : State :=
  let f := s.fresh
  let s := f.2
  let s := match poison with
    | some a => s.log 0x05 31 none srcHost (s.canonical a) (1 + 256 * q)
    | none => s
  let bad := lowest bad (s.dmaDstLimit j)
  let stop := match bad with | some b => b.1 | none => j.length
  let chosen := dmaChosen f.1 stop 0 bytes
  let finish : State → Option (Nat × Nat) → State := fun s bad =>
    match bad with
    | some b => s.endDma q j b.2 b.1
    | none => s.endDma q j dmaOk j.length
  if let some bus := s.dmaBus j.dstHost j.dst j.length then finish (s.hostWriteGaps bus chosen poison.isSome) bad
  else if s.isLocal j.dst then
    let r := (s.writeEcc (localOf j.dst) chosen ecc).dmaWriteRange (localOf j.dst) chosen poison.isSome
    finish r.1 (lowest bad (match r.2 with | some b => if b.1 < stop then some (b.1, dmaStatus b.2) else none | none => none))
  else
    let r := s.dmaRequests q j.dst stop .write fun off n => ((chosen.drop off).take n).filterMap id
    r.1.setQueue q { r.1.queue q with cur := some { j with bad := lowest bad r.2, wrote := true } }

/-- Requests of the queue that a switch-over refused end NO_ROUTE (17 R522). -/
def State.dmaRefused (s : State) (q : Nat) : Option (Nat × Nat) × State :=
  let mine : Pending → Bool := fun w => w.queue == some q && w.refused
  ((s.ml.waits.filter mine).foldl (fun b w => lowest b (some (w.acc, dmaNoRoute))) none,
   { s with ml := { s.ml with waits := s.ml.waits.filter fun w => !mine w } })

/-- DMA_DESCRIPTOR_COMPLETE: the bytes move, the completion word is written (16
R503, R504). Requests to another package are answered first. -/
def State.completeDma (s : State) (q : Nat) (host : HostAnswer) (ecc : Ecc) : State :=
  match (s.queue q).cur with
  | none =>
    match (s.queue q).aborted with
    | some j => State.completionWord (s.setQueue q { s.queue q with aborted := none }) j dmaAborted 0
    | none => s
  | some j =>
    let r := s.dmaRefused q
    let s := r.2
    let j := { j with bad := lowest j.bad r.1 }
    if s.ml.waits.any (fun w => w.queue == some q) then s.setQueue q { s.queue q with cur := some j }
    else if j.wrote then
      match j.bad with
      | some b => s.endDma q j b.2 b.1
      | none => s.endDma q j dmaOk j.length
    else
      let d := s.dmaSource j host ecc
      d.1.dmaWrite q j d.2.1 d.2.2.1 d.2.2.2 ecc

def execDmaDescriptorComplete (q : Nat) (host : HostAnswer) (ecc : Ecc) (s : State) : Host.Outcome State Fault Refusal :=
  need (Instr.dmaDescriptorComplete q host ecc).WellFormed s fun s => whenUp s fun s =>
    State.whenServed (fun s => s.completeDma q host ecc) s

end Sys2Proof.Machine
end

