-- ==== Sys2Proof/Machine/Home.lean ====
section
/-!
DEFINITION. Home agents (12 R361-R376): their queues, probes sent, requests forwarded to
owners, grants, and far atomics.
-/
namespace Sys2Proof.Machine

/-! ## Queues (R363) -/

def State.setAgentReqs (s : State) (agent : Nat) (l : List HReq) : State :=
  { s with co := { s.co with queue := if l.isEmpty then nerase agent s.co.queue else nset agent l s.co.queue } }

/-- A change to one queued request. -/
def State.modReq (s : State) (agent id : Nat) (f : HReq → HReq) : State :=
  s.setAgentReqs agent (mapIf (fun q => q.id == id) f (s.agentReqs agent))

/-- A request leaves its queue. -/
def State.dequeue (s : State) (agent id : Nat) : State :=
  s.setAgentReqs agent ((s.agentReqs agent).filter fun q => q.id != id)

/-! ## Beginning a request -/

/-- The die that owns a line, other than the requester's: M, O or E (R370). -/
def State.ownerOf (s : State) (q : HReq) : Option Nat :=
  (firstIf (fun h => h.1 != q.slice && h.2 != .S) (s.holders q.line)).map Prod.fst

/-- Slices that a request must have answers from, and what it asks of them (12 Table 12.2):
a read past the die caches leaves its own die's copy as it is. -/
def State.targets (s : State) (q : HReq) : List (Nat × ProbeMode) :=
  let all := s.holders q.line
  let others := all.filter fun h => h.1 != q.slice
  match q.kind with
  | .readFill => (s.ownerOf q).toList.map fun x => (x, .share)
  | .readBypass => (all.filter fun h => h.2 != .S).map fun h => (h.1, if h.1 = q.slice then .look else .read)
  | .ownFill | .writeThrough => others.map fun h => (h.1, .remove)
  | .writeBypass | .farAtomic => all.map fun h => (h.1, .remove)

/-- Probes go out to slices (R362). -/
def State.sendProbes (s : State) (q : HReq) (sent : List (Nat × ProbeMode)) : State :=
  let ps := sent.map fun x =>
    { req := q.id, agent := q.agent, line := q.line, slice := x.1, mode := x.2, seq := q.seq : Probe }
  State.countProbes { s with co := { s.co with probes := s.co.probes ++ ps } } q.agent sent.length

/-- The owner orders the request (R370): it is forwarded at once, and a request that
takes ownership makes its die the recorded owner. The record of an owner that is read
changes when it answers. -/
def State.forward (s : State) (q : HReq) (owner : Nat) : State :=
  let s := s.dequeue q.agent q.id
  if q.kind = .ownFill then
    let sharers := ((s.holders q.line).filter fun h => h.1 != q.slice && h.1 != owner).map Prod.fst
    let s := s.sendProbes q (sharers.map fun x => (x, .remove))
    let s := s.setHolders q.line [(q.slice, .M)]
    { s with co := { s.co with fwds := s.co.fwds ++ [{ req := { q with need := sharers }, owner := owner }] } }
  else
    let s := s.holdNew q.slice q.line .S
    { s with co := { s.co with fwds := s.co.fwds ++ [{ req := q, owner := owner }] } }

/-- A request that is first for its line is begun: forwarded, or ordered by the home
(R369-R371). -/
def State.begin (s : State) (q : HReq) : State :=
  let q := { q with started := true, seq := s.co.nextReq }
  let s := { s with co := { s.co with nextReq := s.co.nextReq + 1 } }
  match (if q.order && (q.kind == .readFill || q.kind == .ownFill) then s.ownerOf q else none) with
  | some owner => s.forward q owner
  | none =>
    let t := s.targets q
    (s.modReq q.agent q.id fun _ => { q with need := t.map Prod.fst }).sendProbes q t

/-! ## Finishing a request -/

/-- Newest data of the line at its home: what a die supplied, or HBM's. -/
def State.homeData (s : State) (q : HReq) : LineData × Bool :=
  match q.data with
  | some d => (d, q.poison)
  | none => (s.hbmLine q.line, s.linePoisoned q.line)

/-- Dirty data that a die supplied is written to HBM (12 Table 12.2, last row). -/
def State.settleData (s : State) (q : HReq) : State :=
  match q.data with
  | some d => if q.dirty then s.hbmWriteLine q.line d q.poison else s
  | none => s

/-- The line, or its data, is on its way to the requester. -/
def State.grant (s : State) (q : HReq) (st : LineSt) (d : LineData × Bool) : State :=
  let g : Grant :=
    { req := q.id, line := q.line, slice := q.slice, core := q.core, acc := q.acc, kind := q.kind, st := st
      data := d.1, poison := d.2, age3 := q.age3, predicted := q.predicted, l1 := q.l1 }
  { s with co := { s.co with grants := s.co.grants ++ [g] } }

/-- A store is performed at its home (R383), over the given line. -/
def State.homeStore (s : State) (c id line : Nat) (old : LineData × Bool) : State :=
  match (s.core c).acc id with
  | some a =>
    let r := stored old.1 old.2 a
    State.showStore (s.hbmWriteLine line r.1 r.2) c line a
  | none => s

/-- A write-through store of a die that holds the line: the whole line, store included, goes
to its home, and the copy stays, clean (11 Table 11.1, R355); one in the siding goes too. -/
def State.throughStore (s : State) (slice line c id : Nat) (old : LineData × Bool) : State :=
  match (s.core c).acc id, s.findLine slice line, s.findSiding slice line with
  | none, _, _ => s
  | some a, some (key, w), _ =>
    let d := stored w.data w.poison a
    let s := s.setLine key { w with st := .E, age := 0, data := d.1, poison := d.2 }
    (s.setHolders line [(slice, .E)]).homeStore c id line (w.data, w.poison)
  | some _, none, some e =>
    let newest := (s.holders line).any fun h => h.1 == slice
    State.homeStore (s.yieldLine slice line .remove).1 c id line (if newest then (e.data, e.poison) else old)
  | some _, none, none => s.homeStore c id line old

/-- Every answer a request needs is there (R369). -/
def State.complete (s : State) (q : HReq) : State :=
  let d := s.homeData q
  match q.kind with
  | .readFill =>
    let st := if q.ro || (s.holders q.line).any (fun h => h.1 != q.slice) then LineSt.S else .E
    (s.holdNew q.slice q.line st).grant q st d
  | .ownFill =>
    let d := match s.findLine q.slice q.line with
      | some (_, w) => if w.st.dirty then (w.data, w.poison) else d
      | none => d
    (s.setHolders q.line [(q.slice, .M)]).grant q .M d
  | .readBypass => (s.settleData q).grant q .S d
  | .writeBypass => ((s.settleData q).setHolders q.line []).homeStore q.core q.acc q.line d
  | .writeThrough => (s.settleData q).throughStore q.slice q.line q.core q.acc d
  | .farAtomic => s

/-- The agent goes on with a line: requests first come, first served (R363). A far
atomic stands ready for its atomic unit. -/
def State.agentRun (s : State) (agent line : Nat) : Nat → State
  | 0 => s
  | n + 1 =>
    match firstIf (fun q => q.line == line) (s.agentReqs agent) with
    | none => s
    | some q =>
      if !q.started then State.agentRun (s.begin q) agent line n
      else if q.need.isEmpty && q.kind != .farAtomic then
        State.agentRun ((s.complete q).dequeue agent q.id) agent line n
      else s

def State.runLine (s : State) (agent line : Nat) : State :=
  s.agentRun agent line (2 * (s.agentReqs agent).length + 1)

/-! ## The events -/

/-- HOME_REQUEST: a request on its bridge reaches its agent. With 512 requests queued it
waits (R363). -/
def State.homeRequest (s : State) (i : Nat) : State :=
  match nth s.co.net i with
  | none => s
  | some q =>
    let l := s.agentReqs q.agent
    if 512 ≤ l.length then s
    else
      let l := l ++ [{ q with order := (s.governing (64 * q.line)).order }]
      let s := State.notePeak { s with co := { s.co with net := dropNth s.co.net i } } q.agent l.length
      State.runLine (s.setAgentReqs q.agent l) q.agent q.line

def execHomeRequest (i : Nat) (s : State) : Host.Outcome State Fault Refusal :=
  need (Instr.homeRequest i).WellFormed s fun s => whenUp s fun s => s.homeRequest i

/-- A die's answer, taken into the request that waits for it. -/
def HReq.answered (q : HReq) (r : Resp) : HReq :=
  { q with
    need := q.need.filter (· != r.slice)
    data := match r.data with | some d => some d | none => q.data
    dirty := q.dirty || r.dirty
    poison := if r.data.isSome then r.poison else q.poison }

/-- PROBE_RESPONSE: an answer reaches the agent, which may then grant the line. -/
def State.probeResponse (s : State) (i : Nat) : State :=
  match nth s.co.resps i with
  | none => s
  | some r =>
    let s := { s with co := { s.co with resps := dropNth s.co.resps i } }
    if (s.agentReqs r.agent).any fun q => q.id == r.req then
      (s.modReq r.agent r.req fun q => q.answered r).runLine r.agent r.line
    else
      { s with co := { s.co with
          fwds := mapIf (fun f => f.req.id == r.req)
            (fun f => { f with req := { f.req with need := f.req.need.filter (· != r.slice) } }) s.co.fwds } }

def execProbeResponse (i : Nat) (s : State) : Host.Outcome State Fault Refusal :=
  need (Instr.probeResponse i).WellFormed s fun s => whenUp s fun s => s.probeResponse i

/-- Whether the die's copy is being removed, or is gone, so that its writeback crosses
the removal (R367). -/
def State.crossing (s : State) (w : Wb) : Bool :=
  !((s.holders w.line).any fun h => h.1 == w.slice)
    || s.co.probes.any (fun p => p.mode == .remove && p.slice == w.slice && p.line == w.line)

/-- WRITEBACK_ARRIVAL: a writeback or release notice reaches the agent, which
acknowledges it. -/
def State.writebackArrival (s : State) (i : Nat) : State :=
  match nth s.co.wbs i with
  | none => s
  | some w =>
    let cross := s.crossing w
    let s := { s with co := { s.co with wbs := dropNth s.co.wbs i, acks := s.co.acks ++ [(w.slice, w.line)] } }
    if cross then s
    else
      let s := match w.data with
        | some d => s.hbmWriteLine w.line d w.poison
        | none => s
      s.holdNot w.slice w.line

def execWritebackArrival (i : Nat) (s : State) : Host.Outcome State Fault Refusal :=
  need (Instr.writebackArrival i).WellFormed s fun s => whenUp s fun s => s.writebackArrival i

/-- FAR_ATOMIC: the agent's atomic unit performs the atomic that stands first for its
line once every copy is recalled (R373, R375). -/
def State.farAtomic (s : State) (agent : Nat) : State :=
  let ready (q : HReq) : Bool := q.kind == .farAtomic && q.started && q.need.isEmpty
  match firstIf ready (s.agentReqs agent) with
  | none => s
  | some q =>
    let s := s.settleData q
    let s := (s.setHolders q.line []).dropL1 q.line none
    let d := s.homeData q
    let s := s.countFar agent
    let others := (s.agentReqs agent).any fun r => r.line == q.line && r.id != q.id
    let s := if q.predicted && !others then s.predDown q.slice q.line else s
    let s := match (s.core q.core).acc q.acc with
      | some a =>
        if d.2 then s.modCore q.core fun k => k.serveLoad a.id ((s.lineBytesOf a d.1).map some) true
        else
          let r := s.atomicOn d.1 a
          State.modCore (s.hbmWriteLine q.line r.1 false) q.core fun k => k.loadServed a.id (r.2.map some)
      | none => s
    (s.dequeue agent q.id).runLine agent q.line

def execFarAtomic (agent : Nat) (s : State) : Host.Outcome State Fault Refusal :=
  need (Instr.farAtomic agent).WellFormed s fun s => whenUp s fun s => s.farAtomic agent

end Sys2Proof.Machine
end

