-- ==== Sys2Proof/Machine/Remote.lean ====
section
/-!
DEFINITION. Accesses that cross Moriq (17 R509-R522; 13 R401, R408, R409): requests of
this package's cores, requests of other packages, responses, and carried signals. The
operation codes and the layout of payloads are the model's own (log 16).
-/
namespace Sys2Proof.Machine

/-! ## What leaves the package -/

/-- A request that a core has ready for another package. -/
inductive Outgoing where
  | access (c : Nat) (a : Access)
  | sem (c : Nat) (o : Op)
  | cancel (c : Nat) (o : Op) (wait : Nat)
  deriving DecidableEq, Repr

/-- The first access of each operation that may go to another package. -/
def State.outgoingAccs (s : State) (c : Nat) : List Outgoing :=
  let k := s.core c
  (k.accs.filter fun a => a.stage == .issued && !s.isLocal a.addr && !a.kind.isFence
      && !(k.accs.any fun x => x.op == a.op && decide (x.id < a.id) && x.stage == .issued)
      && !s.blocked c a).map fun a => .access c a

/-- Its semaphore operations, and the withdrawals of waits that have gone out. -/
def State.outgoingSems (s : State) (c : Nat) : List Outgoing :=
  let k := s.core c
  (k.ops.filter fun o => s.semMayGo c o).map (fun o => .sem c o)
    ++ (k.ops.filter fun o => o.port == 0x69A && o.stage == .running && !s.isolated c).filterMap fun o =>
        (firstIf (fun w => w.core == some c && w.acc == o.res.toNat) s.ml.waits).map fun w => .cancel c o w.id

/-- Where a request goes. -/
def State.goesTo (s : State) (x : Outgoing) : Nat :=
  match x with
  | .access _ a => a.addr
  | .sem _ o => (o.operand 0x680).toNat % 2 ^ 56
  | .cancel c _ wait =>
    match firstIf (fun w => w.core == some c && w.id == wait) s.ml.waits with
    | some w => w.pkg * 2 ^ 45 + w.addr
    | none => 0

/-- Requests of all cores that leave by port `p` (R516). -/
def State.outgoing (s : State) (p : Nat) : List Outgoing :=
  ((s.cores.map Prod.fst).flatMap fun c => s.outgoingAccs c ++ s.outgoingSems c).filter fun x =>
    match s.route s.ml.origin.toNat (pkgOf (s.goesTo x)) with
    | some (q, _) => q == p
    | none => false

/-- Lines of the operation that follow access `a` in one packet: contiguous, in the same
aligned 256-byte block, with every byte marked (R518). -/
def State.sameBlock (s : State) (c : Nat) (a : Access) : List Access :=
  let k := s.core c
  (k.accs.filter fun x => x.op == a.op && x.kind == a.kind).foldl (fun l x =>
    let last := (l.getLast?).getD a
    let others := { k with accs := k.accs.filter fun y => !(l.any fun z => z.id == y.id) }
    if x.stage == .issued && decide (a.id < x.id) && x.addr == last.addr + last.bytes.length
        && x.addr / 256 == a.addr / 256 && !a.kind.isAtomic
        && (l ++ [x]).all (fun y => (k.storeData y).all Option.isSome)
        && !(s.setCore c others).blocked c x
    then l ++ [x] else l) [a]

/-- A mask of the bytes present, least significant first. -/
def maskOf : List (Option Byte) → Nat
  | [] => 0
  | b :: t => b2n b.isSome + 2 * maskOf t

/-- The request of an access and its lines, sent. -/
def State.sendAccess (s : State) (c : Nat) (a : Access) : Option State :=
  let k := s.core c
  let g := s.sameBlock c a
  let data := g.flatMap k.storeData
  let bytes := data.map fun b => b.getD 0
  let w : Pending := { pkg := pkgOf a.addr, addr := localOf a.addr, core := some c, acc := a.id, more := (g.drop 1).map Access.id }
  let msg : LinkOp × List Byte := match a.kind with
    | .load => (.read, toBytes 4 data.length)
    | .atomic p => (.atomic p, toBytes 8 a.b.toNat ++ toBytes 8 a.c.toNat ++ [8])
    | _ => if data.all Option.isSome then (.write, bytes) else (.writeMasked, toBytes 8 (maskOf data) ++ bytes)
  (s.request 0 w.pkg msg.1 w.addr false msg.2 w).map fun s =>
    s.modCore c fun k => g.foldl (fun k x => k.modAcc x.id fun y => { y with stage := .sent, bytes := k.storeData x }) k

/-- The request of a semaphore operation, sent. -/
def State.sendSem (s : State) (c : Nat) (o : Op) : Option State :=
  let a := (o.operand 0x680).toNat % 2 ^ 56
  let w : Pending := { pkg := pkgOf a, addr := localOf a, core := some c, acc := o.id }
  (s.request 0 w.pkg (.sem o.port) w.addr false (toBytes 8 o.b.toNat ++ toBytes 8 (o.operand 0x681).toNat) w).map fun s =>
    s.modCore c fun k => k.modOp o.id fun o => { o with stage := .queued }

/-- One request of a core is put into its port's queue. -/
def State.sendOne (s : State) (x : Outgoing) : Option State :=
  match x with
  | .access c a => s.sendAccess c a
  | .sem c o => s.sendSem c o
  | .cancel c o wait =>
    let a := s.goesTo x
    (s.request 0 (pkgOf a) (.sem 0x69A) (localOf a) false (toBytes 8 wait)
        { pkg := pkgOf a, addr := localOf a, core := some c, acc := o.id }).map fun s =>
      s.modCore c fun k => k.modOp o.id fun o => { o with stage := .queued }

/-- PACKET_SEND: what is queued on a virtual channel goes first; else a request of a core,
the arbiter's choice, goes on VC0. VC3 goes before the others (R513). -/
def State.packetSend (s : State) (p vc : Nat) : State :=
  let k := s.port p
  if !s.portUp p || (vc != 3 && !(nget [] k.sendQ 3).isEmpty) then s
  else if !(nget [] k.sendQ vc).isEmpty then s.sendFront p vc
  else if vc = 0 then
    let f := s.fresh
    let l := f.2.outgoing p
    match nth l (Config.arbiter f.1 % max 1 l.length) with
    | none => s
    | some x =>
      match f.2.sendOne x with
      | none => s
      | some t =>
        let t := t.sendFront p 0
        if (t.port p).txSeq = k.txSeq then s else t
  else s

def execPacketSend (p vc : Nat) (s : State) : Host.Outcome State Fault Refusal :=
  need (Instr.packetSend p vc).WellFormed s fun s => whenUp s fun s => s.packetSend p vc

/-! ## Answers -/

/-- An answer for one access of a core. -/
def State.accessAnswer (s : State) (c id : Nat) (st : RespStatus) (bytes : List Byte) : State :=
  match (s.core c).acc id with
  | none => s
  | some a =>
    if st ≠ .ok ∧ st ≠ .poisoned then s.modCore c fun k => k.refuseAcc id st
    else s.modCore c fun k =>
      if a.kind.isLoad then k.serveLoad id (k.overlay s.canonical a (bytes.map some)) (st == .poisoned)
      else k.storeVisible id

/-- An answer for an operation of a core on another package's semaphore. -/
def State.semAnswer (s : State) (c id : Nat) (st : RespStatus) (bytes : List Byte) : State :=
  match (s.core c).opOf id with
  | none => s
  | some o =>
    if o.port = 0x69A then s.modCore c fun k => { k with ops := k.ops.filter fun q => q.id != id }
    else if st = .ok then
      s.modCore c fun k => (k.dropCancels id).modOp id fun o => { o with stage := .served, res := BitVec.ofNat 64 (ofBytes bytes) }
    else s.modCore c fun k => k.semFails o ((o.operand 0x680).toNat % 2 ^ 56)

/-- The answer to an access of the host (16 Table 16.3, R530). -/
def State.hostAnswer (s : State) (w : Pending) (st : RespStatus) (bytes : List Byte) : State :=
  let read := w.acc != 0
  let a := w.pkg * 2 ^ 45 + w.addr
  match st with
  | .ok => if read then s.emit (.completion .success bytes) else s
  | .poisoned =>
    if read then State.emit (State.emit (s.log 0x05 31 none srcHost a 0) .aer) (.completion .poisoned bytes) else s
  | .isolated => s.hostFailure read 2 a w.off
  | .noRoute => s.hostFailure read 3 a w.off
  | _ => s.hostFailure read 1 w.off w.off

/-- Bytes of an answer, cut for the lines that asked for them. -/
def cutBytes : List Nat → List Byte → List (List Byte)
  | [], _ => []
  | n :: t, bs => bs.take n :: cutBytes t (bs.drop n)

/-- A request is answered (R518, R519): whoever waits for it has the answer. -/
def State.answered (s : State) (w : Pending) (st : RespStatus) (bytes : List Byte) : State :=
  let s := { s with ml := { s.ml with waits := s.ml.waits.filter fun x => x.id != w.id } }
  match w.core, w.queue with
  | some c, _ =>
    if ((s.core c).opOf w.acc).isSome then s.semAnswer c w.acc st bytes
    else
      let ids := w.acc :: w.more
      let cut := cutBytes (ids.map fun id => match (s.core c).acc id with | some a => a.bytes.length | none => 0) bytes
      forEach (ids.zip cut) (fun p s => s.accessAnswer c p.1 st p.2) s
  | none, some q => s.dmaAnswer q w st bytes
  | none, none => State.hostSignals (s.hostAnswer w st bytes) s.hi.signals.length

/-- Whether a request has gone RESP_TIMEOUT without a response: one that comes now, or later,
is discarded (R519; 00 R10). -/
def State.timedOut (s : State) (w : Pending) : Bool := decide (w.since + 1000 * s.ml.respTimeout.toNat ≤ s.pw.now)

/-- RESP_TIMEOUT: a request without response for RESP_TIMEOUT µs, or one that a
switch-over left without a route, completes as NO_ROUTE (R519, R517). -/
def State.respTimeout (s : State) (i : Nat) : State :=
  match nth s.ml.waits i with
  | some w =>
    if w.refused || s.timedOut w then s.answered w .noRoute [] else s
  | none => s

def execRespTimeout (i : Nat) (s : State) : Host.Outcome State Fault Refusal :=
  need (Instr.respTimeout i).WellFormed s fun s => whenUp s fun s => s.respTimeout i

/-! ## Arrivals -/

/-- TSEQ of a packet for this package (R520): whether it is accepted. -/
def State.takeTseq (s : State) (k : Packet) : State × Bool :=
  let key := k.vc.toNat * 2048 + k.src.toNat
  let e := nget 0 s.ml.tseqRx key
  let next (s : State) : State := { s with ml := { s.ml with tseqRx := nset key (k.tseq + 1) s.ml.tseqRx } }
  if k.tseq = e then (next s, true)
  else if (k.tseq - e).msb then ({ s with ml := { s.ml with dup := satInc s.ml.dup } }, false)
  else
    let s := s.log 0x0B 31 none srcErrorLog 0 (k.src.toNat + 2 ^ 16 * k.vc.toNat)
    (next { s with ml := { s.ml with gaps := satInc s.ml.gaps } }, true)

/-- A packet accepted from the link goes to its requester, into the queue of requests, or
on by the table of its arrival port (R516). -/
def State.deliverPacket (s : State) (p : Nat) (k : Packet) : State :=
  let k := { k with via := p }
  if k.dest ≠ s.pkg then
    match s.route p k.dest.toNat with
    | some (q, cls) => s.enqueue q cls k
    | none => s.unroutable k
  else if k.ptype = 1 ∨ k.ptype = 2 then
    let r := s.takeTseq k
    if !r.2 then r.1
    else if k.ptype = 1 then { r.1 with ml := { r.1.ml with reqIn := r.1.ml.reqIn ++ [k] } }
    else match firstIf (fun w => w.id == k.credit.toNat) r.1.ml.waits, linkOpOf (Config.moriqOp k.op) with
      | some w, some (.answer st) => if r.1.timedOut w then r.1 else r.1.answered w st k.payload
      | _, _ => r.1
  else s

/-- PACKET_RECEIVE: the sequenced packet at the front (R510, R512, R514). -/
def State.packetReceive (s : State) (p : Nat) : State :=
  let k := s.port p
  match k.rxPkts with
  | [] => s
  | pk :: rest =>
    if pk.ptype = 3 then s
    else
      let s := s.setPort p { k with rxPkts := rest }
      let key := pk.creditKey
      if !pk.crcOk then s.badCrc p key
      else if pk.seq = k.rxSeq then
        let s := s.modPort p fun k => { k with
          rxSeq := k.rxSeq + 1, freed := nset key ((nget 0 k.freed key + pk.units) % 2 ^ 24) k.freed }
        State.deliverPacket ((s.sendControl p key).takeAck p pk.ack) p pk
      else if (pk.seq - k.rxSeq).msb then s
      else s.sendControl p key

def execPacketReceive (p : Nat) (s : State) : Host.Outcome State Fault Refusal :=
  need (Instr.packetReceive p).WellFormed s fun s => whenUp s fun s =>
    if s.portUp p then s.packetReceive p else s

/-! ## Requests of other packages (R518) -/

/-- An atomic of `n` bytes on this package's memory from outside the fabric: far for HBM,
at the yard for a yard (12 R373, 11 R335). -/
def State.outsideAtomic (s : State) (a n port : Nat) (b c : W64) : State × Answer :=
  let new (old : List Byte) : List (Option Byte) :=
    let m := 2 ^ (8 * n)
    (toBytes n (amoValue port (BitVec.ofNat 64 (ofBytes old)) (BitVec.ofNat 64 (b.toNat % m))
      (BitVec.ofNat 64 (c.toNat % m))).toNat).map some
  match resolve a n with
  | some (.hbm x) =>
    if s.pw.hbm ≠ .ready then (s, { st := .unmapped })
    else
      let r := s.recallLine (x / 64) true
      let old := r.1.byteVals x ((r.2.1.drop (x % 64)).take n)
      let s := r.1.countFar (homeAgent x)
      if r.2.2 then (s, { bytes := old, poison := true })
      else
        let d := mergeData r.2.1 (placeInLine (x % 64) (new old))
        (State.hbmWriteLine (s.dropL1 (x / 64) none) (x / 64) d false, { bytes := old })
  | some (.yard d _) =>
    if s.isolated d then (s, { st := .isolated })
    else match s.firstBadWord a n with
      | some w => (s.uncorrYard d w, { st := .isolated })
      | none =>
        let old := (s.yardRead a n).1
        ((s.yardWrite a (new old)).1, { bytes := old })
  | _ => (s, { st := .unmapped })

/-- A read or write of `n` bytes at a register, or of memory. -/
def State.outsideRead (s : State) (a n : Nat) : State × Answer :=
  match decodeLocal a with
  | .hbm _ | .yard .. =>
    let r := s.readRange a n
    (match r.2.bad with
      | some b => (r.1, { st := b.2 })
      | none => (r.1, { bytes := r.2.bytes.map fun b => b.getD 0, poison := r.2.poison.isSome }))
  | .host _ => (s, { st := .unmapped })
  | _ =>
    match resolve a n with
    | some l =>
      let r := s.regRead l n
      (r.1, { st := r.2.1, bytes := if r.2.1 = .ok then toBytes n r.2.2.toNat else [] })
    | none => (s, { st := .unmapped })

def State.outsideWrite (s : State) (a : Nat) (bs : List (Option Byte)) (src : Source) : State × Answer :=
  match decodeLocal a with
  | .hbm _ | .yard .. =>
    let r := s.writeRange a bs false
    (r.1, { st := match r.2 with | some b => b.2 | none => .ok })
  | .host _ => (s, { st := .unmapped })
  | _ =>
    let v := BitVec.ofNat 64 (ofBytes (gotBytes bs))
    match resolve a bs.length with
    | some (.cport c o) =>
      if s.isolated c then (s, { st := .isolated })
      else (s.cpWrite c (0x800 + o / 8) (laneIn o bs.length v) (laneMask o bs.length) false, {})
    | some l =>
      let r := s.regWrite l bs.length v src
      (r.1, { st := r.2 })
    | none => (s, { st := .unmapped })

/-- A queued wait of another package is withdrawn: it ends with CANCELLED (13 R419). -/
def State.semCancelRemote (s : State) (sem pkg id : Nat) : State :=
  let s := s.semExpire sem
  let m := s.sem sem
  let mine : Waiter → Bool := fun w => w.pkg == some pkg && w.op == id
  match firstIf mine m.queue with
  | some w =>
    let s := State.semServe (s.setSem sem { m with queue := m.queue.filter fun w => !mine w }) sem
    s.wake sem w (semWord semCancelled (s.sem sem).count)
  | none => s

/-- A semaphore operation of another package; a wait that queues is answered later. -/
def State.semRemote (s : State) (k : Packet) (sem port : Nat) : State × Option Answer :=
  let word (i : Nat) : W64 := BitVec.ofNat 64 (ofBytes ((k.payload.drop (8 * i)).take 8))
  if port = 0x69A then (s.semCancelRemote sem k.src.toNat (word 0).toNat, some {})
  else
    let w : Waiter := { caller := k.credit.setWidth 15, op := k.credit.toNat, n := (word 0).toNat, deadline := word 1
                        pkg := some k.src.toNat }
    let r := s.semOperate sem port w (word 0)
    match r.2 with
    | some v => (r.1, some { bytes := toBytes 8 v.toNat })
    | none => (r.1, none)

/-- The ECC that a request meets in this package's memory (log 6). -/
def State.packetEcc (s : State) (k : Packet) (ecc : Ecc) : State :=
  match linkOpOf (Config.moriqOp k.op) with
  | some .read => s.readEcc k.addr.toNat (min 256 (ofBytes (k.payload.take 4))) ecc
  | some (.atomic _) => s.readEcc k.addr.toNat 8 ecc
  | some .write => s.writeEcc k.addr.toNat (k.payload.map some) ecc
  | some .writeMasked =>
    let m := ofBytes (k.payload.take 8)
    s.writeEcc k.addr.toNat (((k.payload.drop 8).zip (List.range 64)).map fun p => if m.testBit p.2 then some p.1 else none) ecc
  | _ => s

/-- A request is performed as a local access of its kind would be; what it is answered
with, if at once. -/
def State.performRequest (s : State) (k : Packet) (ecc : Ecc) : State × Option Answer :=
  let s := s.packetEcc k ecc
  let a := k.addr.toNat
  let done (r : State × Answer) : State × Option Answer := (r.1, some r.2)
  match linkOpOf (Config.moriqOp k.op) with
  | some .read => done (s.outsideRead a (min 256 (ofBytes (k.payload.take 4))))
  | some .write => done (s.outsideWrite a (k.payload.map some) (k.credit.setWidth 15))
  | some .writeMasked =>
    let m := ofBytes (k.payload.take 8)
    let bs := (k.payload.drop 8).zip (List.range 64)
    done (s.outsideWrite a (bs.map fun p => if m.testBit p.2 then some p.1 else none) (k.credit.setWidth 15))
  | some (.atomic p) =>
    let word (i : Nat) : W64 := BitVec.ofNat 64 (ofBytes ((k.payload.drop (8 * i)).take 8))
    done (s.outsideAtomic a (if (k.payload.drop 16).head? = some 4 then 4 else 8) p (word 0) (word 1))
  | some (.sem p) =>
    (match resolve a 8 with
      | some (.sem i _) => s.semRemote k i p
      | _ => (s, some { st := .unmapped }))
  | _ => (s, some { st := .unmapped })

/-- The request at the front of the queue is performed and answered on VC1. -/
def State.remoteFront (s : State) (carry : Bool) (ecc : Ecc) : State :=
  match s.ml.reqIn with
  | k :: rest =>
    if k.carry = carry then
      let r := State.performRequest { s with ml := { s.ml with reqIn := rest } } k ecc
      match r.2 with
      | some a =>
        r.1.answer k.src.toNat k.addr.toNat k.credit.toNat (if a.st = .ok ∧ a.poison then .poisoned else a.st) a.bytes
      | none => r.1
    else s
  | [] => s

def execRemoteRequest (ecc : Ecc) (s : State) : Host.Outcome State Fault Refusal :=
  need (Instr.remoteRequest ecc).WellFormed s fun s => whenUp s fun s => State.whenServed (fun s => s.remoteFront false ecc) s

/-! ## CARRIED_SIGNAL (13 R405-R410) -/

/-- Whether every byte of a TMOVE is visible, and, but for the same-path form, all that
stands before it is. -/
def State.carryReady (s : State) (c : Nat) (y : Carry) : Bool :=
  let k := s.core c
  let first := y.moves.getLastD 0
  !s.isolated c && !(k.accs.any fun a => y.moves.contains a.op && !a.done)
    && !(k.ops.any fun q => isSemOp q.port && q.stage == .running && decide (q.id < first)
        && s.destOf ((q.operand 0x680).toNat % 2 ^ 56) == s.destOf y.sem.toNat)
    && !(k.accs.any fun x => decide (x.op < first) && !x.done && s.destOf x.addr == s.destOf y.sem.toNat)
    && !(k.ops.any fun q => decide (q.id < first) && s.sendsTo q y.sem.toNat)
    && (y.samePath || k.fenced first true)

/-- The signal that a core's TMOVE carries is applied, here or at its package. -/
def State.carryCore (s : State) (c : Nat) : State :=
  match (s.core c).carriedDue with
  | [] => s
  | y :: rest =>
    if !s.carryReady c y then s
    else
      let a := y.sem.toNat
      let s := s.modCore c fun k => { k with carriedDue := rest }
      if s.isLocal a then
        match semAt (localOf a) with
        | some i =>
          let r := s.semSignal i (srcCore c) y.n.toNat
          r.1.modCore c fun k => k.modOp y.op fun o => { o with stage := .served, res := r.2.getD 0 }
        | none => s
      else
        match s.request 0 (pkgOf a) (.sem 0x690) (localOf a) true (toBytes 8 y.n.toNat)
            { pkg := pkgOf a, addr := localOf a, core := some c, acc := y.op } with
        | some s => s.modCore c fun k => k.modOp y.op fun o => { o with stage := .queued }
        | none => s.countNoRoute.modCore c fun k =>
            match k.opOf y.op with
            | some o => k.semFails o a
            | none => k

def State.carriedSignal (s : State) (q : CarryReq) : State :=
  match q with
  | .core c => s.carryCore c
  | .queue q => s.dmaSignal q
  | .packet => State.whenServed (fun s => s.remoteFront true .clean) s

def execCarriedSignal (q : CarryReq) (s : State) : Host.Outcome State Fault Refusal :=
  need (Instr.carriedSignal q).WellFormed s fun s => whenUp s fun s => s.carriedSignal q

end Sys2Proof.Machine
end

