-- ==== Sys2Proof/Machine/HostIf.lean ====
section
/-!
DEFINITION. What the host does to the device beyond the registers: configuration requests,
BAR2, AtomicOps and Function Level Reset (16 R480-R494, 01 R45). The configuration header
and the control bits of the capability structures stand where the PCIe base specification
puts them (PRESUMED, log 11).
-/
namespace Sys2Proof.Machine

/-! ## Function Level Reset (R494) -/

/-- A core's read of the host that is outstanding takes the path of R491. -/
def State.hostReadsFail (s : State) (c : Nat) : State :=
  forEach (((s.core c).accs.filter fun a => a.stage == .issued && a.kind == .load && s.destOf a.addr == .host).map Access.id)
    (fun id s => s.hostReadFailure c id) s

/-- FUNCTION_LEVEL_RESET. -/
def State.functionLevelReset (s : State) : State :=
  let s := forN 64 (fun q s => if nhas s.queues q then s.resetDma q else s) s
  let s := forEach (s.cores.map Prod.fst) (fun c s => s.hostReadsFail c) s
  let s := { s with ml := { s.ml with waits := s.ml.waits.filter fun w => w.core.isSome || w.queue.isSome } }
  let s := s.hostSignals s.hi.signals.length
  { s with
    hi := { ({} : HostIf) with flit := s.hi.flit, speed := s.hi.speed, width := s.hi.width, subsys := s.hi.subsys, ready := s.hi.ready }
    queues := s.queues.filterMap fun p => p.2.aborted.map fun j => (p.1, ({ aborted := some j } : Queue)) }

def execFunctionLevelReset (s : State) : Host.Outcome State Fault Refusal :=
  need Instr.functionLevelReset.WellFormed s fun s => whenUp s fun s => s.functionLevelReset

/-! ## Configuration space (01 R45, 16 R480-R482) -/

/-- What was written to a doubleword of configuration space. -/
def State.pci (s : State) (i : Nat) : W32 := nget 0 s.hi.pci i

/-- A capability structure's first two bytes, with the place of the next one. -/
def capHead (id next : Nat) : W32 := BitVec.ofNat 32 (id + next * 4 % 256 * 256)

/-- Doubleword `i` of configuration space. -/
def State.cfgRead (s : State) (i : Nat) : W32 :=
  let w := s.pci i
  let pm := Config.capAt 0
  let pcie := Config.capAt 1
  let msix := Config.capAt 2
  match i with
  | 0 => 0x7020_1F9A
  | 1 => 0x0010_0000 ||| (w &&& 0x546)
  | 2 => 0x1200_0001
  | 3 => w &&& 0xFF
  | 4 => (w &&& 0xFC00_0000) ||| 0x4
  | 5 => w
  | 6 => 0xC
  | 7 => w &&& 0xFFFF_FFF0
  | 8 => (w &&& 0xFFC0_0000) ||| 0x4
  | 9 => w
  | 10 | 12 | 14 => 0
  | 11 => BitVec.ofNat 32 (s.hi.subsys.toNat * 2 ^ 16 + 0x1F9A)
  | 13 => BitVec.ofNat 32 (pm * 4 % 256)
  | 15 => w &&& 0xFF
  | _ =>
    if i = pm then 0x0003_0000 ||| capHead 0x01 pcie
    else if i = pm + 1 then 0x8 ||| (if bits w 1 0 = 3 then 3 else 0)
    else if i = pcie then 0x0002_0000 ||| capHead 0x10 msix
    else if i = pcie + 1 then (Config.pciOther i 0 &&& ~~~0x1000_0007) ||| 0x1000_0002
    else if i = pcie + 2 then (Config.pciOther i 0 &&& 0xFFFF_0000) ||| (w &&& 0x7FFF)
    else if i = pcie + 4 then
      (Config.pciOther i w &&& 0xFC00_FFFF) ||| BitVec.ofNat 32 (s.hi.speed.toNat * 2 ^ 16 + s.hi.width.toNat * 2 ^ 20)
    else if i = pcie + 9 then (Config.pciOther i 0 &&& ~~~0x380) ||| 0x180
    else if i = pcie + 10 then (Config.pciOther i 0 &&& 0xFFFF_0000) ||| (w &&& 0xFFFF)
    else if i = msix then
      0x07FF_0000 ||| capHead 0x11 0 ||| (if s.hi.msixEnable then 0x8000_0000 else 0) ||| (if s.hi.funcMask then 0x4000_0000 else 0)
    else if i = msix + 1 then 0x00E0_0000
    else if i = msix + 2 then 0x00E1_0000
    else Config.pciOther i w

/-- A write of doubleword `i`: MSI-X Enable and Function Mask act at once, and Initiate
Function Level Reset resets the function. -/
def State.cfgWrite (s : State) (i : Nat) (v : W32) : State :=
  let s := { s with hi := { s.hi with pci := nset i v s.hi.pci } }
  if i = Config.capAt 2 ∧ 16 ≤ i then
    State.msixFlushAll { s with hi := { s.hi with msixEnable := bit v 31, funcMask := bit v 30 } }
  else if i = Config.capAt 1 + 2 ∧ 16 ≤ i ∧ bit v 15 then s.functionLevelReset
  else s

/-- CONFIG_REQUEST: answered, or retried until the device is ready (R481). -/
def State.configRequest (s : State) (offset size : Nat) (write : Option W32) : State :=
  if !s.hi.ready || s.cc.boot == .idle then s.emit (.completion .retry [])
  else
    let i := offset / 4
    let sh := 8 * (offset % 4)
    let old := s.cfgRead i
    match write with
    | none => s.emit (.completion .success (toBytes size (old.toNat >>> sh)))
    | some v =>
      let m : W32 := BitVec.ofNat 32 ((2 ^ (8 * size) - 1) * 2 ^ sh)
      let v := (old &&& ~~~m) ||| ((v <<< sh) &&& m)
      (s.emit (.completion .success [])).cfgWrite i v

def execConfigRequest (offset size : Nat) (write : Option W32) (s : State) : Host.Outcome State Fault Refusal :=
  need (Instr.configRequest offset size write).WellFormed s fun s => whenUp s fun s => s.configRequest offset size write

/-! ## BAR2 (R483, R485, R487-R489) -/

/-- The global address that a BAR2 offset reaches; none behind a disabled aperture. -/
def State.aperture (s : State) (offset : Nat) : Option Nat :=
  let a := nget (false, 0) s.hi.ap (offset / 2 ^ 30 % 64)
  if a.1 then some ((a.2.toNat * 2 ^ 30 + offset % 2 ^ 30) % 2 ^ 56) else none

/-- The place of a BAR2 access, where all of its bytes lie in HBM or in one yard, of this
package or another. -/
def State.bar2Place (s : State) (offset n : Nat) : Option Nat :=
  (s.aperture offset).bind fun a =>
    match resolve (localOf a) n with
    | some (.hbm _) => if s.isLocal a && s.pw.hbm != .ready then none else some a
    | some (.yard ..) => some a
    | _ => none

/-- Kind of HI_ERR_LAST for a failed access. -/
def errKindOf : RespStatus → Nat
  | .isolated => 2
  | .noRoute => 3
  | _ => 1

/-- A BAR2 access that cannot be carried out. -/
def State.bar2Fails (s : State) (read : Bool) (offset a : Nat) (st : RespStatus) : State :=
  s.hostFailure read (errKindOf st) (if errKindOf st = 1 then offset else s.canonical a) offset

/-- A BAR2 access unmapped. -/
def State.bar2Unmapped (s : State) (read : Bool) (offset : Nat) : State := s.hostFailure read 1 offset offset

/-- Bytes read go to the host; poisoned data is marked, reported and logged (18 R530). -/
def State.bar2Reply (s : State) (a : Nat) (bytes : List Byte) (poison : Bool) : State :=
  if poison then
    State.emit (State.emit (s.log 0x05 31 none srcHost (s.canonical a) 0) .aer) (.completion .poisoned bytes)
  else s.emit (.completion .success bytes)

/-- Requests of the host to another package, block by block (17 R518). -/
def State.bar2Remote (s : State) (read : Bool) (offset a n : Nat) (data : List Byte) : State :=
  if s.noWayOut a then s.countNoRoute.bar2Fails read offset a .noRoute
  else
    (blocks256 a n).foldl (fun s b =>
      let w : Pending := { pkg := pkgOf b.1, addr := localOf b.1, acc := if read then b.2.2 else 0, off := offset + b.2.1 }
      (s.request 0 w.pkg (if read then .read else .write) w.addr false
        (if read then toBytes 4 b.2.2 else (data.drop b.2.1).take b.2.2) w).getD s) s

/-- BAR2_READ. -/
def State.bar2Read (s : State) (offset n : Nat) (ecc : Ecc) : State :=
  match s.bar2Place offset n with
  | none => s.bar2Unmapped true offset
  | some a =>
    if s.isLocal a then
      let r := (s.readEcc (localOf a) n ecc).readRange (localOf a) n
      match r.2.bad with
      | some b => r.1.bar2Fails true offset a b.2
      | none => r.1.bar2Reply ((r.2.poison.map fun x => s.pkg.toNat * 2 ^ 45 + x).getD a)
          (r.2.bytes.map fun b => b.getD 0) r.2.poison.isSome
    else s.bar2Remote true offset a n []

def execBar2Read (offset len : Nat) (ecc : Ecc) (s : State) : Host.Outcome State Fault Refusal :=
  need (Instr.bar2Read offset len ecc).WellFormed s fun s => whenUp s fun s =>
    State.whenServed (fun s => s.bar2Read offset len ecc) s

/-- BAR2_WRITE: a write that cannot be carried out writes nothing (R489). -/
def State.bar2Write (s : State) (offset : Nat) (bytes : List Byte) (ecc : Ecc) : State :=
  match s.bar2Place offset bytes.length with
  | none => s.bar2Unmapped false offset
  | some a =>
    if s.isLocal a then
      let s := s.writeEcc (localOf a) (bytes.map some) ecc
      let r := s.writeRange (localOf a) (bytes.map some) false
      match r.2 with
      | some b => State.bar2Fails { r.1 with mem := s.mem } false offset a b.2
      | none => r.1
    else s.bar2Remote false offset a bytes.length bytes

def execBar2Write (offset : Nat) (bytes : List Byte) (ecc : Ecc) (s : State) : Host.Outcome State Fault Refusal :=
  need (Instr.bar2Write offset bytes ecc).WellFormed s fun s => whenUp s fun s =>
    State.whenServed (fun s => s.bar2Write offset bytes ecc) s

/-- The atomic port that does what an AtomicOp does (05 Table 5.5). -/
def amoPort : AtomicOp → Nat
  | .fetchAdd => 0x178
  | .swap => 0x17C
  | .cas => 0x17D

/-- BAR2_ATOMICOP: far for HBM, at the yard for a yard (R487). No 128-bit CAS and no
misaligned one is supported (Table 16.1). -/
def State.bar2Atomic (s : State) (op : AtomicOp) (offset n : Nat) (operand compare : W64) (ecc : Ecc) : State :=
  match s.bar2Place offset n with
  | none => s.bar2Unmapped true offset
  | some a =>
    if n = 16 ∨ a % n ≠ 0 then s.bar2Unmapped true offset
    else if s.isLocal a then
      let r := (s.readEcc (localOf a) n ecc).outsideAtomic (localOf a) n (amoPort op) operand compare
      if r.2.st = .ok then r.1.bar2Reply a r.2.bytes r.2.poison else r.1.bar2Fails true offset a r.2.st
    else if s.noWayOut a then s.countNoRoute.bar2Fails true offset a .noRoute
    else
      (s.request 0 (pkgOf a) (.atomic (amoPort op)) (localOf a) false
        (toBytes 8 operand.toNat ++ toBytes 8 compare.toNat ++ toBytes 1 n)
        { pkg := pkgOf a, addr := localOf a, acc := n, off := offset }).getD s

def execBar2AtomicOp (op : AtomicOp) (offset size : Nat) (operand compare : W64) (ecc : Ecc) (s : State) :
    Host.Outcome State Fault Refusal :=
  need (Instr.bar2AtomicOp op offset size operand compare ecc).WellFormed s fun s => whenUp s fun s =>
    State.whenServed (fun s => s.bar2Atomic op offset size operand compare ecc) s

end Sys2Proof.Machine
end

