-- ==== Sys2Proof/Machine/Loader.lean ====
section
/-!
DEFINITION. The configuration controller's commands: each row takes its command from the
image once all of its words are there, and an image that breaks a rule ends at the first
offending word (03 R68-R102, 04 R107-R126; log 48).
-/
namespace Sys2Proof.Machine

/-! ## Taking words -/

def State.lookAhead (s : State) (n : Nat) : List W32 := s.nextWords (min n s.wordsReady)

/-- Whether the controller holds back its next command: until the regions have parked
(04 R123), and until RIGHT_AWAY is qualified (04 R113). -/
def State.loadWaits (s : State) (l : Load) : Bool :=
  (l.part == .parks && l.parked.any fun r => (s.region r).parking)
    || (l.part == .isolates && l.isolated.any fun r => (s.region r).parking)
    || (s.cc.state == 5 && l.part == .checked)

/-- The controller has read `n` words, the last of which is the first offending one. -/
def State.offends (s : State) (l : Load) (n : Nat) : State := (s.takeWords n).formatAt (l.pos + n - 1)

/-- The row of opcode `op` at the next command word. An opcode that no row has, a register
or count out of range, and another command than END at word LENGTH - 1 are FORMAT. -/
def State.atCommand (s : State) (op : Nat) (f : State → Load → W32 → State) : State :=
  match s.cc.load, s.lookAhead 1 with
  | some l, w :: _ =>
    if l.part = .header ∨ l.framesLeft ≠ 0 ∨ s.loadWaits l then s
    else if cmdOp w = op ∨ 0x0D < cmdOp w then
      if cmdOk w ∧ (op = 0x0D ∨ l.pos + 1 ≠ l.length) then f s l w else s.offends l 1
    else s
  | _, _ => s

/-- A command of `n` words, judged word by word as they come; none of them but END may
stand at LENGTH - 1 (R77). -/
def State.wholeCommand (s : State) (l : Load) (n : Nat) (bad : List W32 → Nat → Bool) (f : State → List W32 → State) :
    State :=
  let ws := s.lookAhead n
  match firstIf (fun i => bad ws i || l.pos + i + 1 == l.length) (List.range ws.length) with
  | some i => s.offends l (i + 1)
  | none => if ws.length < n then s.absorb n else f (s.takeWords n) ws

/-- A part of the image is reached: the declared regions of a partial image are being
written from its first fabric command on; STATE 3 (04 Table 4.10, 03 Table 3.6). -/
def State.enterPart (s : State) (l : Load) (p : LoadPart) : State :=
  let s := if !l.full && l.part == .isolates && (p == .fabric || p == .checked) then
      forEach l.declared (fun r s => s.modRegion r fun g =>
        if g.st = .parkedIsolated then { g with st := .writing, hasRun := false } else g) s
    else s
  let s := if p = .fabric ∧ s.cc.state = 2 then { s with cc := { s.cc with state := 3 } } else s
  s.modLoad fun l => { l with part := p }

/-- A command in its place: FORMAT where it may not stand; held until the declarations are
admitted at it (R81) and, in the junction section, until HBM is ready (04 R109). -/
def State.inPlace (s : State) (l : Load) (w far : W32) (f : State → State) : State :=
  if !l.mayStand w far then s.offends l 1
  else if l.admitsAt w far || (l.partOf w far == some .junction && s.pw.hbm != .ready) then s
  else f s

/-! ## SYNC: the header (R75-R77; 04 R111, R115) -/

/-- The junction section of a full load begins: the route tables start from zeros (03 R96,
17 R522). -/
def State.fullBegins (s : State) : State := { s with ml := { s.ml with routes := [], switched := [] } }

/-- The whole header has been read. -/
def State.headerDone (s : State) (ws : List W32) : State :=
  let w (i : Nat) : W32 := (nth ws i).getD 0
  let s := if bit (w 4) 0 then s.fullBegins else s
  let s := (s.takeWords ws.length).modLoad fun l => { l with
    part := .declares, raTimeout := w 5, length := (w 6).toNat, ns := headerNs ws }
  if s.pw.hbm = .failed then s.endLoad 8 rsHbmFailed (ws.length - 1) else s

/-- SYNC: the header is consumed as it comes, and judged word by word. -/
def State.syncRow (s : State) : State :=
  let s := s.seeFull
  match s.cc.load with
  | some l =>
    if l.part = .header then
      let w0 := s.lookAhead 1
      let n := match w0 with | w :: _ => if (headerFault w0 0).isSome then 1 else headerSize w | [] => 0
      let ws := s.lookAhead n
      match headerFaults ws with
      | some f => (s.takeWords f.2.2).endLoad (if f.1 = rsTarget then 7 else 8) f.1 f.2.1
      | none => if ws.isEmpty then s else if ws.length < n then s.absorb n else s.headerDone ws
    else s.atCommand 0x01 fun s _ _ => s
  | none => s

def execSync (s : State) : Host.Outcome State Fault Refusal :=
  need Instr.sync.WellFormed s fun s => whenUp s fun s => s.syncRow

/-- NOP: its words are ignored (Table 3.3). -/
def execNop (s : State) : Host.Outcome State Fault Refusal :=
  need Instr.nop.WellFormed s fun s => whenUp s fun s =>
    s.atCommand 0x00 fun s l w => s.wholeCommand l (1 + cmdCount w) (fun _ _ => false) fun s _ => s

/-- DECLARE (R78, R79). -/
def execDeclare (s : State) : Host.Outcome State Fault Refusal :=
  need Instr.declare.WellFormed s fun s => whenUp s fun s =>
    s.atCommand 0x06 fun s l w => s.inPlace l w 0 fun s =>
      s.wholeCommand l 9 (fun ws i => 0 < i && declFault l.ns.length (i - 1) ((nth ws i).getD 0)) fun s ws =>
        s.modLoad fun l => { l with decls := l.decls ++ [(cmdReg w, declOf l.ns (ws.drop 1))] }

/-! ## Regions of a partial image (R71, R86; 04 R123, R124) -/

/-- PARK. -/
def execPark (s : State) : Host.Outcome State Fault Refusal :=
  need Instr.park.WellFormed s fun s => whenUp s fun s =>
    s.atCommand 0x08 fun s l w => s.inPlace l w 0 fun s =>
      let s := ((s.takeWords 1).enterPart l .parks).modLoad fun l => { l with parked := l.parked ++ [cmdReg w] }
      s.parkRegion (cmdReg w)

/-- ISOLATE; a region that the host has set running again parks first (04 R128). -/
def execIsolate (s : State) : Host.Outcome State Fault Refusal :=
  need Instr.isolate.WellFormed s fun s => whenUp s fun s =>
    s.atCommand 0x07 fun s l w => s.inPlace l w 0 fun s =>
      let r := cmdReg w
      let s := ((s.takeWords 1).enterPart l .isolates).modLoad fun l => { l with isolated := l.isolated ++ [r] }
      if (s.region r).st = .running then State.parkRegion (s.modRegion r fun g => { g with thenIsolate := true }) r
      else s.isolateRegion r

/-! ## Configuration words and frames -/

/-- What breaks R84 or R85 in word `i` of a WRITE_CFG. -/
def cfgFault (l : Load) (ws : List W32) (i : Nat) : Bool :=
  let off := ((nth ws 1).getD 0).toNat
  let a := off + 4 * (i - 2)
  if i = 1 then off % 4 != 0
  else decide (2 ≤ i) && (decide (0x10_0000 ≤ a) || (!l.full && (decide (0x1000 ≤ a) || !l.declared.contains (a / 64))))

/-- Data words stored from a byte offset of a block on, until one of them ends the load. -/
def State.cfgStore (s : State) (l : Load) (reg off : Nat) (data : List W32) : State :=
  forEach (data.zip (List.range data.length)) (fun p s =>
    let o := reg * 0x10_0000 + off + 4 * p.2
    if s.cc.load.isNone then s
    else s.sysWrite (o / 8 * 8) (laneIn o 4 (p.1.setWidth 64)) (laneMask o 4) srcController (l.full && reg != 10)) s

/-- WRITE_CFG: words before an offending one are stored. -/
def State.writeCfgRow (s : State) (l : Load) (w : W32) : State :=
  let n := 1 + cmdCount w
  let ws := s.lookAhead n
  let off := ((nth ws 1).getD 0).toNat
  let store (s : State) (k : Nat) : State := s.cfgStore l (cmdReg w) off ((ws.take k).drop 2)
  let begun (s : State) : State := s.enterPart l (if cmdReg w = 10 then .fabric else .junction)
  match firstIf (fun i => cfgFault l ws i || l.pos + i + 1 == l.length) (List.range ws.length) with
  | some i =>
    let s := store (begun (s.takeWords (i + 1))) i
    if s.cc.load.isNone then s else s.formatAt (l.pos + i)
  | none => if ws.length < n then s.absorb n else store (begun (s.takeWords n)) n

def execWriteCfg (s : State) : Host.Outcome State Fault Refusal :=
  need Instr.writeCfg.WellFormed s fun s => whenUp s fun s =>
    s.atCommand 0x02 fun s l w => s.inPlace l w 0 fun s => s.writeCfgRow l w

/-- SET_FAR (R88, R583): its word tells the section that it belongs to (R81). A FAR out of
the ranges of R88 and R89 that no frame follows offends nothing (R73; log 48). -/
def State.setFarRow (s : State) (l : Load) (w : W32) : State :=
  match s.lookAhead 2 with
  | [_, far] =>
    if l.mayStand w far && (l.pos + 2 == l.length || bits far 31 23 != 0) then s.offends l 2
    else s.inPlace l w far fun s =>
      let s := s.takeWords 2
      let s := match l.partOf w far with | some p => s.enterPart l p | none => s
      s.modLoad fun l => { l with far := some far.toNat, farPast := false }
  | [_] => s.absorb 2
  | _ => s

def execSetFar (s : State) : Host.Outcome State Fault Refusal :=
  need Instr.setFar.WellFormed s fun s => whenUp s fun s => s.atCommand 0x03 fun s l w => s.setFarRow l w

/-- WRITE_FRAMES. -/
def execWriteFrames (s : State) : Host.Outcome State Fault Refusal :=
  need Instr.writeFrames.WellFormed s fun s => whenUp s fun s =>
    s.atCommand 0x04 fun s l w => s.inPlace l w 0 fun s =>
      let s := s.takeWords 1
      let s := match l.partOf w 0 with | some p => s.enterPart l p | none => s
      s.modLoad fun l => { l with framesLeft := cmdCount w, bcast := none }

/-- Whether a rectangle word breaks R92 at the origin `f`. -/
def rectFault (f : Nat) (w : W32) : Bool :=
  let rows := bits w 13 8
  let cols := bits w 5 0
  bits w 31 14 != 0 || bits w 7 6 != 0 || rows == 0 || cols == 0 || decide (40 < farRow f + rows)
    || decide (40 < farCol f + cols)

/-- BCAST_FRAMES. -/
def execBcastFrames (s : State) : Host.Outcome State Fault Refusal :=
  need Instr.bcastFrames.WellFormed s fun s => whenUp s fun s =>
    s.atCommand 0x05 fun s l w => s.inPlace l w 0 fun s =>
      s.wholeCommand l 2 (fun ws i => i == 1 && rectFault (l.far.getD 0) ((nth ws 1).getD 0)) fun s ws =>
        let rect := (nth ws 1).getD 0
        State.modLoad (s.enterPart l .fabric) fun l => { l with
          framesLeft := cmdCount w, bcast := some (bits rect 13 8, bits rect 5 0) }

/-- A table in which the 256 keys from `base` on hold the payload of a frame. -/
def putFrameWords (base : Nat) (payload : List W32) (m : NMap W32) : NMap W32 :=
  (m.filter fun p => decide (p.1 < base))
    ++ ((List.range 256).filterMap fun i => match (nth payload i).getD 0 with | 0 => none | w => some (base + i, w))
    ++ m.filter fun p => decide (base + 256 ≤ p.1)

/-- A frame is written: to the cores of its rectangle, or to a port's route table (R89,
R94, Table 3.4). -/
def State.putFrameAt (s : State) (f rows cols : Nat) (payload : List W32) : State :=
  let minor := farMinor f
  if farDie f < 16 then
    forEach (farCores f rows cols) (fun c s => s.modCore c fun k => { k with
      cfg := putFrameWords (minor * 256) payload k.cfg, cfgBad := k.cfgBad.filter fun x => x / 256 != minor }) s
  else
    let port := 4 * (farDie f - 17) + farRow f
    { s with ml := { s.ml with routes := putFrameWords (port * 4096 + minor * 256) payload s.ml.routes } }

/-- The next frame of the command in progress (R73, R90-R95, R97, R100). -/
def State.nextFrame (s : State) (l : Load) (bcast : Bool) : State :=
  let f := l.far.getD 0
  let rect := l.bcast.getD (1, 1)
  let ws := s.lookAhead 257
  let after := if bcast then farNextBcast f else farNext f
  if ws.isEmpty then s
  else if l.farPast || !l.frameOk f rect.1 rect.2 then s.offends l 1
  else if l.pos < l.length ∧ l.length ≤ l.pos + ws.length then s.offends l (l.length - l.pos)
  else if ws.length < 257 then s.absorb 257
  else
    let check := (nth ws 256).getD 0
    let s := s.takeWords 257
    if bits check 31 16 ≠ 0 then s.formatAt (l.pos + 256)
    else if frameCrc f (ws.take 256) ≠ check.toNat then s.endLoad 8 rsFrameCheck (l.pos + 256)
    else
      let s := s.putFrameAt f rect.1 rect.2 (ws.take 256)
      State.modLoad { s with cc := { s.cc with frames := satInc s.cc.frames, lastFar := BitVec.ofNat 23 f } } fun l => { l with
        framesLeft := l.framesLeft - 1, far := some (after.getD f), farPast := after.isNone
        lastFars := nset (farDie f) f l.lastFars }

/-- FRAME_APPLY. -/
def execFrameApply (s : State) : Host.Outcome State Fault Refusal :=
  need Instr.frameApply.WellFormed s fun s => whenUp s fun s =>
    match s.cc.load with
    | some l => if l.framesLeft ≠ 0 ∧ l.bcast = none then s.nextFrame l false else s
    | none => s

/-- BCAST_FRAME_APPLY. -/
def execBcastFrameApply (s : State) : Host.Outcome State Fault Refusal :=
  need Instr.bcastFrameApply.WellFormed s fun s => whenUp s fun s =>
    match s.cc.load with
    | some l => if l.framesLeft ≠ 0 ∧ l.bcast ≠ none then s.nextFrame l true else s
    | none => s

/-! ## CHECK_END (R98, R102; 04 R110) -/

/-- The yard of a core cleared but for the blocks that its structure frame keeps. -/
def State.clearYard (s : State) (c : Nat) : State :=
  let k := s.core c
  let kept (i : Nat) : Bool := bit (k.frameWord 50 (28 + i / 32)) (i % 32)
  let base (i : Nat) : Nat := yardBase c + 1024 * i
  let clears (w : Nat) : Bool := decide (yardBase c ≤ w) && decide (w < yardBase c + 0x2_0000)
    && !kept ((w - yardBase c) / 1024)
  forN 128 (fun i s => if kept i then s else { s with mem := s.mem.clear (base i) (base i + 1024) })
    { s with yardBad := s.yardBad.filter fun w => !clears w }

/-- The image has passed its check: yards are cleared, and its regions are no longer being
written. -/
def State.checkPassed (s : State) (l : Load) : State :=
  let s := { s with cc := { s.cc with state := 4 } }
  let s := forEach l.decls (fun p s =>
    if p.2.clearYard then forEach (declCores p.1 p.2) (fun c s => s.clearYard c) s else s) s
  forEach l.declared (fun r s => s.modRegion r fun g =>
    if g.st = .writing then { g with st := .parkedIsolated } else g) s

/-- CHECK_END. Where the check fails, WORD_OFFSET is that of the CRC word (R102 names no
word: DESIGN CHOICE, log 48). -/
def State.checkEndRow (s : State) (l : Load) : State :=
  let computed := BitVec.ofNat 32 (match (s.takeWords 1).cc.load with
    | some l => l.crc.toNat ^^^ 0xFFFF_FFFF
    | none => 0)
  s.wholeCommand l 2 (fun _ _ => false) fun s ws =>
    let expected := (nth ws 1).getD 0
    let s := { s with cc := { s.cc with crcExpected := expected, crcComputed := computed } }
    if expected ≠ computed then s.endLoad 8 rsEndCheck (l.pos + 1)
    else State.checkPassed (s.enterPart l .checked) l

def execCheckEnd (s : State) : Host.Outcome State Fault Refusal :=
  need Instr.checkEnd.WellFormed s fun s => whenUp s fun s =>
    s.atCommand 0x0C fun s l w => s.inPlace l w 0 fun s => s.checkEndRow l

/-! ## Start and end -/

/-- WAIT_RIGHT_AWAY: STATE 5, and RA_TIMEOUT begins (04 R114). -/
def execWaitRightAway (s : State) : Host.Outcome State Fault Refusal :=
  need Instr.waitRightAway.WellFormed s fun s => whenUp s fun s =>
    s.atCommand 0x0B fun s l w => s.inPlace l w 0 fun s =>
      let s := s.takeWords 1
      let deadline := if l.raTimeout = 0 then none else some (s.pw.now + l.raTimeout.toNat * 1000)
      { s with cc := { s.cc with state := 5 }, ra := { s.ra with deadline := deadline } }

/-- START (R82, R582; 04 R126, R129). -/
def execStart (s : State) : Host.Outcome State Fault Refusal :=
  need Instr.start.WellFormed s fun s => whenUp s fun s =>
    s.atCommand 0x09 fun s l w => s.inPlace l w 0 fun s =>
      let rs := l.named w
      let s := ((s.takeWords 1).enterPart l .starts).modLoad fun l => { l with started := l.started ++ rs }
      forEach (l.decls.filter fun p => rs.contains p.1) (fun p s =>
        let s := if l.full then s else s.reviveRange p.1 p.2
        s.startRegion p.1) s

/-- UNISOLATE (R582; 04 R128, R129). -/
def execUnisolate (s : State) : Host.Outcome State Fault Refusal :=
  need Instr.unisolate.WellFormed s fun s => whenUp s fun s =>
    s.atCommand 0x0A fun s l w => s.inPlace l w 0 fun s =>
      let rs := l.named w
      let s := ((s.takeWords 1).enterPart l .unisolates).modLoad fun l => { l with unisolated := l.unisolated ++ rs }
      forEach rs (fun r s => s.unisolateRegion r) s

/-- END (R77, R87). -/
def execLoadEnd (s : State) : Host.Outcome State Fault Refusal :=
  need Instr.loadEnd.WellFormed s fun s => whenUp s fun s =>
    s.atCommand 0x0D fun s l w => s.inPlace l w 0 fun s => (s.takeWords 1).loadDone

end Sys2Proof.Machine
end

