-- ==== Sys2Proof/Machine/Slice.lean ====
section
/-!
DEFINITION. Die-cache slices: accesses served by window policy, the siding, probes and
forwarded requests answered, lines granted and held (11 R342-R351, 12 R366-R380).
-/
namespace Sys2Proof.Machine

/-! ## Probes answered (R349, R366, R378) -/

/-- A probe is answered. -/
def State.answerProbe (s : State) (p : Probe) : State :=
  let r := s.yieldLine p.slice p.line p.mode
  let a : Resp :=
    { req := p.req, agent := p.agent, line := p.line, slice := p.slice, left := r.2.left, data := r.2.data
      dirty := r.2.dirty, poison := r.2.poison }
  { r.1 with co := { r.1.co with probes := eraseFirst (· == p) r.1.co.probes, resps := r.1.co.resps ++ [a] } }

/-- Whether the record already gives the die a line that is still to reach it (R370). -/
def State.promised (s : State) (slice line : Nat) : Bool :=
  s.co.fwds.any fun f => f.req.slice == slice && f.req.line == line

/-- A forwarded request is answered: the owner hands the line to the requester (R370). -/
def State.answerForward (s : State) (f : Fwd) : State :=
  let own := f.req.kind == .ownFill
  let h := s.holders f.req.line
  let r := s.yieldLine f.owner f.req.line (if own then .remove else .share)
  let d := match r.2.data with
    | some d => (d, r.2.poison)
    | none => s.homeData f.req
  let s := { r.1 with co := { r.1.co with fwds := eraseFirst (· == f) r.1.co.fwds } }
  let s := if own || s.promised f.owner f.req.line then s.setHolders f.req.line h else s
  s.grant f.req (if own then .M else .S) d

/-- Probes and requests that a hold kept waiting are answered. -/
def State.answerWaiting (s : State) (slice line : Nat) : State :=
  let s := forEach (s.co.probes.filter fun p => p.arrived && p.slice == slice && p.line == line)
    (fun p s => s.answerProbe p) s
  forEach (s.co.fwds.filter fun f => f.arrived && f.owner == slice && f.req.line == line)
    (fun f s => s.answerForward f) s

/-- Whether the line is still on its way to the slice, so that what was ordered after it
waits (R370). -/
def State.onItsWay (s : State) (slice line seq : Nat) : Bool :=
  s.co.grants.any (fun g => g.slice == slice && g.line == line)
    || s.co.fwds.any (fun f => f.req.slice == slice && f.req.line == line && decide (f.req.seq < seq))

/-- PROBE. -/
def State.probeEvent (s : State) (i : Nat) : State :=
  match nth s.co.probes i with
  | none => s
  | some p =>
    if p.arrived || s.onItsWay p.slice p.line p.seq
        || s.co.fwds.any (fun f => f.owner == p.slice && f.req.line == p.line && decide (f.req.seq < p.seq)) then s
    else
      match s.findLine p.slice p.line with
      | some (key, w) =>
        if w.holdEnd.isSome then
          let s := s.meetHold p.slice key w
          { s with co := { s.co with probes := mapIf (· == p) (fun p => { p with arrived := true }) s.co.probes } }
        else s.answerProbe p
      | none => s.answerProbe p

def execProbe (i : Nat) (s : State) : Host.Outcome State Fault Refusal :=
  need (Instr.probe i).WellFormed s fun s => whenUp s fun s => s.probeEvent i

/-- Accesses that wait at their slice for a line. -/
def State.waitingFor (s : State) (slice line : Nat) : List Access :=
  s.cores.flatMap fun p =>
    if dieOf p.1 = slice / 32 then
      p.2.accs.filter fun a => a.stage == .atSlice && localOf a.addr / 64 == line && s.isLocal a.addr
    else []

/-- Whether one of them came first and hits: the owner answers its own die and others in the
order they reach its slice (R370). -/
def State.earlierHit (s : State) (slice line : Nat) : Bool :=
  match s.findLine slice line with
  | some (_, w) => (s.waitingFor slice line).any fun a => w.st == .M || w.st == .E || a.kind == .load || a.kind == .prefetch
  | none => false

/-- FORWARDED_REQUEST: it is answered once the owner holds the line, its hold has ended,
and the sharers have given theirs up. -/
def State.forwardedRequest (s : State) (i : Nat) : State :=
  match nth s.co.fwds i with
  | none => s
  | some f =>
    let q := f.req
    if f.arrived || !q.need.isEmpty || s.onItsWay f.owner q.line q.seq || s.earlierHit f.owner q.line
        || s.co.fwds.any (fun g => g.owner == f.owner && g.req.line == q.line && decide (g.req.seq < q.seq)) then s
    else
      match s.findLine f.owner q.line with
      | some (key, w) =>
        if w.holdEnd.isSome then
          let s := s.meetHold f.owner key w
          { s with co := { s.co with fwds := mapIf (· == f) (fun f => { f with arrived := true }) s.co.fwds } }
        else s.answerForward f
      | none => s.answerForward f

def execForwardedRequest (i : Nat) (s : State) : Host.Outcome State Fault Refusal :=
  need (Instr.forwardedRequest i).WellFormed s fun s => whenUp s fun s => s.forwardedRequest i

/-! ## Tablet hold (R377-R380) -/

/-- The predicted atomics of a hold that ends are judged (R375). -/
def State.judge (s : State) (slice : Nat) (w : Line) : State :=
  forN w.predicted (fun _ s => if w.probed then s.predUp slice w.line else s.predDown slice w.line) s

/-- TABLET_HOLD_END. Accesses of the die that reached the slice before a waiting probe are
served first (R378). -/
def State.holdEnds (s : State) (slice line : Nat) : State :=
  match s.findLine slice line with
  | some (key, w) =>
    if (match w.holdEnd with | some t => decide (t ≤ s.pw.now) | none => false)
        && !(s.probeWaits slice line && !(s.waitingFor slice line).isEmpty) then
      let s := s.setLine key { w with holdEnd := none, predicted := 0, probed := false }
      (s.judge slice w).answerWaiting slice line
    else s
  | none => s

def execTabletHoldEnd (slice line : Nat) (s : State) : Host.Outcome State Fault Refusal :=
  need (Instr.tabletHoldEnd slice line).WellFormed s fun s => whenUp s fun s => s.holdEnds slice line

/-! ## SLICE_ACCESS -/

/-- A load, or a PREFETCH, at its slice (R337, R343, Table 11.2). -/
def State.sliceLoad (s : State) (c slice line : Nat) (a : Access) (t : Attr) : State :=
  match s.findSiding slice line, s.findLine slice line with
  | some e, _ =>
    if a.kind = .prefetch ∨ e.stale then s.waitAtSlice c a else s.serveLine c a line e.data e.poison false
  | none, found =>
    if t.cache = 2 then
      if a.kind = .prefetch then s.modCore c fun k => k.controlDone a
      else s.sendRequest c a slice line .readBypass t false
    else
      match found with
      | some (key, w) =>
        let s := s.setLine key { w with age := 0 }
        if a.kind = .prefetch then s.modCore c fun k => k.controlDone a
        else s.serveLine c a line w.data w.poison (t.cache ≤ 1 && !t.stream)
      | none => s.orWait c a slice line fun s => s.sendRequest c a slice line .readFill t false

/-- A store that meets a siding entry not yet issued (11 Table 11.2). -/
def State.mergeSiding (s : State) (c slice line : Nat) (a : Access) (e : Siding) : State :=
  let r := stored e.data e.poison a
  let put (e : Siding) : Siding := { e with st := .M, data := r.1, poison := r.2 }
  let s := s.setSiding slice (mapIf (fun e => e.line == line) put (s.siding slice))
  let s := { s with co := { s.co with merged := nset slice (satInc (nget 0 s.co.merged slice)) s.co.merged } }
  (s.holdAs slice line .M).showStore c line a

/-- A store at its slice; its data has come with it. -/
def State.sliceStore (s : State) (c slice line : Nat) (a : Access) (t : Attr) : State :=
  let b := { a with bytes := (s.core c).storeData a }
  match s.findSiding slice line, s.findLine slice line with
  | some e, _ =>
    if !e.issued && (e.st == .M || e.st == .E) then s.mergeSiding c slice line b e else s.waitAtSlice c a
  | none, some (key, w) =>
    if t.cache = 0 then
      if w.st = .M ∨ w.st = .E then s.storeHit c key w b
      else s.orWait c a slice line fun s => s.sendRequest c a slice line .ownFill t false
    else s.sendRequest c a slice line (if t.cache = 1 then .writeThrough else .writeBypass) t false
  | none, none =>
    if t.cache = 2 || !t.walloc then s.sendRequest c a slice line .writeBypass t false
    else s.orWait c a slice line fun s => s.sendRequest c a slice line (if t.cache = 0 then .ownFill else .readFill) t false

/-- Whether an atomic goes far, and whether that was predicted (R374, R375). -/
def State.atomicFar (s : State) (slice line : Nat) (t : Attr) : Bool × Bool :=
  if t.cache = 2 ∨ t.atomic = 2 then (true, false)
  else if t.atomic = 1 then (false, false)
  else (decide (2 ≤ (s.predAt slice line).toNat), true)

/-- An atomic at its slice (R339, R373-R375). -/
def State.sliceAtomic (s : State) (c slice line : Nat) (a : Access) (t : Attr) : State :=
  let f := s.atomicFar slice line t
  if f.1 then
    let n := nget 0 s.co.predFar slice
    let s := if f.2 then { s with co := { s.co with predFar := nset slice (satInc n) s.co.predFar } } else s
    s.sendRequest c a slice line .farAtomic t f.2
  else
    match s.findSiding slice line, s.findLine slice line with
    | some _, _ => s.waitAtSlice c a
    | none, some (key, w) =>
      if w.st = .M ∨ w.st = .E then s.atomicHit c slice key w a f.2
      else s.orWait c a slice line fun s => s.sendRequest c a slice line .ownFill t f.2
    | none, none => s.orWait c a slice line fun s => s.sendRequest c a slice line .ownFill t f.2

/-- CLEAN or FLUSH at its slice (12 Table 12.2); one that meets a siding entry completes when
that retires. -/
def State.sliceControl (s : State) (c slice line : Nat) (a : Access) : State :=
  match s.findSiding slice line, s.findLine slice line with
  | some _, _ => s.waitAtSlice c a
  | none, none => s.modCore c fun k => k.controlDone a
  | none, some (key, w) =>
    let h := s.holders line
    let s := if w.st.dirty then s.hbmWriteLine line w.data w.poison else s
    let s :=
      if a.kind = .flush then
        let s := ((s.dropLine key).dropDieL1 (slice / 32) line).holdNot slice line
        if w.holdEnd.isSome then (s.judge slice w).answerWaiting slice line else s
      else
        let st := match w.st with | .M => LineSt.E | .O => .S | x => x
        (s.setLine key { w with st := st }).holdAs slice line st
    let s := if s.promised slice line then s.setHolders line h else s
    s.modCore c fun k => k.controlDone a

/-- An access whose turn it is, by its kind. -/
def State.sliceServe (s : State) (c slice line : Nat) (a : Access) : State :=
  let t := attrOf (s.attrBits a)
  match a.kind with
  | .load | .prefetch => s.sliceLoad c slice line a t
  | .store => s.sliceStore c slice line a t
  | .atomic _ => s.sliceAtomic c slice line a t
  | .clean | .flush => s.sliceControl c slice line a
  | _ => s

/-- SLICE_ACCESS: access `id` of core `c` reaches its slice, or goes on there. A load
that its L1 holds does not come; what follows a waiting probe waits (R378). An atomic drops
its line from its own L1 on the way (11 R339). -/
def State.sliceAccess (s : State) (c id : Nat) (ecc : Ecc) : State :=
  match (s.core c).acc id with
  | none => s
  | some a =>
    match s.destOf a.addr with
    | .hbm =>
      let line := localOf a.addr / 64
      let slice := sliceFor (dieOf c) line
      let k := s.core c
      let fresh := a.stage == .issued
      if !(fresh && !s.blocked c a) && a.stage != .atSlice then s
      else if fresh && ((a.kind == .load && k.mayL1 a && (k.l1Hit line).isSome) || s.probeWaits slice line) then s
      else
        let s := if a.kind.isAtomic then s.modCore c fun k => k.dropOwnL1 line else s
        (s.sliceEcc slice line ecc).sliceServe c slice line a
    | _ => s

def execSliceAccess (c id : Nat) (ecc : Ecc) (s : State) : Host.Outcome State Fault Refusal :=
  need (Instr.sliceAccess c id ecc).WellFormed s fun s => whenUp s fun s => s.sliceAccess c id ecc

/-! ## Siding (R347-R350) -/

/-- SIDING_ISSUE: the first entry not yet issued goes to its home agent. -/
def State.sidingIssue (s : State) (slice : Nat) : State :=
  match firstIf (fun e => !e.issued) (s.siding slice) with
  | none => s
  | some e =>
    let s := s.setSiding slice (mapIf (fun x => x.line == e.line) (fun e => { e with issued := true }) (s.siding slice))
    let w : Wb :=
      { slice := slice, line := e.line, agent := homeAgent (64 * e.line)
        data := if e.st.dirty then some e.data else none, poison := e.poison }
    { s with co := { s.co with wbs := s.co.wbs ++ [w] } }

def execSidingIssue (slice : Nat) (s : State) : Host.Outcome State Fault Refusal :=
  need (Instr.sidingIssue slice).WellFormed s fun s => whenUp s fun s => s.sidingIssue slice

/-- SIDING_RETIRE: an acknowledgement arrives, and its entry is gone. An acknowledgement
does not pass a probe or a forwarded request that its agent sent before it. -/
def State.sidingRetire (s : State) (i : Nat) : State :=
  match nth s.co.acks i with
  | none => s
  | some (slice, line) =>
    if s.sought slice line then s
    else
      let s := s.retireEntry slice line
      { s with co := { s.co with acks := dropNth s.co.acks i } }

def execSidingRetire (i : Nat) (s : State) : Host.Outcome State Fault Refusal :=
  need (Instr.sidingRetire i).WellFormed s fun s => whenUp s fun s => s.sidingRetire i

/-! ## LINE_GRANT -/

/-- The access that a granted line serves. A write-through store that wins the line alone goes
home with it (11 Table 11.1). -/
def State.grantServe (s : State) (g : Grant) (key : Nat) (w : Line) : State :=
  match (s.core g.core).acc g.acc with
  | none => s
  | some a =>
    match g.kind, a.kind with
    | .ownFill, .store =>
      let r := stored w.data w.poison a
      (s.setLine key { w with data := r.1, poison := r.2 }).showStore g.core g.line a
    | .ownFill, _ =>
      if w.poison then s.modCore g.core fun k => k.serveLoad a.id ((s.lineBytesOf a w.data).map some) true
      else
        let r := s.atomicOn w.data a
        let w := { w with data := r.1 }
        let s := (s.setLine key w).dropL1 g.line none
        let s := if g.predicted then s.predNearDone g.slice key w else s
        s.modCore g.core fun k => k.loadServed a.id (r.2.map some)
    | _, .prefetch => s.modCore g.core fun k => k.controlDone a
    | _, .store =>
      if g.st = .E then s.throughStore g.slice g.line g.core g.acc (w.data, w.poison)
      else s.modCore g.core fun k => k.modAcc a.id fun a => { a with stage := .atSlice }
    | _, _ => s.serveLine g.core a g.line w.data w.poison g.l1

/-- Whether a granted line is won for a store or an atomic in E or M (R377). -/
def State.wins (s : State) (g : Grant) : Bool :=
  g.kind == .ownFill || (g.st == .E && (match (s.core g.core).acc g.acc with
    | some a => a.kind == .store
    | none => false))

/-- LINE_GRANT: a line, or the data of a load served at home, reaches its slice. A line
the die still holds is upgraded in place; another takes a way, or waits for one. -/
def State.lineGrant (s : State) (i : Nat) : State :=
  match nth s.co.grants i with
  | none => s
  | some g =>
    let gone := { s with co := { s.co with grants := dropNth s.co.grants i } }
    if g.kind = .readBypass then
      match (s.core g.core).acc g.acc with
      | some a => gone.serveLine g.core a g.line g.data g.poison false
      | none => gone
    else
      let hold := if s.wins g && s.co.hold != 0 then some (s.pw.now + s.co.hold.toNat) else none
      let w : Line :=
        { line := g.line, st := g.st, age := if g.age3 then 3 else 1, data := g.data, poison := g.poison, holdEnd := hold }
      match s.findLine g.slice g.line with
      | some (key, _) =>
        let w := { w with age := 0 }
        (gone.setLine key w).grantServe g key w
      | none =>
        let v := s.takeWay g.slice (setOf (64 * g.line)) g.req
        match v.2 with
        | none => v.1
        | some key =>
          let s := { v.1 with co := { v.1.co with
            grants := dropNth v.1.co.grants i
            delayedBy := v.1.co.delayedBy.filter fun p => p.2 != g.req } }
          (s.setLine key w).grantServe g key w

def execLineGrant (i : Nat) (s : State) : Host.Outcome State Fault Refusal :=
  need (Instr.lineGrant i).WellFormed s fun s => whenUp s fun s => s.lineGrant i

end Sys2Proof.Machine
end

