-- ==== Sys2Proof/Machine/Smbus.lean ====
section
/-!
DEFINITION. The SMBus target (19 R552-R555, Table 19.5). What it returns stands as the
bytes of the content, without count and PEC.
-/
namespace Sys2Proof.Machine

/-- A command that the target takes: NACKed until it is operational, and while PERST_N is
low but for commands 0x00 to 0x02 (R553). -/
def State.smbTakes (s : State) (low : Bool) (f : State → State) : State :=
  if s.pw.smbReady && (s.pw.perst || low) then f s else s.emit .smbNack

/-- A write with a wrong PEC is NACKed, and nothing is written (R554). -/
def State.smbWrite (s : State) (low pecOk : Bool) (f : State → State) : State :=
  s.smbTakes low fun s => if pecOk then f s else s.emit .smbNack

/-- SMBUS_READY (R553). -/
def execSmbusReady (s : State) : Host.Outcome State Fault Refusal :=
  need Instr.smbusReady.WellFormed s fun s =>
    if s.pw.rails.contains .vio18 && s.pw.rails.contains .vinFab then { s with pw := { s.pw with smbReady := true } } else s

/-- IDENTITY: 20 bytes of the identity block. -/
def execIdentity (s : State) : Host.Outcome State Fault Refusal :=
  need Instr.identity.WellFormed s fun s => s.smbTakes true fun s =>
    s.emit (.smbus (toBytes 4 (s.sysRead 0x000).toNat ++ toBytes 8 (s.sysRead 0x008).toNat ++ toBytes 8 (s.sysRead 0x010).toNat))

/-- STATUS of Table 19.5. -/
def State.smbStatus (s : State) : W64 :=
  pack [(6, b2n s.flashBusy), (5, b2n (s.sd.alertEvent != 0)), (4, b2n s.sb.floorShort), (3, b2n s.sb.capActive)
    , (2, b2n s.sb.thermtrip), (1, b2n (s.cc.state == 6)), (0, b2n s.pw.perst)]

def execStatus (s : State) : Host.Outcome State Fault Refusal :=
  need Instr.status.WellFormed s fun s => s.smbTakes true fun s => s.emit (.smbus (toBytes 1 s.smbStatus.toNat))

/-- ALERT read. -/
def execAlertRead (s : State) : Host.Outcome State Fault Refusal :=
  need Instr.alertRead.WellFormed s fun s => s.smbTakes true fun s =>
    s.emit (.smbus (toBytes 2 s.sd.alertEvent.toNat))

/-- ALERT write: ones clear their bits, and SMB_ALERT_N follows (R555). -/
def execAlertWrite (v : W16) (pecOk : Bool) (s : State) : Host.Outcome State Fault Refusal :=
  need (Instr.alertWrite v pecOk).WellFormed s fun s => s.smbWrite true pecOk fun s =>
    s.writeAlert (v.setWidth 64) 0x1F

/-- ALERT_RESPONSE: the target that asserts SMB_ALERT_N answers with its address, and
releases the line where no enabled bit is left (R552, R555). -/
def execAlertResponse (s : State) : Host.Outcome State Fault Refusal :=
  need Instr.alertResponse.WellFormed s fun s =>
    if s.pw.smbReady && s.sd.alertOut then
      State.alertLine (s.emit (.smbus [BitVec.ofNat 8 ((0x4C + s.pw.smbAddr.toNat) * 2 + b2n Config.araBit)]))
    else s.emit .smbNack

/-- BOARD_CEIL read. -/
def execBoardCeilRead (s : State) : Host.Outcome State Fault Refusal :=
  need Instr.boardCeilRead.WellFormed s fun s => s.smbTakes false fun s =>
    s.emit (.smbus (toBytes 2 s.sb.boardCeil.toNat))

/-- BOARD_CEIL write (15 R448). -/
def execBoardCeilWrite (v : W16) (pecOk : Bool) (s : State) : Host.Outcome State Fault Refusal :=
  need (Instr.boardCeilWrite v pecOk).WellFormed s fun s => s.smbWrite false pecOk fun s =>
    s.boardCeilWrite srcSmbus v.toNat

/-- POWER: SB_POWER. -/
def execPower (s : State) : Host.Outcome State Fault Refusal :=
  need Instr.power.WellFormed s fun s => s.smbTakes false fun s =>
    s.emit (.smbus (toBytes 8 (s.readSb 0x038).toNat))

/-- The hottest TEMP of the cells that have data; 0 where none has, as TEMP then reads in
every cell. -/
def State.hottestCell (s : State) : Nat :=
  match s.tf.cells.filterMap fun p => if p.2.noData then none else some p.2.temp with
  | [] => 0
  | t :: l => (l.foldl (fun m x => if m.toInt < x.toInt then x else m) t).toNat

/-- TEMPS. -/
def execTemps (s : State) : Host.Outcome State Fault Refusal :=
  need Instr.temps.WellFormed s fun s => s.smbTakes false fun s =>
    s.emit (.smbus (toBytes 2 s.hottestCell ++ (List.range 8).map fun h => nget 0 s.tf.hbm h))

/-- REG_ADDR; a value that names no register is NACKed (log 46). -/
def execRegAddr (v : W32) (pecOk : Bool) (s : State) : Host.Outcome State Fault Refusal :=
  need (Instr.regAddr v pecOk).WellFormed s fun s => s.smbWrite false pecOk fun s =>
    if v.toNat % 8 = 0 ∧ v.toNat ≤ 0xBF_FFF8 then { s with sd := { s.sd with regAddr := v } } else s.emit .smbNack

/-- The register at REG_ADDR. -/
def State.regTarget (s : State) : RegTarget := .addr (0x0E00_0000_0000 + s.sd.regAddr.toNat)

/-- REG_DATA read. -/
def execRegDataRead (s : State) : Host.Outcome State Fault Refusal :=
  need Instr.regDataRead.WellFormed s fun s => s.smbTakes false fun s => s.registerRead srcSmbus s.regTarget 8

/-- REG_DATA write; its source is 0x7FFB (R554). -/
def execRegDataWrite (v : W64) (pecOk : Bool) (s : State) : Host.Outcome State Fault Refusal :=
  need (Instr.regDataWrite v pecOk).WellFormed s fun s => s.smbWrite false pecOk fun s =>
    s.registerWrite srcSmbus s.regTarget 8 v

end Sys2Proof.Machine
end

