-- ==== Sys2Proof/Machine/Dispatch.lean ====
section
/-!
DEFINITION. Every command and its meaning, in the order of the table.
-/
namespace Sys2Proof.Machine

def exec (i : Instr) (s : State) : Host.Outcome State Fault Refusal :=
  match i with
  | .perstNRise bootsel pwrceil refclk store => Sys2Proof.Machine.execPerstNRise bootsel pwrceil refclk store s
  | .perstNAssert => Sys2Proof.Machine.execPerstNAssert s
  | .railInRange rail smbaddr => Sys2Proof.Machine.execRailInRange rail smbaddr s
  | .railOutOfRange rail => Sys2Proof.Machine.execRailOutOfRange rail s
  | .timebaseTick n => Sys2Proof.Machine.execTimebaseTick n s
  | .refLost => Sys2Proof.Machine.execRefLost s
  | .refclkLock => Sys2Proof.Machine.execRefclkLock s
  | .refLostClear => Sys2Proof.Machine.execRefLostClear s
  | .hbmReady => Sys2Proof.Machine.execHbmReady s
  | .hbmTrainTimeout failed => Sys2Proof.Machine.execHbmTrainTimeout failed s
  | .bootStoreScan => Sys2Proof.Machine.execBootStoreScan s
  | .winProducedWrite words => Sys2Proof.Machine.execWinProducedWrite words s
  | .go => Sys2Proof.Machine.execGo s
  | .abort => Sys2Proof.Machine.execAbort s
  | .sync => Sys2Proof.Machine.execSync s
  | .nop => Sys2Proof.Machine.execNop s
  | .declare => Sys2Proof.Machine.execDeclare s
  | .admission => Sys2Proof.Machine.execAdmission s
  | .writeCfg => Sys2Proof.Machine.execWriteCfg s
  | .setFar => Sys2Proof.Machine.execSetFar s
  | .writeFrames => Sys2Proof.Machine.execWriteFrames s
  | .bcastFrames => Sys2Proof.Machine.execBcastFrames s
  | .frameApply => Sys2Proof.Machine.execFrameApply s
  | .bcastFrameApply => Sys2Proof.Machine.execBcastFrameApply s
  | .park => Sys2Proof.Machine.execPark s
  | .regionParked r prog => Sys2Proof.Machine.execRegionParked r prog s
  | .isolate => Sys2Proof.Machine.execIsolate s
  | .checkEnd => Sys2Proof.Machine.execCheckEnd s
  | .waitRightAway => Sys2Proof.Machine.execWaitRightAway s
  | .raRelease => Sys2Proof.Machine.execRaRelease s
  | .rightAwayRise => Sys2Proof.Machine.execRightAwayRise s
  | .rightAwayFall => Sys2Proof.Machine.execRightAwayFall s
  | .raQualified => Sys2Proof.Machine.execRaQualified s
  | .rightAwayTimeout => Sys2Proof.Machine.execRightAwayTimeout s
  | .raLowEvent => Sys2Proof.Machine.execRaLowEvent s
  | .start => Sys2Proof.Machine.execStart s
  | .unisolate => Sys2Proof.Machine.execUnisolate s
  | .loadEnd => Sys2Proof.Machine.execLoadEnd s
  | .rgnCtrlPark r src => Sys2Proof.Machine.execRgnCtrlPark r src s
  | .run r src => Sys2Proof.Machine.execRun r src s
  | .reset r src => Sys2Proof.Machine.execReset r src s
  | .clearRed r src => Sys2Proof.Machine.execClearRed r src s
  | .rgnHoldClear r park reset src => Sys2Proof.Machine.execRgnHoldClear r park reset src s
  | .registerWrite src t size v => Sys2Proof.Machine.execRegisterWrite src t size v s
  | .bundleExecute c stale ecc frame => Sys2Proof.Machine.execBundleExecute c stale ecc frame s
  | .scalarOpComplete c unit => Sys2Proof.Machine.execScalarOpComplete c unit s
  | .memoryResponse c id host ecc => Sys2Proof.Machine.execMemoryResponse c id host ecc s
  | .storeAccepted c id ecc => Sys2Proof.Machine.execStoreAccepted c id ecc s
  | .fenceComplete c => Sys2Proof.Machine.execFenceComplete c s
  | .guestAck c => Sys2Proof.Machine.execGuestAck c s
  | .guestTimeout c => Sys2Proof.Machine.execGuestTimeout c s
  | .guestLogicInterrupt c => Sys2Proof.Machine.execGuestLogicInterrupt c s
  | .cpTimerCmpWrite c v => Sys2Proof.Machine.execCpTimerCmpWrite c v s
  | .coreTimer c => Sys2Proof.Machine.execCoreTimer c s
  | .interruptEntry c prog => Sys2Proof.Machine.execInterruptEntry c prog s
  | .exceptionEntry c => Sys2Proof.Machine.execExceptionEntry c s
  | .convertComplete c => Sys2Proof.Machine.execConvertComplete c s
  | .vectorOpComplete c => Sys2Proof.Machine.execVectorOpComplete c s
  | .intervalStep c ecc => Sys2Proof.Machine.execIntervalStep c ecc s
  | .trainHeader c => Sys2Proof.Machine.execTrainHeader c s
  | .matrixOpComplete c ecc => Sys2Proof.Machine.execMatrixOpComplete c ecc s
  | .tmoveComplete c => Sys2Proof.Machine.execTmoveComplete c s
  | .remoteYardAccess c id ecc => Sys2Proof.Machine.execRemoteYardAccess c id ecc s
  | .sliceAccess c id ecc => Sys2Proof.Machine.execSliceAccess c id ecc s
  | .sidingIssue slice => Sys2Proof.Machine.execSidingIssue slice s
  | .sidingRetire k => Sys2Proof.Machine.execSidingRetire k s
  | .awRangeWrite n v src => Sys2Proof.Machine.execAwRangeWrite n v src s
  | .awAttrWrite n v src => Sys2Proof.Machine.execAwAttrWrite n v src s
  | .homeRequest k => Sys2Proof.Machine.execHomeRequest k s
  | .forwardedRequest k => Sys2Proof.Machine.execForwardedRequest k s
  | .probe k => Sys2Proof.Machine.execProbe k s
  | .probeResponse k => Sys2Proof.Machine.execProbeResponse k s
  | .lineGrant k => Sys2Proof.Machine.execLineGrant k s
  | .tabletHoldEnd slice line => Sys2Proof.Machine.execTabletHoldEnd slice line s
  | .writebackArrival k => Sys2Proof.Machine.execWritebackArrival k s
  | .farAtomic agent => Sys2Proof.Machine.execFarAtomic agent s
  | .coPredClear src => Sys2Proof.Machine.execCoPredClear src s
  | .signal q => Sys2Proof.Machine.execSignal q s
  | .wait q => Sys2Proof.Machine.execWait q s
  | .trywait q => Sys2Proof.Machine.execTrywait q s
  | .claim q => Sys2Proof.Machine.execClaim q s
  | .release q => Sys2Proof.Machine.execRelease q s
  | .read q => Sys2Proof.Machine.execRead q s
  | .revive q => Sys2Proof.Machine.execRevive q s
  | .init q => Sys2Proof.Machine.execInit q s
  | .waitDeadline sem => Sys2Proof.Machine.execWaitDeadline sem s
  | .carriedSignal q => Sys2Proof.Machine.execCarriedSignal q s
  | .semaphoreResult c id => Sys2Proof.Machine.execSemaphoreResult c id s
  | .lookup q => Sys2Proof.Machine.execLookup q s
  | .lookupBlock q => Sys2Proof.Machine.execLookupBlock q s
  | .insert q => Sys2Proof.Machine.execInsert q s
  | .pin q => Sys2Proof.Machine.execPin q s
  | .depotRelease q => Sys2Proof.Machine.execDepotRelease q s
  | .ageScan q => Sys2Proof.Machine.execAgeScan q s
  | .depotAsyncComplete c => Sys2Proof.Machine.execDepotAsyncComplete c s
  | .depotSlotTrigger slot port v => Sys2Proof.Machine.execDepotSlotTrigger slot port v s
  | .epoch => Sys2Proof.Machine.execEpoch s
  | .brakeReevaluate r => Sys2Proof.Machine.execBrakeReevaluate r s
  | .telemetrySample ch stamp value => Sys2Proof.Machine.execTelemetrySample ch stamp value s
  | .picture => Sys2Proof.Machine.execPicture s
  | .pwrCapNAssert lowNs => Sys2Proof.Machine.execPwrCapNAssert lowNs s
  | .pwrCapNRelease => Sys2Proof.Machine.execPwrCapNRelease s
  | .sbBoardCeilWrite src v => Sys2Proof.Machine.execSbBoardCeilWrite src v s
  | .thermtripClear => Sys2Proof.Machine.execThermtripClear s
  | .configRequest offset size write => Sys2Proof.Machine.execConfigRequest offset size write s
  | .bar2Read offset len ecc => Sys2Proof.Machine.execBar2Read offset len ecc s
  | .bar2Write offset bytes ecc => Sys2Proof.Machine.execBar2Write offset bytes ecc s
  | .bar2AtomicOp op offset size operand compare ecc => Sys2Proof.Machine.execBar2AtomicOp op offset size operand compare ecc s
  | .hostReadFailure c id => Sys2Proof.Machine.execHostReadFailure c id s
  | .hiCoreDbWrite v => Sys2Proof.Machine.execHiCoreDbWrite v s
  | .functionLevelReset => Sys2Proof.Machine.execFunctionLevelReset s
  | .msixUnmask vector => Sys2Proof.Machine.execMsixUnmask vector s
  | .hiQTailWrite q v src => Sys2Proof.Machine.execHiQTailWrite q v src s
  | .queueEnableWrite q enable => Sys2Proof.Machine.execQueueEnableWrite q enable s
  | .queueReset q => Sys2Proof.Machine.execQueueReset q s
  | .dmaDescriptorStart q ring ecc => Sys2Proof.Machine.execDmaDescriptorStart q ring ecc s
  | .dmaDescriptorComplete q host ecc => Sys2Proof.Machine.execDmaDescriptorComplete q host ecc s
  | .codewordReceive p cw => Sys2Proof.Machine.execCodewordReceive p cw s
  | .markerCodeword p => Sys2Proof.Machine.execMarkerCodeword p s
  | .packetSend p vc => Sys2Proof.Machine.execPacketSend p vc s
  | .packetReceive p => Sys2Proof.Machine.execPacketReceive p s
  | .linkControl p => Sys2Proof.Machine.execLinkControl p s
  | .replayTimeout p => Sys2Proof.Machine.execReplayTimeout p s
  | .remoteRequest ecc => Sys2Proof.Machine.execRemoteRequest ecc s
  | .respTimeout k => Sys2Proof.Machine.execRespTimeout k s
  | .trainingComplete p peerPkg peerPort => Sys2Proof.Machine.execTrainingComplete p peerPkg peerPort s
  | .portFail p => Sys2Proof.Machine.execPortFail p s
  | .mlPortEnableWrite p enable src => Sys2Proof.Machine.execMlPortEnableWrite p enable src s
  | .retrain p src => Sys2Proof.Machine.execRetrain p src s
  | .timebaseExchange t1 t2 t3 t4 parentSynced => Sys2Proof.Machine.execTimebaseExchange t1 t2 t3 t4 parentSynced s
  | .configPatrol t ecc => Sys2Proof.Machine.execConfigPatrol t ecc s
  | .hbmScrub line ecc => Sys2Proof.Machine.execHbmScrub line ecc s
  | .engineRecovered e unit ecc => Sys2Proof.Machine.execEngineRecovered e unit ecc s
  | .ecHeadWrite v => Sys2Proof.Machine.execEcHeadWrite v s
  | .smbusReady => Sys2Proof.Machine.execSmbusReady s
  | .identity => Sys2Proof.Machine.execIdentity s
  | .status => Sys2Proof.Machine.execStatus s
  | .alertRead => Sys2Proof.Machine.execAlertRead s
  | .alertWrite v pecOk => Sys2Proof.Machine.execAlertWrite v pecOk s
  | .alertResponse => Sys2Proof.Machine.execAlertResponse s
  | .boardCeilRead => Sys2Proof.Machine.execBoardCeilRead s
  | .boardCeilWrite v pecOk => Sys2Proof.Machine.execBoardCeilWrite v pecOk s
  | .power => Sys2Proof.Machine.execPower s
  | .temps => Sys2Proof.Machine.execTemps s
  | .regAddr v pecOk => Sys2Proof.Machine.execRegAddr v pecOk s
  | .regDataRead => Sys2Proof.Machine.execRegDataRead s
  | .regDataWrite v pecOk => Sys2Proof.Machine.execRegDataWrite v pecOk s
  | .flashRead src => Sys2Proof.Machine.execFlashRead src s
  | .program src len => Sys2Proof.Machine.execProgram src len s
  | .slotErase src slot => Sys2Proof.Machine.execSlotErase src slot s
  | .eraseBlockDone => Sys2Proof.Machine.execEraseBlockDone s
  | .commit src slot => Sys2Proof.Machine.execCommit src slot s
  | .rescan src => Sys2Proof.Machine.execRescan src s
  | .uartDataWrite u b => Sys2Proof.Machine.execUartDataWrite u b s
  | .uartTxByte u => Sys2Proof.Machine.execUartTxByte u s
  | .uartRxByte u b => Sys2Proof.Machine.execUartRxByte u b s
  | .extest => Sys2Proof.Machine.execExtest s
  | .idcode => Sys2Proof.Machine.execIdcode s
  | .samplePreload pins preload => Sys2Proof.Machine.execSamplePreload pins preload s
  | .clamp => Sys2Proof.Machine.execClamp s
  | .highz => Sys2Proof.Machine.execHighz s
  | .bypass code => Sys2Proof.Machine.execBypass code s
  | .gpioFuncWrite p func src => Sys2Proof.Machine.execGpioFuncWrite p func src s
  | .gpioParkEnd p level => Sys2Proof.Machine.execGpioParkEnd p level s
  | .tpoEdge n => Sys2Proof.Machine.execTpoEdge n s
  | .extEdge p => Sys2Proof.Machine.execExtEdge p s
  | .pmbusPoll b answer => Sys2Proof.Machine.execPmbusPoll b answer s
  | .registerRead src t size => Sys2Proof.Machine.execRegisterRead src t size s
  | .pcieLinkUp speed width flit => Sys2Proof.Machine.execPcieLinkUp speed width flit s
  | .flashCommandDone => Sys2Proof.Machine.execFlashCommandDone s
  | .resumedEraseTimeout => Sys2Proof.Machine.execResumedEraseTimeout s

end Sys2Proof.Machine
end

