-- ==== Sys2Proof/Safety.lean ====
section
/-!
DEFINITION. What claims call a good state, a good run, and a part of the device that a
command leaves alone.
-/
namespace Sys2Proof.Machine

/-- An outcome that goes on. -/
def Goes (o : Host.Outcome State Fault Refusal) : Prop := ∃ t, o = .next t

/-- The parts of the device: one name for each field of the state. -/
inductive Part where
  | pending | out | free | pw | mem | memEpoch | yardBad | poison | tb | ra | cc | pkg | aliasEn
  | regions | cores | co | sems | semDies | dx | sb | tf | hi | queues | ml | ec | sd
  deriving DecidableEq, Repr

/-- A part holds the same in two states. -/
def Part.same (p : Part) (s t : State) : Prop :=
  match p with
  | .pending => t.pending = s.pending
  | .out => t.out = s.out
  | .free => t.free = s.free
  | .pw => t.pw = s.pw
  | .mem => t.mem = s.mem
  | .memEpoch => t.memEpoch = s.memEpoch
  | .yardBad => t.yardBad = s.yardBad
  | .poison => t.poison = s.poison
  | .tb => t.tb = s.tb
  | .ra => t.ra = s.ra
  | .cc => t.cc = s.cc
  | .pkg => t.pkg = s.pkg
  | .aliasEn => t.aliasEn = s.aliasEn
  | .regions => t.regions = s.regions
  | .cores => t.cores = s.cores
  | .co => t.co = s.co
  | .sems => t.sems = s.sems
  | .semDies => t.semDies = s.semDies
  | .dx => t.dx = s.dx
  | .sb => t.sb = s.sb
  | .tf => t.tf = s.tf
  | .hi => t.hi = s.hi
  | .queues => t.queues = s.queues
  | .ml => t.ml = s.ml
  | .ec => t.ec = s.ec
  | .sd => t.sd = s.sd

/-- Every part outside the list is unchanged. -/
def SameBut (l : List Part) (s t : State) : Prop := ∀ p, p ∉ l → p.same s t

/-- The error collection log has taken one entry of the given kind, stamped with the time
of `s` (18 R536). -/
def Logged (s t : State) (kind : Nat) : Prop :=
  t.ec.tail = s.ec.tail + 1 ∧
    ∃ e, nfind t.ec.ring (s.ec.tail.toNat % 1024) = some e ∧ e.kind = BitVec.ofNat 8 kind ∧ e.time = s.tb.now

/-- The ring of the log has room (18 R536). -/
def LogRoom (s : State) : Prop := s.ec.tail - s.ec.head ≠ 1024

/-- The configuration controller of a device out of reset stands at a command whose words,
all there and none of them the last of the image, are `ws` (03 R69, R77). -/
def AtCommand (s : State) (l : Load) (ws : List W32) : Prop :=
  s.pw.perst = true ∧ s.cc.load = some l ∧ l.part ≠ .header ∧ l.framesLeft = 0 ∧ s.loadWaits l = false
    ∧ s.lookAhead ws.length = ws ∧ l.pos + ws.length < l.length

/-- The command `w` may stand where it is met, and nothing holds it back (03 R70-R72, R81,
R83; 04 R109). -/
def InPlace (s : State) (l : Load) (w far : W32) : Prop :=
  cmdOk w = true ∧ l.mayStand w far = true ∧ l.admitsAt w far = false
    ∧ (l.partOf w far = some .junction → s.pw.hbm = .ready)

/-- The words there are of an image show that it is a full one: bit 0 of its FLAGS word (03
Table 3.1, 04 R115). -/
def State.showsFull (s : State) : Bool :=
  match nth (s.lookAhead 5) 4 with
  | some w => bit w 0
  | none => false

/-- A load of which no word has been read. -/
def Load.isNew (l : Load) : Prop :=
  l.part = .header ∧ l.pos = 0 ∧ l.buf = [] ∧ l.decls = [] ∧ l.admitted = false

/-- Device event `e` of `s` has been raised, if it is enabled (16 R496). -/
def EventRaised (s t : State) (e : Nat) : Prop := t.hi = (s.hostEvent e).hi ∧ t.out = (s.hostEvent e).out

/-- A word of opcode, register and count (03 R69). -/
def IsCmd (w : W32) (op reg count : Nat) : Prop := cmdOp w = op ∧ cmdReg w = reg ∧ cmdCount w = count

/-- The value of a byte of HBM or of a yard, as memory holds it. -/
def State.byteAt (s : State) (a : Nat) : Byte := s.byteVal a (s.mem.read a)

/-- Memory now holds `bs` from local address `a` up, and what it held everywhere else. -/
def Stored (s t : State) (a : Nat) (bs : List Byte) : Prop :=
  (∀ i b, bs[i]? = some b → t.byteAt (a + i) = b)
    ∧ ∀ x, (x < a ∨ a + bs.length ≤ x) → t.byteAt x = s.byteAt x

/-- No line of HBM has a dirty copy, a transaction, a hold or a poison mark, and no home
agent's queue is full: an access past the die caches is served at once. -/
def Quiet (s : State) : Prop := ∀ l, l < 0x1_2000_0000 → s.mustWait l = false ∧ s.dirtyCopy l = none ∧ s.linePoisoned l = false

/-- `n` bytes at local address `a` lie in the yard of a core whose region is not isolated,
and none of their words holds an error (11 R330, R333). -/
def YardOpen (s : State) (a n : Nat) : Prop :=
  ∃ c o, decodeLocal a = .yard c o ∧ o + n ≤ 0x2_0000 ∧ s.isolated c = false ∧ ∀ w, w ∈ wordsOf a n → s.yardWordBad w = false

/-- `n` bytes at local address `a` lie in HBM, which is ready, and no die holds newer ones. -/
def HbmOpen (s : State) (a n : Nat) : Prop := a + n ≤ 0x48_0000_0000 ∧ s.pw.hbm = .ready ∧ Quiet s

/-- A semaphore operation `o` of core `c` on semaphore `i` is over: the semaphore holds `m`,
the result `v` stands in its port unless a later operation owns that, and nothing else of
the device has changed but the operation's leaving flight (13 R397, 05 R151). -/
def SemDone (s t : State) (c i : Nat) (o : Op) (m : Sem) (v : W64) : Prop :=
  t.sem i = m ∧ (∀ j, j ≠ i → t.sem j = s.sem j) ∧ (t.core c).opOf o.id = none ∧ (t.core c).accs = (s.core c).accs
    ∧ (∀ p, p ∈ resultPorts o.port o.cap → nget o.id (s.core c).portLast p = o.id → nget 0 (t.core c).ports p = v)
    ∧ (∀ p, p ∉ resultPorts o.port o.cap → nget 0 (t.core c).ports p = nget 0 (s.core c).ports p)
    ∧ (∀ d, d ≠ c → t.core d = s.core d) ∧ SameBut [.sems, .cores] s t

/-- Core `c` may begin bundle `b`, which stands at its program counter and is not held in an
older content (05 R139, R178; 06 R192). -/
def AtBundle (s : State) (c : Nat) (b : BitVec 128) : Prop :=
  s.pw.perst = true ∧ c < 25600 ∧ s.mayExecute c = true ∧ (s.core c).parkFilled = 0 ∧ (s.core c).waiting = false
    ∧ (s.core c).guest = none ∧ (s.core c).ahead = [] ∧ (s.core c).cfgBad = [] ∧ (s.core c).bundleAt (s.core c).pc.toNat = b

/-- The moves of a bundle whose guards pass (05 R145). -/
def passing (k : Core) (b : BitVec 128) : List Move := (bundleMoves b).filter fun m => guardPasses k.preds m.guard

/-- The value of a register, a constant or the literal of a bundle, at a width (05 R132-R137). -/
def plainValue (k : Core) (b : BitVec 128) (m : Move) : W64 :=
  carried m.width (if m.src < 0x040 then nget 0 k.gpr m.src else if m.src = 0x07F then bundleLit b
    else BitVec.ofInt 64 ((m.src : Int) - 95))

/-- Only core `c` has changed. -/
def OnlyCore (c : Nat) (s t : State) : Prop := SameBut [.cores] s t ∧ ∀ d, d ≠ c → t.core d = s.core d

/-- Access `a`, number `id`, of core `c` has nothing to wait for and has not been performed
(12 R381-R388). -/
def Free (s : State) (c id : Nat) (a : Access) : Prop :=
  s.pw.perst = true ∧ c < 25600 ∧ (s.core c).acc id = some a ∧ a.stage = .issued ∧ a.accepted = false
    ∧ s.blocked c a = false ∧ (s.core c).storeData a = a.bytes

/-- Access `a` of core `c` is the first at its slice for its line: no probe waits there, and
the slice has no request and no siding entry for the line (11 R347, 12 R378). -/
def AtSlice (s : State) (c id : Nat) (a : Access) (slice line : Nat) : Prop :=
  Free s c id a ∧ s.destOf a.addr = .hbm ∧ line = localOf a.addr / 64 ∧ slice = sliceFor (dieOf c) line
    ∧ s.probeWaits slice line = false ∧ s.filling slice line = false ∧ s.findSiding slice line = none
    ∧ (a.kind = .load → (s.core c).mayL1 a = false ∨ (s.core c).l1Hit line = none)

/-- The slice has sent its home agent a request of the given kind for access `a`, which
keeps the attributes it came with (11 R354). -/
def Requested (s t : State) (c id : Nat) (a : Access) (slice line : Nat) (kind : HKind) : Prop :=
  SameBut [.cores, .co] s t ∧ (t.core c).acc id = some { a with stage := .sent, attr := some (s.attrBits a) }
      ∧ (∀ d, d ≠ c → t.core d = s.core d)
    ∧ ∃ q, t.co.net = s.co.net ++ [q] ∧ q.kind = kind ∧ q.line = line ∧ q.slice = slice ∧ q.agent = homeAgent (64 * line)
      ∧ q.core = c ∧ q.acc = id

/-- The events that a device held in reset still meets: its rails and pins, time, its JTAG
and SMBus blocks, and an erase that its flash chip has under way (19 R546, R553, R571). -/
def reachesReset : Instr → Bool
  | .perstNRise .. | .perstNAssert | .railInRange .. | .railOutOfRange _ | .timebaseTick _ => true
  | .rightAwayRise | .rightAwayFall | .pwrCapNAssert _ | .pwrCapNRelease | .eraseBlockDone => true
  | .extest | .idcode | .samplePreload .. | .clamp | .highz | .bypass _ => true
  | .smbusReady | .identity | .status | .alertRead | .alertWrite .. | .alertResponse => true
  | .boardCeilRead | .boardCeilWrite .. | .power | .temps | .regAddr .. | .regDataRead | .regDataWrite .. => true
  | .refLost | .refclkLock | .refLostClear | .hbmReady | .hbmTrainTimeout .. | .bootStoreScan
  | .winProducedWrite .. | .go | .abort | .sync | .nop | .declare | .admission | .writeCfg | .setFar
  | .writeFrames | .bcastFrames | .frameApply | .bcastFrameApply | .park | .regionParked .. | .isolate
  | .checkEnd | .waitRightAway | .raRelease | .raQualified | .rightAwayTimeout | .raLowEvent | .start
  | .unisolate | .loadEnd | .rgnCtrlPark .. | .run .. | .reset .. | .clearRed .. | .rgnHoldClear ..
  | .registerWrite .. | .bundleExecute .. | .scalarOpComplete .. | .memoryResponse .. | .storeAccepted ..
  | .fenceComplete .. | .guestAck .. | .guestTimeout .. | .guestLogicInterrupt .. | .cpTimerCmpWrite ..
  | .coreTimer .. | .interruptEntry .. | .exceptionEntry .. | .convertComplete .. | .vectorOpComplete ..
  | .intervalStep .. | .trainHeader .. | .matrixOpComplete .. | .tmoveComplete .. | .remoteYardAccess ..
  | .sliceAccess .. | .sidingIssue .. | .sidingRetire .. | .awRangeWrite .. | .awAttrWrite ..
  | .homeRequest .. | .forwardedRequest .. | .probe .. | .probeResponse .. | .lineGrant ..
  | .tabletHoldEnd .. | .writebackArrival .. | .farAtomic .. | .coPredClear .. | .signal .. | .wait ..
  | .trywait .. | .claim .. | .release .. | .read .. | .revive .. | .init .. | .waitDeadline ..
  | .carriedSignal .. | .semaphoreResult .. | .lookup .. | .lookupBlock .. | .insert .. | .pin ..
  | .depotRelease .. | .ageScan .. | .depotAsyncComplete .. | .depotSlotTrigger .. | .epoch
  | .brakeReevaluate .. | .telemetrySample .. | .picture | .sbBoardCeilWrite .. | .thermtripClear
  | .configRequest .. | .bar2Read .. | .bar2Write .. | .bar2AtomicOp .. | .hostReadFailure ..
  | .hiCoreDbWrite .. | .functionLevelReset | .msixUnmask .. | .hiQTailWrite .. | .queueEnableWrite ..
  | .queueReset .. | .dmaDescriptorStart .. | .dmaDescriptorComplete .. | .codewordReceive ..
  | .markerCodeword .. | .packetSend .. | .packetReceive .. | .linkControl .. | .replayTimeout ..
  | .remoteRequest .. | .respTimeout .. | .trainingComplete .. | .portFail .. | .mlPortEnableWrite ..
  | .retrain .. | .timebaseExchange .. | .configPatrol .. | .hbmScrub .. | .engineRecovered ..
  | .ecHeadWrite .. | .flashRead .. | .program .. | .slotErase .. | .commit .. | .rescan ..
  | .uartDataWrite .. | .uartTxByte .. | .uartRxByte .. | .gpioFuncWrite .. | .gpioParkEnd .. | .tpoEdge ..
  | .extEdge .. | .pmbusPoll .. | .registerRead .. | .pcieLinkUp .. | .flashCommandDone
  | .resumedEraseTimeout => false

end Sys2Proof.Machine
end

