-- ==== Sys2Proof/Certificates/Slice0/Obligations.lean ====
section
/-!
DEFINITION. The statements about the model, for the provers.
-/
section
open Sys2Proof Sys2Proof.Machine

/-- PERST_N_RISE (00 R13, 02 R59, R61, 04 R103, R108, R580, 15 R448). -/
def Obligations.PerstRiseResets : Prop :=
  ∀ (s : State) (b p : BitVec 2) (refclk : Bool) (store : Option Flash),
    (∀ x, x ∈ allRails → x ∈ s.pw.rails) →
    ∃ t, exec (.perstNRise b p refclk store) s = .next t
      ∧ t.tb.now = 0 ∧ t.tb.locked = false ∧ t.tb.refLost = !refclk ∧ t.tb.synced = false
      ∧ t.pw.perst = true ∧ t.pw.bootsel = b ∧ t.pw.pwrceil = p ∧ t.pw.hbm = .training
      ∧ (∀ r, (t.region r).st = .unloaded) ∧ (∀ c, t.running c = false)
      ∧ t.mem = {} ∧ t.memEpoch = s.memEpoch + 1
      ∧ t.ra.driving = true ∧ t.cc.state = 0 ∧ t.cc.load = none ∧ t.sb.boardCeil = ceilOf p
      ∧ t.pending = s.pending ∧ t.pw.rails = s.pw.rails ∧ t.pw.smbAddr = s.pw.smbAddr
      ∧ t.sd.flash = (match store with | some f => some f | none => s.sd.flash)

/-- PERST_N_ASSERT (04 R108, R580, 19 R546). -/
def Obligations.PerstAssertHolds : Prop :=
  ∀ s : State, ∃ t, exec .perstNAssert s = .next t
    ∧ t.pw.perst = false ∧ (∀ r, (t.region r).st = .unloaded) ∧ (∀ c, t.running c = false)
    ∧ t.cc.state = 0 ∧ t.cc.load = none ∧ t.sd.cmd = none ∧ t.mem = {} ∧ t.memEpoch = s.memEpoch + 1
    ∧ t.ra.driving = true ∧ t.tb.now = 0
    ∧ t.pending = s.pending ∧ t.out = s.out ∧ t.pw.rails = s.pw.rails ∧ t.sd.flash = s.sd.flash

/-- RAIL_IN_RANGE, RAIL_OUT_OF_RANGE (19 R546, R547) and TIMEBASE_TICK (02 R59). -/
def Obligations.RailsAndTimePass : Prop :=
  (∀ (s : State) (x : Rail) (b : BitVec 2), x ∉ s.pw.rails →
    ∃ t, exec (.railInRange x b) s = .next t ∧ t.pw.rails = x :: s.pw.rails
      ∧ (x = .vio18 → t.pw.smbAddr = b ∧ t.ra.driving = true)
      ∧ (x ≠ .vio18 → t.pw.smbAddr = s.pw.smbAddr ∧ t.ra = s.ra) ∧ SameBut [.pw, .ra] s t)
  ∧ (∀ (s : State) (x : Rail), x ∈ s.pw.rails →
    ∃ t, exec (.railOutOfRange x) s = .next t ∧ t.pw.rails = s.pw.rails.filter (· != x)
      ∧ t.pw.perst = s.pw.perst ∧ (s.pw.perst = false → SameBut [.pw] s t)
      ∧ SameBut [.pw, .free, .cores, .mem, .memEpoch, .co, .sd] s t)
  ∧ (∀ (s : State) (n : Nat), ∃ t, exec (.timebaseTick n) s = .next t
      ∧ t.pw.now = s.pw.now + n
      ∧ t.tb.now = (if s.pw.perst then s.tb.now + BitVec.ofNat 64 n else s.tb.now)
      ∧ t.tb.locked = s.tb.locked ∧ t.pw.rails = s.pw.rails ∧ SameBut [.pw, .tb] s t)

/-- REF_LOST, REFCLK_LOCK and REF_LOST_CLEAR (02 R61). -/
def Obligations.ReferenceClock : Prop :=
  ∀ s : State, s.pw.perst = true →
    (LogRoom s →
      ∃ t, exec .refLost s = .next t ∧ t.tb.refLost = true ∧ t.tb.locked = false
        ∧ t.tb.now = s.tb.now ∧ t.tb.synced = s.tb.synced
        ∧ Logged s t 0x0D ∧ SameBut [.tb, .ec, .hi, .out] s t)
    ∧ exec .refclkLock s = .next { s with tb := { s.tb with locked := true } }
    ∧ (s.tb.locked = true → exec .refLostClear s = .next { s with tb := { s.tb with refLost := false } })
    ∧ (s.tb.locked = false → exec .refLostClear s = .next s)

/-- HBM_READY and HBM_TRAIN_TIMEOUT (04 R109, R111). -/
def Obligations.HbmTraining : Prop :=
  ∀ s : State, s.pw.perst = true → s.pw.hbm = .training →
    exec .hbmReady s = .next { s with pw := { s.pw with hbm := .ready } }
    ∧ ∀ failed : BitVec 8, failed ≠ 0 → LogRoom s →
      ∃ t, exec (.hbmTrainTimeout failed) s = .next t
        ∧ t.pw = { s.pw with hbm := .failed, hbmBad := failed } ∧ t.mem = s.mem ∧ t.pending = s.pending
        ∧ ((∀ l, s.cc.load = some l → l.full = false ∨ l.part = .header ∨ l.admitted = true) →
            Logged s t 0x0E ∧ t.regions = s.regions ∧ t.cores = s.cores)
        ∧ (s.cc.load = none → SameBut [.pw, .ec, .hi, .out] s t)
        ∧ ∀ l, s.cc.load = some l → l.part ≠ .header → l.admitted = false → s.cc.source = 2 →
          t.cc.state = 8 ∧ t.cc.reason = 0x0D ∧ t.cc.load = none ∧ t.cc.wordOffset = BitVec.ofNat 32 l.unread
          ∧ (l.full = true → t.ra.driving = true ∧ ∀ r, (t.region r).st = .unloaded)

/-- RIGHT_AWAY_FALL, RIGHT_AWAY_RISE and RA_RELEASE (04 R109, R112; 17 R524). -/
def Obligations.RightAwayLevel : Prop :=
  (∀ s : State, s.raLine = true ↔ s.ra.driving = false ∧ s.ra.otherLow = false)
  ∧ (∀ s : State, s.ra.otherLow = false →
    ∃ t, exec .rightAwayFall s = .next t ∧ t.ra.otherLow = true ∧ t.raLine = false
      ∧ t.ra.driving = s.ra.driving ∧ t.ra.lowEvents = s.ra.lowEvents ∧ SameBut [.ra] s t)
  ∧ (∀ s : State, s.ra.otherLow = true →
    ∃ t, exec .rightAwayRise s = .next t ∧ t.ra.otherLow = false ∧ t.raLine = (!s.ra.driving)
      ∧ t.ra.driving = s.ra.driving ∧ t.ra.lowEvents = s.ra.lowEvents ∧ SameBut [.ra] s t)
  ∧ (∀ s : State, s.pw.perst = true → s.cc.state = 5 → s.ra.driving = true →
      (s.ml.parentEn = true → s.tb.synced = true) →
    ∃ t, exec .raRelease s = .next t ∧ t.ra.driving = false ∧ t.raLine = (!s.ra.otherLow) ∧ SameBut [.ra] s t)

/-- RA_QUALIFIED, RIGHT_AWAY_TIMEOUT and RA_LOW_EVENT (04 R113-R117, R122). -/
def Obligations.RightAwayOutcome : Prop :=
  (∀ (s : State) (l : Load) (h : Nat), s.pw.perst = true → s.cc.state = 5 → s.cc.load = some l → l.part = .checked →
      s.ra.driving = false → s.ra.otherLow = false → s.ra.highSince = some h → h + 1000 ≤ s.pw.now →
      (∀ d, s.ra.deadline = some d → h + 1000 < d) →
    exec .raQualified s = .next { s with
      cc := { s.cc with load := some { l with part := .starts } }, ra := { s.ra with deadline := none } })
  ∧ (∀ (s : State) (l : Load) (d : Nat), s.pw.perst = true → s.cc.state = 5 → s.cc.load = some l → l.full = true →
      l.admitted = true → s.cc.source = 2 → s.ra.highSince = none → s.ra.deadline = some d → d ≤ s.pw.now →
    ∃ t, exec .rightAwayTimeout s = .next t ∧ t.cc.state = 8 ∧ t.cc.reason = 0x0B ∧ t.cc.load = none
      ∧ t.ra.driving = true ∧ (∀ r, (t.region r).st = .unloaded ∧ ((s.region r).st ≠ .unloaded → (t.region r).decl = none))
      ∧ t.mem = s.mem ∧ t.pending = s.pending)
  ∧ (∀ (s : State) (l : Nat), s.pw.perst = true → s.ra.watching = true → s.ra.driving = false → s.ra.otherLow = true →
      s.ra.lowCounted = false → s.ra.lowSince = some l → l + 10000 ≤ s.pw.now →
    ∃ t, exec .raLowEvent s = .next t ∧ t.ra.lowEvents = satInc s.ra.lowEvents ∧ t.ra.last = s.ra.lowTb
      ∧ t.ra.lowCounted = true ∧ (∀ c, s.running c = true → bit (t.core c).intPending 4 = true)
      ∧ (∀ c, s.running c = false → t.core c = s.core c) ∧ SameBut [.ra, .cores, .hi, .out] s t)

/-- 01 R27: core_id from die, row and column, its range, and its inverse. -/
def Obligations.CoreNumbering : Prop :=
  (∀ d r c : Nat, d < 16 → r < 40 → c < 40 →
    coreAt d r c = d * 1600 + r * 40 + c ∧ coreAt d r c < 25600
      ∧ dieOf (coreAt d r c) = d ∧ rowOf (coreAt d r c) = r ∧ colOf (coreAt d r c) = c)
  ∧ ∀ i : Nat, i < 25600 →
    dieOf i = i / 1600 ∧ rowOf i = i % 1600 / 40 ∧ colOf i = i % 40
      ∧ dieOf i < 16 ∧ rowOf i < 40 ∧ colOf i < 40 ∧ coreAt (dieOf i) (rowOf i) (colOf i) = i

/-- 01 R28: region_id of a core, its range, and the quadrants of a die. -/
def Obligations.RegionNumbering : Prop :=
  (∀ d r c : Nat, d < 16 → r < 40 → c < 40 →
    regionOf (coreAt d r c) = d * 4 + 2 * (if r ≥ 20 then 1 else 0) + (if c ≥ 20 then 1 else 0)
      ∧ regionOf (coreAt d r c) < 64
      ∧ (regionOf (coreAt d r c) = 4 * d ↔ r < 20 ∧ c < 20)
      ∧ (regionOf (coreAt d r c) = 4 * d + 1 ↔ r < 20 ∧ 20 ≤ c)
      ∧ (regionOf (coreAt d r c) = 4 * d + 2 ↔ 20 ≤ r ∧ c < 20)
      ∧ (regionOf (coreAt d r c) = 4 * d + 3 ↔ 20 ≤ r ∧ 20 ≤ c))
  ∧ ∀ x c : Nat, x < 64 → c < 25600 → (c ∈ regionCores x ↔ regionOf c = x)

/-- The advance of a FAR (03 R88, R89, R91, R92). -/
def Obligations.FrameAddressAdvance : Prop :=
  (∀ d c r m : Nat, d < 16 → c < 40 → r < 40 → m ≤ 50 →
    farOk (farAt d c r m) = true
    ∧ farNext (farAt d c r m) =
        (if m < 50 then some (farAt d c r (m + 1))
         else if r < 39 then some (farAt d c (r + 1) 0)
         else if c < 39 then some (farAt d (c + 1) 0 0) else none)
    ∧ farNextBcast (farAt d c r m) = (if m < 50 then some (farAt d c r (m + 1)) else none))
  ∧ (∀ d r m : Nat, 17 ≤ d → d < 20 → r < 4 → m < 16 →
    farOk (farAt d 0 r m) = true
    ∧ farNext (farAt d 0 r m) =
        (if m < 15 then some (farAt d 0 r (m + 1)) else if r < 3 then some (farAt d 0 (r + 1) 0) else none))
  ∧ ∀ d c r m : Nat, c < 64 → r < 64 → m < 64 → farOk (farAt d c r m) = true →
    (d < 16 ∧ c < 40 ∧ r < 40 ∧ m ≤ 50) ∨ (17 ≤ d ∧ d < 20 ∧ c = 0 ∧ r < 4 ∧ m < 16)

/-- WIN_PRODUCED_WRITE, GO and ABORT (04 R104, R106, R107, R584). -/
def Obligations.WindowAndGo : Prop :=
  ∀ s : State, s.pw.perst = true →
    (∀ v : W32, ∃ t, exec (.winProducedWrite v) s = .next t ∧ t.cc.produced = v ∧ t.cc.consumed = s.cc.consumed
      ∧ t.cc.state = s.cc.state ∧ t.cc.rejected = s.cc.rejected ∧ SameBut [.cc, .ra] s t
      ∧ ((∀ l, s.cc.load = some l → l.part ≠ .header ∨ l.full = true) → t = { s with cc := { s.cc with produced := v } }))
    ∧ (s.cc.load = none → s.cc.bootHold = false →
      ∃ t, exec .go s = .next t ∧ t.cc.state = 1 ∧ t.cc.reason = 0 ∧ t.cc.source = 2 ∧ t.cc.consumed = 0
        ∧ t.cc.produced = s.cc.produced ∧ t.cc.rejected = s.cc.rejected ∧ SameBut [.cc, .ra] s t
        ∧ ∃ l, t.cc.load = some l ∧ l.isNew ∧ (l.full = t.showsFull)
          ∧ (l.full = true → t.ra.driving = true ∧ t.ra.watching = false) ∧ (l.full = false → t.ra = s.ra))
    ∧ (s.cc.load ≠ none ∨ s.cc.bootHold = true →
      exec .go s = .next { s with cc := { s.cc with rejected := satInc s.cc.rejected } })
    ∧ (s.cc.load = none → exec .abort s = .next s)
    ∧ ∀ l, s.cc.load = some l → s.cc.source = 2 → l.admitted = false →
      ∃ t, exec .abort s = .next t ∧ t.cc.state = 8 ∧ t.cc.reason = 0x0C ∧ t.cc.load = none
        ∧ t.cc.wordOffset = BitVec.ofNat 32 l.unread ∧ (l.full = true → t.ra.driving = true)
        ∧ SameBut [.cc, .ra, .hi, .out, .sd] s t

/-- ABORT after admission (04 R107, R122). -/
def Obligations.AbortContainsRegions : Prop :=
  ∀ (s : State) (l : Load), s.pw.perst = true → s.cc.load = some l → s.cc.source = 2 → l.admitted = true →
    l.full = false → l.declared.Nodup →
    ∃ t, exec .abort s = .next t ∧ t.cc.state = 8 ∧ t.cc.reason = 0x0C ∧ t.cc.load = none
      ∧ (∀ r, r ∉ l.declared → t.region r = s.region r)
      ∧ (∀ r, r ∈ l.declared →
          (t.region r).decl = (s.region r).decl
          ∧ ((s.region r).st = .running → (t.region r).parking = true ∧ (t.region r).thenIsolate = true)
          ∧ ((s.region r).st = .startedIsolated → (t.region r).parking = true)
          ∧ ((s.region r).st = .parked → (t.region r).st = .parkedIsolated)
          ∧ ((s.region r).st = .writing → (t.region r).st = .parkedIsolated))
      ∧ t.ra = s.ra ∧ t.mem = s.mem ∧ t.pending = s.pending

/-- SYNC (03 R75-R77; 04 R111, R115). -/
def Obligations.HeaderRead : Prop :=
  ∀ (s : State) (l : Load) (ws : List W32), s.pw.perst = true → s.cc.load = some l → l.part = .header →
    l.full = false → l.pos = 0 →
    (s.lookAhead ws.length = ws → 8 ≤ ws.length → headerSize ((nth ws 0).getD 0) = ws.length →
      headerFaults ws = none → s.pw.hbm ≠ .failed →
      ∃ t, exec .sync s = .next t
        ∧ (∃ k, t.cc.load = some k ∧ k.part = .declares ∧ k.pos = ws.length
            ∧ k.raTimeout = (nth ws 5).getD 0 ∧ k.length = ((nth ws 6).getD 0).toNat ∧ k.ns = headerNs ws
            ∧ k.full = decide (nth ws 4 = some 1) ∧ k.decls = l.decls ∧ k.admitted = l.admitted)
        ∧ (nth ws 4 = some 1 → t.ra.driving = true ∧ t.ra.watching = false ∧ t.ml.routes = [])
        ∧ (nth ws 4 = some 0 → t.ra = s.ra ∧ t.ml = s.ml) ∧ SameBut [.cc, .ra, .ml] s t)
    ∧ (s.cc.source = 2 → l.admitted = false → ∀ (n : Nat) (w : W32), s.lookAhead ws.length = ws → n ≤ 64 →
      ws = [BitVec.ofNat 32 (0x0100_0007 + 2 * n), w] → w ≠ 0x504C_4B4D →
      ∃ t, exec .sync s = .next t ∧ t.cc.state = 8 ∧ t.cc.reason = 0x02 ∧ t.cc.wordOffset = 1 ∧ t.cc.load = none
        ∧ (s.showsFull = false → t.regions = s.regions ∧ t.ra = s.ra)
        ∧ (s.showsFull = true → t.ra.driving = true ∧ ∀ r, (t.region r).st = .unloaded))
    ∧ (s.cc.source = 2 → l.admitted = false → ∀ (n : Nat) (w : W32), s.lookAhead ws.length = ws → n ≤ 64 →
      ws = [BitVec.ofNat 32 (0x0100_0007 + 2 * n), 0x504C_4B4D, 0x0001_0000, w] → bits w 31 8 ≠ 0x00_0103 →
      ∃ t, exec .sync s = .next t ∧ t.cc.state = 7 ∧ t.cc.reason = 0x01 ∧ t.cc.wordOffset = 3 ∧ t.cc.load = none
        ∧ (s.showsFull = false → t.regions = s.regions ∧ t.ra = s.ra)
        ∧ (s.showsFull = true → t.ra.driving = true ∧ ∀ r, (t.region r).st = .unloaded))

/-- The commands of an image that carry words (03 R69, R78, R83, R84, R92, R98, R583). -/
def Obligations.ImageWordCommands : Prop :=
  (∀ (s : State) (l : Load) (n : Nat), s.cc.load = some l →
    ∃ k, (s.takeWords n).cc.load = some k ∧ k.pos = l.pos + n ∧ k.buf = l.buf.drop n
      ∧ k.crc = BitVec.ofNat 32 (crc32 l.crc.toNat ((s.nextWords n).flatMap wordBytes))
      ∧ (s.takeWords n).cc.consumed = (if s.cc.source = 2 then s.cc.consumed + BitVec.ofNat 32 (n - l.buf.length) else s.cc.consumed)
      ∧ k.far = l.far ∧ k.decls = l.decls ∧ SameBut [.cc] s (s.takeWords n))
  ∧ (∀ (s : State) (l : Load) (w : W32) (ws : List W32), AtCommand s l (w :: ws) → IsCmd w 0 0 ws.length →
    exec .nop s = .next (s.takeWords (1 + ws.length)))
  ∧ (∀ (s : State) (l : Load) (w : W32) (ws : List W32) (r : Nat), AtCommand s l (w :: ws) → IsCmd w 6 r 8 →
      r < 64 → ws.length = 8 → l.part = .declares → (∀ x, x ∈ l.declared → x < r) →
      (∀ i, i < 8 → declFault l.ns.length i ((nth ws i).getD 0) = false) →
    exec .declare s = .next ((s.takeWords 9).modLoad fun k => { k with decls := k.decls ++ [(r, declOf l.ns ws)] }))
  ∧ (∀ (s : State) (l : Load) (w far : W32), AtCommand s l [w, far] → IsCmd w 3 0 1 → InPlace s l w far →
      bits far 31 23 = 0 →
    ∃ t, exec .setFar s = .next t
      ∧ (∃ k, t.cc.load = some k ∧ k.far = some far.toNat ∧ k.farPast = false ∧ k.pos = l.pos + 2 ∧ k.framesLeft = 0
          ∧ k.decls = l.decls ∧ k.part = (if bits far 22 18 < 16 ∨ l.full = false ∨ (20 ≤ bits far 22 18 ∧ l.part = .fabric) then .fabric
              else .junction))
      ∧ (∀ r, t.region r = s.region r
          ∨ (r ∈ l.declared ∧ (s.region r).st = .parkedIsolated ∧ (t.region r).st = .writing))
      ∧ SameBut [.cc, .regions] s t)
  ∧ (∀ (s : State) (l : Load) (w : W32) (n : Nat), AtCommand s l [w] → IsCmd w 4 0 n → InPlace s l w 0 →
    ∃ t, exec .writeFrames s = .next t
      ∧ (∃ k, t.cc.load = some k ∧ k.framesLeft = n ∧ k.bcast = none ∧ k.far = l.far ∧ k.pos = l.pos + 1)
      ∧ SameBut [.cc, .regions] s t)
  ∧ (∀ (s : State) (l : Load) (w rect : W32) (n : Nat), AtCommand s l [w, rect] → IsCmd w 5 0 n → InPlace s l w 0 →
      rectFault (l.far.getD 0) rect = false →
    ∃ t, exec .bcastFrames s = .next t
      ∧ (∃ k, t.cc.load = some k ∧ k.framesLeft = n ∧ k.bcast = some (bits rect 13 8, bits rect 5 0)
          ∧ k.far = l.far ∧ k.pos = l.pos + 2)
      ∧ SameBut [.cc, .regions] s t)
  ∧ (∀ (s : State) (l : Load) (w off : W32) (ws : List W32) (b : Nat), AtCommand s l (w :: off :: ws) →
      IsCmd w 2 b (1 + ws.length) → ws ≠ [] → InPlace s l w 0 →
      (∀ i, i < 2 + ws.length → cfgFault l (w :: off :: ws) i = false) →
    exec .writeCfg s = .next (State.cfgStore
      ((s.takeWords (2 + ws.length)).enterPart l (if b = 10 then .fabric else .junction)) l b off.toNat ws))
  ∧ ∀ (s : State) (l : Load) (w v : W32), AtCommand s l [w, 0x20, v] → IsCmd w 2 0 2 → InPlace s l w 0 → l.full = true →
    ∃ t, exec .writeCfg s = .next t ∧ t.pkg = v.setWidth 11 ∧ t.aliasEn = v.getLsbD 16
      ∧ SameBut [.cc, .pkg, .aliasEn] s t

/-- FRAME_APPLY and BCAST_FRAME_APPLY (03 R89-R94, R100, Tables 3.4, 3.8). -/
def Obligations.FrameApplied : Prop :=
  ∀ (s : State) (l : Load) (f : Nat) (ws : List W32), s.pw.perst = true → s.cc.load = some l → l.framesLeft ≠ 0 →
    l.far = some f → l.farPast = false → l.frameOk f (l.bcast.getD (1, 1)).1 (l.bcast.getD (1, 1)).2 = true →
    ws.length = 256 → s.lookAhead 257 = ws ++ [BitVec.ofNat 32 (frameCrc f ws)] → l.pos + 257 < l.length →
    ∃ t, exec (if l.bcast = none then .frameApply else .bcastFrameApply) s = .next t
      ∧ t.cc.frames = satInc s.cc.frames ∧ t.cc.lastFar = BitVec.ofNat 23 f ∧ t.cc.state = s.cc.state
      ∧ (∃ k, t.cc.load = some k ∧ k.framesLeft = l.framesLeft - 1 ∧ k.pos = l.pos + 257
          ∧ (match (if l.bcast = none then farNext f else farNextBcast f) with
              | some g => k.far = some g ∧ k.farPast = false
              | none => k.farPast = true))
      ∧ (farDie f < 16 →
          (∀ c, c ∈ farCores f (l.bcast.getD (1, 1)).1 (l.bcast.getD (1, 1)).2 →
            (∀ i, i < 256 → (t.core c).frameWord (farMinor f) i = (nth ws i).getD 0)
            ∧ (∀ m i, m ≠ farMinor f → i < 256 → (t.core c).frameWord m i = (s.core c).frameWord m i)
            ∧ (t.core c).gpr = (s.core c).gpr ∧ (t.core c).pc = (s.core c).pc)
          ∧ (∀ c, c ∉ farCores f (l.bcast.getD (1, 1)).1 (l.bcast.getD (1, 1)).2 → t.core c = s.core c)
          ∧ t.ml = s.ml)
      ∧ (16 < farDie f → t.cores = s.cores
          ∧ ∀ i, i < 256 → nget 0 t.ml.routes ((4 * (farDie f - 17) + farRow f) * 4096 + farMinor f * 256 + i)
              = (nth ws i).getD 0)
      ∧ SameBut [.cc, .cores, .ml] s t

/-- 03 R100: a frame with a wrong CRC-16. -/
def Obligations.FrameCheckFails : Prop :=
  ∀ (s : State) (l : Load) (f : Nat) (ws : List W32) (check : W32), s.pw.perst = true → s.cc.load = some l →
    l.framesLeft ≠ 0 → l.far = some f → l.farPast = false →
    l.frameOk f (l.bcast.getD (1, 1)).1 (l.bcast.getD (1, 1)).2 = true →
    ws.length = 256 → s.lookAhead 257 = ws ++ [check] → l.pos + 257 < l.length →
    bits check 31 16 = 0 → check.toNat ≠ frameCrc f ws →
    ∃ t, exec (if l.bcast = none then .frameApply else .bcastFrameApply) s = .next t
      ∧ (∀ c, (t.core c).cfg = (s.core c).cfg) ∧ t.ml.routes = s.ml.routes
      ∧ (s.cc.source = 2 → t.cc.state = 8 ∧ t.cc.reason = 0x09 ∧ t.cc.load = none)
      ∧ (s.cc.source = 0 ∨ s.cc.source = 1 →
          (if s.cc.tried = 3 then t.cc.reason2 else t.cc.reason1) = 0x09 ∧ t.cc.load ≠ some l)

/-- ADMISSION (03 R81; 04 R118, R119). -/
def Obligations.AdmissionDecides : Prop :=
  ∀ (s : State) (l : Load) (w far : W32), s.pw.perst = true → s.cc.load = some l → s.upcoming = some (w, far) →
    l.part ≠ .header → l.framesLeft = 0 → cmdOk w = true → l.pos + 1 ≠ l.length →
    (cmdOp w = 3 → bits far 31 23 = 0) → l.mayStand w far = true → l.admitsAt w far = true → l.declared.Nodup →
    (s.pw.hbm = .training → exec .admission s = .next s)
    ∧ (s.pw.hbm = .ready → (l.full = true → s.tablesPlaced = true) →
      (s.refusal l = none →
        ∃ t, exec .admission s = .next t ∧ t.cc.state = 2
          ∧ (∃ k, t.cc.load = some k ∧ k.admitted = true ∧ k.decls = l.decls ∧ k.pos = l.pos)
          ∧ (∀ r d, (r, d) ∈ l.decls → (t.region r).decl = some d ∧ (t.region r).startHeld = false
              ∧ (t.region r).st = (if l.full then .writing
                  else if (s.region r).st = .unloaded then .parkedIsolated else (s.region r).st))
          ∧ (∀ r, r ∉ l.declared → t.region r = s.region r)
          ∧ (l.full = false → SameBut [.cc, .regions, .dx] s t)
          ∧ (l.full = true → ∀ i, t.sem i = {}))
      ∧ (∀ r code short, s.refusal l = some (r, code, short) → s.cc.source = 2 →
        ∃ t, exec .admission s = .next t ∧ t.cc.state = 7 ∧ t.cc.reason = BitVec.ofNat 8 code
          ∧ t.cc.refRegion = BitVec.ofNat 8 r ∧ t.cc.refCode = BitVec.ofNat 8 code
          ∧ t.cc.refShortfall = BitVec.ofNat 32 short ∧ t.cc.load = none
          ∧ SameBut [.cc, .ra, .hi, .out, .sd] s t))

/-- PARK, REGION_PARKED and ISOLATE (03 R71, R86; 04 R123, R124, Table 4.4). -/
def Obligations.ParkAndIsolate : Prop :=
  (∀ (s : State) (l : Load) (w : W32) (r : Nat), AtCommand s l [w] → IsCmd w 8 r 0 → InPlace s l w 0 →
    ∃ t, exec .park s = .next t
      ∧ (∃ k, t.cc.load = some k ∧ k.parked = l.parked ++ [r] ∧ k.part = .parks ∧ k.pos = l.pos + 1)
      ∧ t.region r = (if (s.region r).st.isRunning then { s.region r with parking := true } else s.region r)
      ∧ (∀ q, q ≠ r → t.region q = s.region q) ∧ SameBut [.cc, .regions] s t)
  ∧ (∀ (s : State) (r : Nat) (prog : List (Nat × Progress)), s.pw.perst = true → r < 64 →
      prog.all (fun p => decide (p.1 < 25600)) = true → (s.region r).parking = true → (s.region r).st.isRunning = true →
      (s.region r).thenIsolate = false →
      (∀ c, regionOf c = r → s.running c = true → (s.core c).guest = none ∧ (s.core c).accs = [] ∧ (s.core c).ops = []) →
    ∃ t, exec (.regionParked r prog) s = .next t
      ∧ (t.region r).st = (if (s.region r).st = .running then .parked else .parkedIsolated)
      ∧ (t.region r).parking = false ∧ (∀ q, q ≠ r → t.region q = s.region q)
      ∧ (∀ c, (t.core c).gpr = (s.core c).gpr ∧ (t.core c).pc = (s.core c).pc ∧ (t.core c).vreg = (s.core c).vreg)
      ∧ SameBut [.regions, .cores] s t)
  ∧ (∀ (s : State) (l : Load) (w : W32) (r : Nat), AtCommand s l [w] → IsCmd w 7 r 0 → InPlace s l w 0 →
      (s.region r).st = .parked →
    ∃ t, exec .isolate s = .next t
      ∧ (∃ k, t.cc.load = some k ∧ k.isolated = l.isolated ++ [r] ∧ k.part = .isolates ∧ k.pos = l.pos + 1)
      ∧ t.region r = { s.region r with st := .parkedIsolated } ∧ (∀ q, q ≠ r → t.region q = s.region q)
      ∧ (∀ c, regionOf c = r → (t.core c).l1 = [])
      ∧ (∀ i, (s.sem i).st = .owned → (s.sem i).ownerPkg = none → inRegion r (s.sem i).owner = true →
          (t.sem i).st = .abandoned)
      ∧ (∀ w c, w ∈ t.ml.waits → w.core = some c → regionOf c = r → (s.core c).opOf w.acc = none
          ∨ ∃ o, (s.core c).opOf w.acc = some o ∧ o.port ≠ 0x691 ∧ o.port ≠ 0x698)
      ∧ t.mem = s.mem ∧ t.pw = s.pw ∧ t.tb = s.tb ∧ t.co = s.co ∧ t.dx = s.dx)

/-- CHECK_END and WAIT_RIGHT_AWAY (03 R98, Table 3.5; 04 R110, R114). -/
def Obligations.CheckEndPasses : Prop :=
  (∀ (s : State) (l : Load) (w crc : W32), AtCommand s l [w, crc] → IsCmd w 0xC 0 1 → InPlace s l w 0 →
      l.declared.Nodup → crc = BitVec.ofNat 32 (crc32 l.crc.toNat (wordBytes w)) ^^^ 0xFFFF_FFFF →
    ∃ t, exec .checkEnd s = .next t ∧ t.cc.state = 4 ∧ t.cc.crcExpected = crc ∧ t.cc.crcComputed = crc
      ∧ (∃ k, t.cc.load = some k ∧ k.part = .checked ∧ k.pos = l.pos + 2)
      ∧ (∀ r, r ∈ l.declared → (s.region r).st = .writing → (t.region r).st = .parkedIsolated)
      ∧ (∀ r, r ∉ l.declared → t.region r = s.region r)
      ∧ (∀ r d c off, (r, d) ∈ l.decls → d.clearYard = true → c ∈ declCores r d → off < 0x2_0000 →
          ((s.core c).frameWord 50 (28 + off / 1024 / 32)).getLsbD (off / 1024 % 32) = false →
          t.mem.read (yardBase c + off) = some 0)
      ∧ (∀ a, a < 0x0800_0000_0000 → t.mem.read a = s.mem.read a)
      ∧ SameBut [.cc, .regions, .mem, .yardBad] s t)
  ∧ ∀ (s : State) (l : Load) (w : W32), AtCommand s l [w] → IsCmd w 0xB 0 0 → InPlace s l w 0 →
    ∃ t, exec .waitRightAway s = .next t ∧ t.cc.state = 5
      ∧ (∃ k, t.cc.load = some k ∧ k.pos = l.pos + 1 ∧ k.part = l.part)
      ∧ t.ra = { s.ra with deadline := if l.raTimeout = 0 then none else some (s.pw.now + l.raTimeout.toNat * 1000) }
      ∧ SameBut [.cc, .ra] s t

/-- 03 R102: CHECK_END with a wrong CRC-32. -/
def Obligations.EndCheckFails : Prop :=
  ∀ (s : State) (l : Load) (w crc : W32), AtCommand s l [w, crc] → IsCmd w 0xC 0 1 → InPlace s l w 0 →
    crc ≠ BitVec.ofNat 32 (crc32 l.crc.toNat (wordBytes w)) ^^^ 0xFFFF_FFFF →
    ∃ t, exec .checkEnd s = .next t
      ∧ (s.cc.source = 2 → t.cc.state = 8 ∧ t.cc.reason = 0x0A ∧ t.cc.load = none)
      ∧ (s.cc.source = 0 ∨ s.cc.source = 1 →
          (if s.cc.tried = 3 then t.cc.reason2 else t.cc.reason1) = 0x0A
            ∧ (t.cc.load = none ∨ ∃ k, t.cc.load = some k ∧ k.isNew))
      ∧ (l.full = true → t.ra.driving = true ∧ ∀ r, (t.region r).st = .unloaded)
      ∧ (∀ r, (t.region r).st.isRunning = true → (s.region r).st.isRunning = true)

/-- START, UNISOLATE and END (03 R77, R82, R582; 04 R117, R128, R129; 05 R177). -/
def Obligations.StartsAndEnds : Prop :=
  (∀ (s : State) (l : Load) (w : W32) (n : Nat), AtCommand s l [w] → IsCmd w 9 n 0 → InPlace s l w 0 →
      l.declared.Nodup →
      (∀ r d, (r, d) ∈ l.decls → coresOutside r d = 0 ∧ (s.region r).decl = some d) →
      (∀ r, r ∈ l.named w → (s.region r).st = .parkedIsolated ∧ (s.region r).parkHold = false ∧ (s.region r).resetHold = false) →
    ∃ t, exec .start s = .next t
      ∧ (∃ k, t.cc.load = some k ∧ k.started = l.started ++ l.named w ∧ k.part = .starts ∧ k.pos = l.pos + 1)
      ∧ (∀ r, r ∉ l.named w → t.region r = s.region r)
      ∧ (∀ r d, (r, d) ∈ l.decls → r ∈ l.named w →
          (t.region r).st = .startedIsolated ∧ (t.region r).hasRun = true
          ∧ ∀ c, c ∈ declCores r d → t.running c = true ∧ (t.core c).pc = BitVec.ofNat 11 d.entry
              ∧ (t.core c).intMode = { cur := d.intMode.setWidth 64 } ∧ (t.core c).l1 = [] ∧ (t.core c).preds = 0
              ∧ nget 0 (t.core c).gpr 62 = BitVec.ofNat 64 (s.pkg.toNat * 2 ^ 45 + yardBase c + 0x1_FF00)
              ∧ (∀ g, g ≠ 62 → nget 0 (t.core c).gpr g = 0)
              ∧ (t.core c).cfg = (s.core c).cfg)
      ∧ (∀ r d c, (r, d) ∈ l.decls → r ∈ l.named w → regionOf c = r → inDecl r d c = false → t.running c = false)
      ∧ t.mem = s.mem ∧ t.ra = s.ra)
  ∧ (∀ (s : State) (l : Load) (w : W32) (n : Nat), AtCommand s l [w] → IsCmd w 0xA n 0 → InPlace s l w 0 →
      l.declared.Nodup →
    ∃ t, exec .unisolate s = .next t
      ∧ (∃ k, t.cc.load = some k ∧ k.unisolated = l.unisolated ++ l.named w ∧ k.part = .unisolates ∧ k.pos = l.pos + 1)
      ∧ (∀ r, r ∉ l.named w → t.region r = s.region r)
      ∧ (∀ r, r ∈ l.named w → (s.region r).resetHold = false →
          (t.region r).st = (match (s.region r).st with
            | .parkedIsolated => .parked
            | .startedIsolated => .running
            | x => x))
      ∧ (∀ r, r ∈ l.named w → (s.region r).resetHold = true → (t.region r).st = (s.region r).st)
      ∧ SameBut [.cc, .regions] s t)
  ∧ ∀ (s : State) (l : Load) (w : W32), s.pw.perst = true → s.cc.load = some l → l.part ≠ .header → l.framesLeft = 0 →
      s.loadWaits l = false → s.lookAhead 1 = [w] → IsCmd w 0xD 0 0 → l.pos + 1 = l.length →
      l.mayStand w 0 = true → l.admitsAt w 0 = false →
    ∃ t, exec .loadEnd s = .next t ∧ t.cc.state = 6 ∧ t.cc.reason = 0 ∧ t.cc.wordOffset = 0 ∧ t.cc.load = none
      ∧ t.ra = (if l.full then { s.ra with watching := true } else s.ra)
      ∧ SameBut [.cc, .ra, .hi, .out, .sd] s t

/-- RGN_CTRL_PARK, RUN, RESET and CLEAR_RED (04 R123, R128-R130, Table 4.8; 18 R535). -/
def Obligations.ParkRunReset : Prop :=
  ∀ (s : State) (r : Nat) (src : Source), s.pw.perst = true → r < 64 →
    (∃ t, exec (.rgnCtrlPark r src) s = .next t ∧ SameBut [.regions] s t ∧ (∀ q, q ≠ r → t.region q = s.region q)
      ∧ (src = srcHost ∨ src = srcSignalBox →
          t.region r = { s.region r with
            parkHold := true, parkSrc := if src = srcHost then 1 else 2, lastWriter := src
            parking := (s.region r).st.isRunning || (s.region r).parking })
      ∧ (src ≠ srcHost → src ≠ srcSignalBox →
          t.region r = (if (s.region r).st.isRunning then { s.region r with parking := true, lastWriter := src }
            else s.region r)))
    ∧ ((s.region r).st = .parked → (s.region r).parkHold = false → (s.region r).resetHold = false →
      ((s.region r).hasRun = true →
        ∃ t, exec (.run r src) s = .next t ∧ t.region r = { s.region r with st := .running, lastWriter := src }
          ∧ (∀ q, q ≠ r → t.region q = s.region q) ∧ SameBut [.regions] s t)
      ∧ (∀ d, (s.region r).hasRun = false → (s.region r).decl = some d → coresOutside r d = 0 →
        ∃ t, exec (.run r src) s = .next t ∧ (t.region r).st = .running ∧ (t.region r).lastWriter = src
          ∧ (∀ c, c ∈ declCores r d → t.running c = true ∧ (t.core c).pc = BitVec.ofNat 11 d.entry)
          ∧ (∀ q, q ≠ r → t.region q = s.region q) ∧ SameBut [.regions, .cores] s t))
    ∧ ((s.region r).st ≠ .parked ∨ (s.region r).parkHold = true ∨ (s.region r).resetHold = true →
      exec (.run r src) s = .next s)
    ∧ (∃ t, exec (.reset r src) s = .next t ∧ (t.region r).st = .unloaded ∧ (t.region r).decl = none
      ∧ (t.region r).resetHold = (decide (src = srcHost) || (s.region r).resetHold) ∧ (t.region r).lastWriter = src
      ∧ (∀ c, regionOf c = r → t.running c = false ∧ (t.core c).l1 = [])
      ∧ (∀ i, (s.sem i).st = .owned → (s.sem i).ownerPkg = none → inRegion r (s.sem i).owner = true →
          (t.sem i).st = .abandoned)
      ∧ (∀ c off, yardBase c + off ∈ t.yardBad → c < 25600 → off < 0x2_0000 → regionOf c ≠ r)
      ∧ (∀ q, q ≠ r → t.region q = s.region q) ∧ t.pw = s.pw ∧ t.tb = s.tb ∧ t.co = s.co ∧ t.sd = s.sd)
    ∧ (src = srcHost → (s.region r).st = .red →
      ∃ t, exec (.clearRed r src) s = .next t ∧ (t.region r).st = .unloaded ∧ (t.region r).decl = none
        ∧ (t.region r).lastWriter = src ∧ (∀ q, q ≠ r → t.region q = s.region q)
        ∧ SameBut [.regions, .dx, .mem, .yardBad] s t)
    ∧ (src = srcHost → (s.region r).st ≠ .red → exec (.clearRed r src) s = .next s)
    ∧ (src ≠ srcHost → exec (.clearRed r src) s = .next (s.modRegion r fun g => { g with ignored := satInc g.ignored }))

/-- RGN_HOLD_CLEAR (04 R129, Tables 4.9, 4.10). -/
def Obligations.HoldsCleared : Prop :=
  ∀ (s : State) (r : Nat) (park reset : Bool) (src : Source), s.pw.perst = true → r < 64 →
    (src = srcHost → (park || reset) = true → (s.region r).startHeld = false → (s.region r).unisoHeld = false →
      ∃ t, exec (.rgnHoldClear r park reset src) s = .next t
        ∧ (t.region r).parkHold = ((s.region r).parkHold && !park)
        ∧ (t.region r).resetHold = ((s.region r).resetHold && !reset)
        ∧ (park = true → (s.region r).parkHold = true → (t.region r).parkSrc = 0)
        ∧ (t.region r).st = (s.region r).st ∧ (t.region r).decl = (s.region r).decl
        ∧ (∀ q, q ≠ r → t.region q = s.region q) ∧ SameBut [.regions] s t)
    ∧ (∀ d, src = srcHost → (park || reset) = true → (s.region r).startHeld = true → (s.region r).decl = some d →
        coresOutside r d = 0 → ((s.region r).parkHold && !park) = false → ((s.region r).resetHold && !reset) = false →
        (s.region r).st = .parked ∨ (s.region r).st = .parkedIsolated →
      ∃ t, exec (.rgnHoldClear r park reset src) s = .next t
        ∧ (t.region r).parkHold = false ∧ (t.region r).resetHold = false ∧ (t.region r).startHeld = false
        ∧ (t.region r).st = (if (s.region r).st = .parked ∨ (s.region r).unisoHeld = true then .running else .startedIsolated)
        ∧ (∀ c, c ∈ declCores r d → t.running c = true ∧ (t.core c).pc = BitVec.ofNat 11 d.entry)
        ∧ (∀ q, q ≠ r → t.region q = s.region q) ∧ SameBut [.regions, .cores] s t)
    ∧ (src ≠ srcHost → (park || reset) = true →
        exec (.rgnHoldClear r park reset src) s = .next (s.modRegion r fun g => { g with ignored := satInc g.ignored }))
    ∧ ((park || reset) = false → exec (.rgnHoldClear r park reset src) s = .next s)

/-- REGISTER_WRITE and REGISTER_READ (00 R577, Table 0.3; 01 R39, R46; 04 R581). -/
def Obligations.RegisterAccess : Prop :=
  (∀ (s : State) (src : Source) (o n : Nat) (v : W64), s.pw.perst = true → (n = 4 ∨ n = 8) → o % n = 0 → o < 0xC0_0000 →
    exec (.registerWrite src (.bar0 o) n v) s
      = .next (s.sysWrite (o / 8 * 8) (laneIn o n v) (laneMask o n) src false))
  ∧ (∀ (s : State) (o n : Nat), s.pw.perst = true → (n = 4 ∨ n = 8) → o % n = 0 → o < 0xC0_0000 →
    exec (.registerRead srcHost (.bar0 o) n) s
      = .next ((s.sysReadEffect (o / 8 * 8) (laneMask o n)).emit
          (.completion .success (toBytes n (laneOut o n (s.sysRead (o / 8 * 8))).toNat))))
  ∧ (∀ (s : State) (o n : Nat) (v : W64), s.pw.perst = true → o < 0xC0_0000 → ((n ≠ 4 ∧ n ≠ 8) ∨ o % n ≠ 0) → LogRoom s →
    (∃ t, exec (.registerWrite srcHost (.bar0 o) n v) s = .next t ∧ t.hi.errKind = 1 ∧ Logged s t 0x0A
      ∧ SameBut [.hi, .ec, .out] s t)
    ∧ ∃ t l, exec (.registerRead srcHost (.bar0 o) n) s = .next t ∧ t.hi.errKind = 1 ∧ Logged s t 0x0A
      ∧ t.out = .completion .unsupported [] :: l ∧ SameBut [.hi, .ec, .out] s t)
  ∧ (∀ (s : State) (src : Source) (v : W64), s.pw.perst = true →
    exec (.registerWrite src (.bar0 0x000) 8 v) s = .next s ∧ exec (.registerWrite src (.bar0 0x008) 8 v) s = .next s
    ∧ exec (.registerWrite src (.bar0 0x020) 8 v) s
        = .next { s with cc := { s.cc with rwpIgnored := satInc s.cc.rwpIgnored } }
    ∧ s.sysRead 0x000 = 0x7020_1F9A ∧ s.sysRead 0x008 = 0x0001_0000_0000_0301 ∧ s.sysRead 0x018 = 0xF_FFFF)
  ∧ (∀ s : State, s.pw.perst = true →
    exec (.registerRead srcHost (.bar0 0x10_0048) 4) s
      = .next ({ s with cc := { s.cc with rwpIgnored := 0 } }.emit (.completion .success (toBytes 4 s.cc.rwpIgnored.toNat)))
    ∧ exec (.registerRead srcHost (.bar0 0x10_004C) 4) s = .next (s.emit (.completion .success [0, 0, 0, 0])))

/-- AW_RANGE_WRITE, AW_ATTR_WRITE and CO_PRED_CLEAR (11 R358, R359; 12 R392, Table 12.7). -/
def Obligations.WindowRegisters : Prop :=
  ∀ (s : State) (v : W64) (src : Source), s.pw.perst = true →
    (∀ n, n < 64 → s.pinned n = false →
      ∃ t, exec (.awRangeWrite n v src) s = .next t
        ∧ t.window n = { s.window n with
            enable := v.getLsbD 63, limit := v.extractLsb' 32 18, base := v.extractLsb' 0 18, lastWriter := src }
        ∧ (∀ m, m ≠ n → t.window m = s.window m) ∧ t.co.lines = s.co.lines ∧ t.co.dir = s.co.dir ∧ SameBut [.co] s t)
    ∧ (∀ n, n < 64 → s.pinned n = true →
      ∃ t, exec (.awRangeWrite n v src) s = .next t
        ∧ t.window n = { s.window n with ignored := satInc (s.window n).ignored }
        ∧ (∀ m, m ≠ n → t.window m = s.window m) ∧ SameBut [.co] s t)
    ∧ (∀ n, n < 65 →
      ∃ t, exec (.awAttrWrite n v src) s = .next t
        ∧ t.window n = { s.window n with attr := v.extractLsb' 0 8, lastWriter := src }
        ∧ (∀ m, m ≠ n → t.window m = s.window m) ∧ SameBut [.co] s t)
    ∧ exec (.coPredClear src) s = .next { s with co := { s.co with pred := [], predWriter := src } }

/-- BOOT_STORE_SCAN without a valid slot (04 R585). -/
def Obligations.NoValidSlot : Prop :=
  ∀ s : State, s.pw.perst = true → s.cc.boot = .idle → s.cc.bootHold = true → s.cc.load = none → s.cc.state = 0 →
    (∀ f, s.sd.flash = some f → f.sfdp = true → f.erase = none ∧ bootSlots f = []) →
    ∃ t, exec .bootStoreScan s = .next t ∧ t.cc.source = 3 ∧ t.cc.tried = 0
      ∧ (∃ u, exec .go t = .next u ∧ u.cc.state = 1 ∧ u.cc.source = 2)
      ∧ (s.pw.bootsel = 0 → t.cc.state = 8 ∧ t.cc.reason = 1 ∧ t.cc.wordOffset = 0
        ∧ (s.hi.msixEnable = true → s.busMaster = true → s.hi.funcMask = false →
            ∀ v e, nget (false, 0) s.hi.event 1 = (true, v) → nget {} s.hi.msix v.toNat = e → e.mask = false →
              t.out = .msix e.addr e.data :: s.out))
      ∧ (s.pw.bootsel ≠ 0 → t.cc.state = 0 ∧ t.cc.reason = s.cc.reason ∧ t.out = s.out ∧ t.hi.pba = s.hi.pba)
      ∧ SameBut [.cc, .sd, .hi, .out] s t

/-- BOOT_STORE_SCAN, ERASE_BLOCK_DONE and RESUMED_ERASE_TIMEOUT at boot (19 R558, R564, R565). -/
def Obligations.StoreScan : Prop :=
  (∀ (f : Flash) (slot : Bool) (g : Nat), validSlot f slot = some g ↔
    ∃ d n, readDescriptor f = some d ∧ slotHeader f (d.base slot) = some (g, n) ∧ slotState f slot = slotCommitted
      ∧ 4 * n + 256 ≤ d.slotBytes)
  ∧ (∀ (f : Flash) (a b : Nat), validSlot f false = some a → validSlot f true = some b →
      bootSlots f = if laterGeneration b a then [true, false] else [false, true])
  ∧ (∀ (s : State) (f : Flash) (e : FlashErase), s.pw.perst = true → s.cc.boot = .idle → s.sd.flash = some f → f.sfdp = true →
      f.erase = some e →
    ∃ t, exec .bootStoreScan s = .next t ∧ t.cc = { s.cc with boot := .waitErase } ∧ t.sd.resumed = true
      ∧ t.sd.flash = some { f with erase := some { e with suspended := false } }
      ∧ t.hi.subsys = ((readDescriptor f).map Descriptor.subsys).getD s.hi.subsys ∧ SameBut [.cc, .sd, .hi] s t)
  ∧ (∀ (s : State) (f : Flash) (e : FlashErase), s.pw.perst = true → s.cc.boot = .waitErase → s.cc.bootHold = true →
      s.cc.load = none → s.sd.failed = false → s.sd.flash = some f → f.erase = some e → e.suspended = false →
      ∀ slot rest, bootSlots { eraseBlock f e.block with erase := none } = slot :: rest →
    ∃ t, exec .eraseBlockDone s = .next t ∧ t.cc.boot = .scanned ∧ t.cc.state = 1 ∧ t.cc.source = BitVec.ofNat 2 (b2n slot)
      ∧ t.cc.tried = s.cc.tried ||| (if slot then 2 else 1)
      ∧ (∃ l, t.cc.load = some l ∧ l.isNew ∧ (l.full = true → t.ra.driving = true) ∧ (l.full = false → t.ra = s.ra))
      ∧ t.sd.flash = some { eraseBlock f e.block with erase := none } ∧ SameBut [.cc, .sd, .ra] s t)
  ∧ (∀ s : State, s.pw.perst = true → s.cc.boot = .waitErase →
    ∃ t, exec .resumedEraseTimeout s = .next t ∧ t.sd.failed = true ∧ t.cc.boot = .scanned ∧ t.cc.load = s.cc.load
      ∧ t.cc.bootHold = false ∧ t.sd.flash = s.sd.flash ∧ SameBut [.cc, .sd, .hi, .out] s t)

/-- READ, PROGRAM, SLOT_ERASE, COMMIT and RESCAN written to SD_FL_CMD (19 R562, R563, R568). -/
def Obligations.FlashCommands : Prop :=
  ∀ (s : State) (src : Source) (slot : Bool) (len : BitVec 9), s.pw.perst = true →
    (s.flashBusy = false →
      exec (.flashRead src) s
        = .next { s with sd := { s.sd with flWriter := src, cmd := some (.read s.sd.flAddr.toNat) } }
      ∧ exec (.commit src slot) s = .next { s with sd := { s.sd with flWriter := src, flSlot := slot, cmd := some .commit } }
      ∧ exec (.rescan src) s = .next { s with sd := { s.sd with flWriter := src, cmd := some .rescan } }
      ∧ (∀ f x, s.sd.failed = false → s.sd.flash = some f →
          slotAt f s.sd.flAddr.toNat (if len = 0 then 256 else len.toNat) = some x →
          s.sd.flAddr.toNat % 256 + (if len = 0 then 256 else len.toNat) ≤ 256 →
        ∃ t, exec (.program src len) s = .next t ∧ t.sd.cmd = some (.program s.sd.flAddr.toNat) ∧ t.sd.flLen = len
          ∧ t.sd.flWriter = src ∧ SameBut [.sd] s t
          ∧ (slotState f x = slotWriting → t.sd.flash = some f)
          ∧ (slotState f x = slotErased → t.sd.flash = some (journal f 4 x 0)))
      ∧ (∀ f d, s.sd.failed = false → s.sd.flash = some f → readDescriptor f = some d → d.slotBytes ≠ 0 →
        ∃ t, exec (.slotErase src slot) s = .next t ∧ t.sd.cmd = some (.erase slot 0) ∧ t.sd.flWriter = src
          ∧ t.sd.flash = some { journal f 1 slot 0 with
              erase := some { block := d.base slot / 65536, suspended := false } }
          ∧ SameBut [.sd] s t))
    ∧ (s.flashBusy = true →
      let ign : State := { s with sd := { s.sd with ignored := satInc s.sd.ignored } }
      exec (.program src len) s = .next ign ∧ exec (.slotErase src slot) s = .next ign
      ∧ exec (.commit src slot) s = .next ign ∧ exec (.rescan src) s = .next ign
      ∧ ((∀ x b, s.sd.cmd ≠ some (.erase x b)) → exec (.flashRead src) s = .next ign)
      ∧ ∀ x b, s.sd.cmd = some (.erase x b) → s.sd.readDuringErase = none →
        ∃ t, exec (.flashRead src) s = .next t ∧ t.sd.cmd = s.sd.cmd ∧ t.sd.flWriter = src
          ∧ t.sd.readDuringErase = some s.sd.flAddr.toNat ∧ t.sd.ignored = s.sd.ignored
          ∧ (∀ f e, s.sd.flash = some f → f.erase = some e →
              t.sd.flash = some { f with erase := some { e with suspended := true } })
          ∧ SameBut [.sd] s t)

/-- FLASH_COMMAND_DONE and ERASE_BLOCK_DONE (19 R562, R563, R568). -/
def Obligations.FlashResults : Prop :=
  ∀ (s : State) (f : Flash), s.pw.perst = true → s.sd.failed = false → s.sd.flash = some f → s.sd.readDuringErase = none →
    (∀ a, s.sd.cmd = some (.read a) →
      ∃ t, exec .flashCommandDone s = .next t ∧ t.sd.cmd = none ∧ t.sd.flash = some f ∧ SameBut [.sd] s t
        ∧ (slotAt f a 256 = none → t.sd.result = 4 ∧ t.sd.flBuf = s.sd.flBuf)
        ∧ (slotAt f a 256 ≠ none → t.sd.result = 0 ∧ ∀ i, i < 256 → nget 0 t.sd.flBuf i = flashByte f (a + i)))
    ∧ (∀ a, s.sd.cmd = some (.program a) →
      ∃ t, exec .flashCommandDone s = .next t ∧ t.sd.cmd = none ∧ t.sd.flBuf = s.sd.flBuf ∧ SameBut [.sd] s t
        ∧ (∀ r, s.programTarget f a = .inl r → t.sd.result = BitVec.ofNat 4 r ∧ t.sd.flash = some f)
        ∧ (∀ x, s.programTarget f a = .inr x → t.sd.result = 0
            ∧ ∃ g, t.sd.flash = some g ∧ (f.bytes.Pairwise (fun p q => p.1 < q.1) →
              (∀ i, i < s.programLen → flashByte g (a + i) = flashByte f (a + i) &&& nget 0 s.sd.flBuf i)
              ∧ ∀ b, (b < a ∨ a + s.programLen ≤ b) → flashByte g b = flashByte f b)))
    ∧ (s.sd.cmd = some .commit → ∀ d, readDescriptor f = some d →
      ∃ t, exec .flashCommandDone s = .next t ∧ t.sd.cmd = none ∧ SameBut [.sd] s t
        ∧ (slotState f s.sd.flSlot ≠ slotWriting → t.sd.result = 1 ∧ t.sd.flash = some f)
        ∧ (slotState f s.sd.flSlot = slotWriting →
            let base := d.base s.sd.flSlot
            let good := headerCrcGood f base && imageCrcGood f (base + 256) (flashWord f (base + 8))
            (good = true → t.sd.result = 0 ∧ t.sd.flash = some (journal f 5 s.sd.flSlot 0))
            ∧ (good = false → t.sd.result = 3 ∧ t.sd.flash = some f)))
    ∧ (s.sd.cmd = some .rescan → ∃ t, exec .flashCommandDone s = .next t ∧ t.sd.cmd = none ∧ t.sd.result = 0
        ∧ t.sd.flash = some f ∧ t.sd.slotA = BitVec.ofNat 3 (slotState f false)
        ∧ t.sd.slotB = BitVec.ofNat 3 (slotState f true) ∧ SameBut [.sd] s t)
    ∧ (∀ x b e d, s.sd.cmd = some (.erase x b) → f.erase = some e → e.suspended = false → s.cc.boot ≠ .waitErase →
        readDescriptor { eraseBlock f e.block with erase := none } = some d →
      let g := journal { eraseBlock f e.block with erase := none } 2 x b
      ∃ t, exec .eraseBlockDone s = .next t ∧ SameBut [.sd] s t
        ∧ (b + 1 < d.slotBytes / 65536 → t.sd.cmd = some (.erase x (b + 1))
          ∧ t.sd.flash = some { journal g 1 x (b + 1) with
              erase := some { block := d.base x / 65536 + (b + 1), suspended := false } })
        ∧ (d.slotBytes / 65536 ≤ b + 1 → t.sd.cmd = none ∧ t.sd.result = 0 ∧ t.sd.flash = some (journal g 3 x 0)))

/-- UART_DATA_WRITE, UART_TX_BYTE, UART_RX_BYTE and the JTAG instructions (19 R569-R571). -/
def Obligations.UartAndJtag : Prop :=
  (∀ (s : State) (u : Nat) (b : Byte), s.pw.perst = true → u < 2 →
    (∃ t, exec (.uartDataWrite u b) s = .next t ∧ SameBut [.sd] s t
      ∧ ((s.uart u).tx.length < 64 → t.uart u = { s.uart u with tx := (s.uart u).tx ++ [b] })
      ∧ (64 ≤ (s.uart u).tx.length → t.uart u = { s.uart u with txDropped := satInc (s.uart u).txDropped }))
    ∧ (∀ x l, (s.uart u).tx = x :: l → (u = 0 ∨ s.padIs 2 2 = true) →
      ∃ t, exec (.uartTxByte u) s = .next t ∧ t.uart u = { s.uart u with tx := l } ∧ t.out = .uart u x :: s.out
        ∧ SameBut [.sd, .out] s t)
    ∧ ((u = 0 ∨ s.padIs 3 2 = true) →
      ∃ t, exec (.uartRxByte u b) s = .next t ∧ SameBut [.sd] s t
        ∧ ((s.uart u).rx.length < 64 → t.uart u = { s.uart u with rx := (s.uart u).rx ++ [b] })
        ∧ (64 ≤ (s.uart u).rx.length → t.uart u = { s.uart u with rxDropped := satInc (s.uart u).rxDropped })))
  ∧ (∀ (s : State) (pins : BitVec 37) (pre : Option (BitVec 37)) (code : BitVec 5),
    exec .idcode s = .next { s with sd := { s.sd with jtagIr := 1 }, out := .jtag 0x1702_0F35 :: s.out }
    ∧ exec (.samplePreload pins pre) s
        = .next { s with sd := { s.sd with jtagIr := 2, boundary := pre.getD pins }, out := .jtag pins.toNat :: s.out }
    ∧ (code ∉ [0, 1, 2, 4, 5] → exec (.bypass code) s = .next { s with sd := { s.sd with jtagIr := code } })
    ∧ (s.pw.perst = false →
        exec .extest s = .next { s with sd := { s.sd with jtagIr := 0 }, out := .lands (some s.sd.boundary) :: s.out }
        ∧ exec .clamp s = .next { s with sd := { s.sd with jtagIr := 4 }, out := .lands (some s.sd.boundary) :: s.out }
        ∧ exec .highz s = .next { s with sd := { s.sd with jtagIr := 5 }, out := .lands none :: s.out })
    ∧ (s.pw.perst = true →
        exec .extest s = .next { s with sd := { s.sd with jtagIr := 0 } }
        ∧ exec .clamp s = .next { s with sd := { s.sd with jtagIr := 4 } }
        ∧ exec .highz s = .next { s with sd := { s.sd with jtagIr := 5 } }))

/-- GPIO_FUNC_WRITE and GPIO_PARK_END (19 R573, R574). -/
def Obligations.PinFunctions : Prop :=
  ∀ (s : State) (p : Nat) (f : BitVec 3) (src : Source), s.pw.perst = true → p < 16 →
    (padAllows p f.toNat = false →
      exec (.gpioFuncWrite p f src) s = .next { s with sd := { s.sd with muxIgnored := satInc s.sd.muxIgnored } })
    ∧ (padAllows p f.toNat = true → (s.gpio p).park = none → (s.gpio p).func = f →
      exec (.gpioFuncWrite p f src) s = .next s)
    ∧ (padAllows p f.toNat = true → ((s.gpio p).park ≠ none ∨ (s.gpio p).func ≠ f) →
      ∃ t, exec (.gpioFuncWrite p f src) s = .next t
        ∧ t.gpio p = { s.gpio p with park := some (f, s.pw.now), writer := src }
        ∧ (∀ q, q ≠ p → t.gpio q = s.gpio q) ∧ t.sd.gpioIn = s.sd.gpioIn ∧ SameBut [.sd] s t)
    ∧ (∀ (g : BitVec 3) (since : Nat) (level : Bool), (s.gpio p).park = some (g, since) →
        (since + 1000 ≤ s.pw.now →
          ∃ t, exec (.gpioParkEnd p level) s = .next t ∧ t.gpio p = { s.gpio p with func := g, park := none }
            ∧ (∀ q, q ≠ p → t.gpio q = s.gpio q) ∧ (t.driven p = none → t.sd.gpioIn.getLsbD p = level)
            ∧ (∀ v, t.driven p = some v → t.sd.gpioIn.getLsbD p = v)
            ∧ (∀ q, q ≠ p → t.sd.gpioIn.getLsbD q = s.sd.gpioIn.getLsbD q) ∧ SameBut [.sd] s t)
        ∧ (s.pw.now < since + 1000 → exec (.gpioParkEnd p level) s = .next s))
    ∧ (∀ g since, (s.gpio p).park = some (g, since) → (∀ k, s.padIs p k = false) ∧ s.driven p = none)

/-- TPO_EDGE, EXT_EDGE and PMBUS_POLL (19 R572). -/
def Obligations.PulsesEdgesAndPmbus : Prop :=
  ∀ s : State, s.pw.perst = true →
    (∀ n, n < 4 →
      ∃ t, exec (.tpoEdge n) s = .next t ∧ SameBut [.sd] s t ∧ (∀ m, m ≠ n → t.tpo m = s.tpo m)
        ∧ (t.tpo n).start = (s.tpo n).start ∧ (t.tpo n).period = (s.tpo n).period ∧ (t.tpo n).width = (s.tpo n).width
        ∧ ((s.tpo n).period ≠ 0 → ((t.tpo n).level = true ↔ (s.tpo n).start.toNat ≤ s.tb.now.toNat
              ∧ (s.tb.now.toNat - (s.tpo n).start.toNat) % (s.tpo n).period.toNat < (s.tpo n).width.toNat))
        ∧ ((s.tpo n).period = 0 → ((t.tpo n).level = true ↔ (s.tpo n).start.toNat ≤ s.tb.now.toNat
              ∧ s.tb.now.toNat - (s.tpo n).start.toNat < (s.tpo n).width.toNat)))
    ∧ (∀ p, p < 16 → s.padIs p 4 = true →
      ∃ t, exec (.extEdge p) s = .next t ∧ t.gpio p = { s.gpio p with edge := s.tb.now }
        ∧ (∀ q, q ≠ p → t.gpio q = s.gpio q) ∧ t.sd.gpioIn.getLsbD p = false ∧ SameBut [.sd] s t)
    ∧ (∀ b, b < 16 → (nget {} s.sd.pmb b).en = true → s.padIs 0 1 = true → s.padIs 1 1 = true →
      (∀ v, ∃ t, exec (.pmbusPoll b (some v)) s = .next t ∧ nget 0 t.tf.board b = v
        ∧ (∀ c, c ≠ b → nget 0 t.tf.board c = nget 0 s.tf.board c) ∧ SameBut [.tf] s t)
      ∧ ∃ t, exec (.pmbusPoll b none) s = .next t ∧ nget {} t.sd.pmb b = { nget {} s.sd.pmb b with nack := true }
        ∧ SameBut [.sd] s t)

/-- The SMBus commands where the target takes them (19 R552-R555, Table 19.5). -/
def Obligations.SmbusTarget : Prop :=
  (∀ s : State, Rail.vio18 ∈ s.pw.rails → Rail.vinFab ∈ s.pw.rails →
    exec .smbusReady s = .next { s with pw := { s.pw with smbReady := true } })
  ∧ (∀ s : State, s.pw.smbReady = true →
    (∃ t bs, exec .identity s = .next t ∧ t.out = .smbus bs :: s.out ∧ bs.length = 20
      ∧ bs.take 4 = [0x9A, 0x1F, 0x20, 0x70] ∧ ofBytes (bs.drop 12) = Config.serial.toNat ∧ SameBut [.out] s t)
    ∧ (∃ t b, exec .status s = .next t ∧ t.out = .smbus [b] :: s.out ∧ SameBut [.out] s t
      ∧ b.getLsbD 0 = s.pw.perst ∧ b.getLsbD 1 = decide (s.cc.state = 6) ∧ b.getLsbD 2 = s.sb.thermtrip
      ∧ b.getLsbD 3 = s.sb.capActive ∧ b.getLsbD 4 = s.sb.floorShort ∧ b.getLsbD 5 = decide (s.sd.alertEvent ≠ 0)
      ∧ b.getLsbD 6 = s.flashBusy ∧ b.getLsbD 7 = false)
    ∧ exec .alertRead s = .next (s.emit (.smbus (toBytes 2 s.sd.alertEvent.toNat)))
    ∧ (∀ v : W16, ∃ t, exec (.alertWrite v true) s = .next t ∧ SameBut [.sd] s t
      ∧ (∀ i, t.sd.alertEvent.getLsbD i = (s.sd.alertEvent.getLsbD i && !v.getLsbD i))
      ∧ t.sd.alertEnable = s.sd.alertEnable
      ∧ t.sd.alertOut = decide (t.sd.alertEvent &&& t.sd.alertEnable ≠ 0))
    ∧ (s.sd.alertOut = true → ∃ t b, exec .alertResponse s = .next t ∧ t.out = .smbus [b] :: s.out
      ∧ b.toNat / 2 = 0x4C + s.pw.smbAddr.toNat ∧ t.sd.alertOut = decide (s.sd.alertEvent &&& s.sd.alertEnable ≠ 0)
      ∧ SameBut [.out, .sd] s t))
  ∧ (∀ s : State, s.pw.smbReady = true → s.pw.perst = true →
    exec .boardCeilRead s = .next (s.emit (.smbus (toBytes 2 s.sb.boardCeil.toNat)))
    ∧ (∀ v : W16, exec (.boardCeilWrite v true) s
        = .next { s with sb := { s.sb with boardCeil := BitVec.ofNat 12 (min 3000 v.toNat), boardWriter := 0x7FFB } })
    ∧ exec .power s = .next (s.emit (.smbus (toBytes 2 s.sb.meanW.toNat ++ toBytes 2 s.sb.vin.toNat
        ++ toBytes 2 s.sb.junction.toNat ++ [0, 0])))
    ∧ (∃ t bs, exec .temps s = .next t ∧ t.out = .smbus bs :: s.out ∧ bs.length = 10 ∧ SameBut [.out] s t
        ∧ (∀ h, h < 8 → bs[2 + h]? = some (nget 0 s.tf.hbm h)))
    ∧ (∀ v : W32, v.toNat % 8 = 0 → v.toNat ≤ 0xBF_FFF8 →
        exec (.regAddr v true) s = .next { s with sd := { s.sd with regAddr := v } })
    ∧ (let o := s.sd.regAddr.toNat
      o % 8 = 0 → o ≤ 0xBF_FFF8 →
        exec .regDataRead s = .next ((s.sysReadEffect o (laneMask o 8)).emit
            (.smbus (toBytes 8 (laneOut o 8 (s.sysRead o)).toNat)))
        ∧ ∀ v : W64, exec (.regDataWrite v true) s = .next (s.sysWrite o (laneIn o 8 v) (laneMask o 8) 0x7FFB false)))

/-- The grants of one epoch (15 R456-R458). -/
def Obligations.BudgetNeverExceeded : Prop :=
  ∀ (rem : Nat) (l : List Share),
    (∀ x, x ∈ l → x.base = max x.m (min x.req x.floor)) →
    sumBy (fun x => x.grant + x.hold) (grants rem l).1 ≤ rem
    ∧ (∀ x, x ∈ (grants rem l).1 → x.m ≤ x.grant ∧ x.grant ≤ max x.m x.req)
    ∧ (sumBy (fun x => x.base + x.hold) l ≤ rem → (grants rem l).2 = ([], false))
    ∧ ∀ d : Int, d < 0 → l ≠ [] →
        (grants d l).1 = [] ∧ (grants d l).2.2 = true ∧ ∀ x, x ∈ l → x.r ∈ (grants d l).2.1

/-- EPOCH and BRAKE_REEVALUATE (15 R449, R450, R454, R456-R462, R467). VCORE within its slew
is free (log 42). -/
def Obligations.EpochAndBrakes : Prop :=
  (∀ (s : State) (k : Snap) (rest : List Snap), s.pw.perst = true → s.tf.snaps = k :: rest →
      8000 * (k.p.toNat / 8000 + 3) ≤ s.tb.now.toNat →
    let e := k.p.toNat / 8000 + 3
    let u := s.takeWrites (8000 * e)
    let ceil := u.ceilEff u.sb.force.hostCeil
    let plim := if s.powerSum < 2600 * 32000 * 1250 then 3000 else 2600
    let b := if k.vinSum = 0 then ceil else min ceil (plim * 2000 * 64 / k.vinSum)
    let q := grants ((b : Int) - max u.sb.force.jres.toNat (ceilDiv k.junction 16) - u.idleCharge k) (u.shares k)
    ∃ t, exec .epoch s = .next t ∧ t.tf.snaps = rest ∧ t.sb.epoch = BitVec.ofNat 64 e
      ∧ t.sb.budget = BitVec.ofNat 12 b ∧ t.sb.boardCeil = s.sb.boardCeil ∧ t.sb.floorShort = q.2.2
      ∧ (∀ x, x ∈ q.1 → (t.region x.r).request = BitVec.ofNat 12 x.req ∧ (t.region x.r).stEpoch = BitVec.ofNat 12 e
          ∧ (u.hotCell k.cells x.r 0 = false → (s.region x.r).capped = false →
              (t.region x.r).grant = BitVec.ofNat 12 x.grant
              ∧ (t.region x.r).vset
                  = BitVec.ofNat 10 (settings x.req x.grant (u.region x.r).vtUse.toNat (k.temp x.r)).1))
      ∧ (∀ r, r ∈ q.2.1 → (t.region r).parkHold = true ∧ (t.region r).parking = true ∧ (t.region r).grant = 0)
      ∧ (∀ r, r < 64 → (s.region r).st.isRunning = false → (t.region r).st = (s.region r).st
          ∧ (t.region r).grant = narrow 12 (ceilDiv (Snap.at k.cur r) 16) ∧ (t.region r).request = (t.region r).grant)
      ∧ (∀ r, (t.region r).st = (s.region r).st ∧ (t.region r).decl = (s.region r).decl)
      ∧ SameBut [.tf, .sb, .regions, .free, .sd, .hi, .out] s t)
  ∧ (∀ (s : State) (r : Nat), s.pw.perst = true → r < 64 →
      ((s.region r).st.isRunning = false ∨ (s.region r).vHigh ≤ (s.region r).vset) →
    exec (.brakeReevaluate r) s = .next s)
  ∧ (∀ (s : State) (r : Nat), s.pw.perst = true → r < 64 →
      (s.region r).st.isRunning = true → (s.region r).vset < (s.region r).vHigh →
    ∃ t e v, exec (.brakeReevaluate r) s = .next t ∧ (s.region r).vset.toNat ≤ v
      ∧ v ≤ max (s.region r).vset.toNat ((s.region r).vHigh.toNat - 20 * (s.tb.now - (s.region r).vSince).toNat / 1000)
      ∧ e = BitVec.ofNat 4 (leastBrake (s.region r).request.toNat (s.region r).grant.toNat
          (s.region r).vtUse.toNat v (s.region r).hotAt 15)
      ∧ (t.region r).epochBrake = e
      ∧ (t.region r).brake.toNat = max e.toNat (max (s.region r).capBrake.toNat (s.region r).hostBrake.toNat)
      ∧ (t.region r).vset = (s.region r).vset ∧ (t.region r).grant = (s.region r).grant
      ∧ (∀ q, q ≠ r → t.region q = s.region q) ∧ SameBut [.regions, .free] s t)

/-- PWR_CAP_N_ASSERT, PWR_CAP_N_RELEASE and SB_BOARD_CEIL_WRITE (15 R448, R462, R464). -/
def Obligations.CapAndCeiling : Prop :=
  ∀ s : State, s.pw.perst = true →
    (∀ n, 100 ≤ n → ∃ t, exec (.pwrCapNAssert n) s = .next t ∧ t.sb.capActive = true ∧ t.pw.capLow = true
      ∧ (∀ r, r < 64 → (s.region r).st.isRunning = true → (s.region r).cls = 2 → (t.region r).capBrake = s.sb.force.capBrake)
      ∧ (∀ r, r < 64 → ((s.region r).st.isRunning = false ∨ (s.region r).cls ≠ 2) → (t.region r).capBrake = 0)
      ∧ (∀ r, (t.region r).st = (s.region r).st ∧ (t.region r).grant = (s.region r).grant)
      ∧ (∀ r, (t.region r).capBrake ≠ (s.region r).capBrake → (t.region r).brake.toNat = (t.region r).level)
      ∧ t.sd.alertEvent.getLsbD 1 = true ∧ SameBut [.pw, .free, .regions, .sb, .sd] s t)
    ∧ (∀ n, n < 50 → ∃ t, exec (.pwrCapNAssert n) s = .next t ∧ t.pw = { s.pw with capLow := true } ∧ SameBut [.pw, .free] s t)
    ∧ (∃ t, exec .pwrCapNRelease s = .next t ∧ t.sb.capActive = false ∧ t.pw.capLow = false
      ∧ (∀ r, r < 64 → (t.region r).capBrake = 0)
      ∧ (∀ r, (t.region r).st = (s.region r).st ∧ (t.region r).grant = (s.region r).grant) ∧ SameBut [.pw, .regions, .sb] s t)
    ∧ (∀ v : W64, exec (.sbBoardCeilWrite 0x7FFB v) s
        = .next { s with sb := { s.sb with boardCeil := BitVec.ofNat 12 (min 3000 (v.toNat % 4096)), boardWriter := 0x7FFB } })
    ∧ (∀ (src : Source) (v : W64), src ≠ 0x7FFB → exec (.sbBoardCeilWrite src v) s
        = .next { s with sb := { s.sb with ignored := satInc s.sb.ignored } })

/-- TELEMETRY_SAMPLE, THERMTRIP_CLEAR and PICTURE (15 R454, R466, R469, R470). -/
def Obligations.SamplesAndPictures : Prop :=
  ∀ s : State, s.pw.perst = true →
    (∀ (ch : Channel) (stamp : W64) (v : Int), ch.wf = true →
      ((∀ k, ch = .regionTemp k → v < 16 * (s.sb.force.trip.toNat : Int)) → (∀ h, ch = .hbmTemp h → v < 105) →
        ∃ t, exec (.telemetrySample ch stamp v) s = .next t ∧ (stamp, v) ∈ t.chan (chanKey ch)
          ∧ (∀ x, x ∈ t.chan (chanKey ch) → x = (stamp, v) ∨ x ∈ s.chan (chanKey ch))
          ∧ (∀ x, x ∈ s.chan (chanKey ch) → x ∈ t.chan (chanKey ch))
          ∧ (∀ k, k ≠ chanKey ch → t.chan k = s.chan k) ∧ SameBut [.tf] s t)
      ∧ (((∃ k, ch = .regionTemp k) ∧ 16 * (s.sb.force.trip.toNat : Int) ≤ v) ∨ ((∃ h, ch = .hbmTemp h) ∧ 105 ≤ v) →
        ∃ t, exec (.telemetrySample ch stamp v) s = .next t ∧ t.pw.tripOut = true ∧ t.sb.thermtrip = true
          ∧ (∀ r, r < 64 → (t.region r).parkHold = true ∧ (t.region r).parkSrc = 2
              ∧ ((s.region r).st.isRunning = true → (t.region r).parking = true))
          ∧ SameBut [.tf, .pw, .sb, .regions, .sd, .hi, .out] s t))
    ∧ (s.allCool = true → exec .thermtripClear s
        = .next { s with sb := { s.sb with thermtrip := false }, pw := { s.pw with tripOut := false } })
    ∧ (s.allCool = false → exec .thermtripClear s = .next s)
    ∧ (8000 * s.tf.nextPicture ≤ s.tb.now.toNat →
       8000 * s.tf.nextPicture + min 20000 s.tf.waitLimit.toNat ≤ s.tb.now.toNat →
      ∃ t k, exec .picture s = .next t ∧ t.tf.picture = BitVec.ofNat 64 (8000 * s.tf.nextPicture)
        ∧ t.tf.nextPicture = s.tf.nextPicture + 1 ∧ t.tf.snaps = s.tf.snaps ++ [k] ∧ k.p = t.tf.picture
        ∧ (∀ i, i < 512 → (s.chan (256 + i) = [] → nget {} t.tf.sensors i
            = { value := BitVec.ofNat 16 (16 * s.tf.missingTemp.toNat), missing := true }))
        ∧ (∀ i, i < 64 → (s.chan i = [] → (nget {} t.tf.curs i).missing = true
            ∧ (nget {} t.tf.curs i).value = BitVec.ofNat 16 (16 * (s.region i).grant.toNat)))
        ∧ (∀ r, t.region r = { s.region r with applied := appliedFrom t.tf.picture (s.region r).applied })
        ∧ SameBut [.tf, .regions] s t)

/-- BAR2_READ, BAR2_WRITE and BAR2_ATOMICOP (16 R483, R487, R489). -/
def Obligations.HostMemory : Prop :=
  ∀ (s : State) (off a : Nat), s.pw.perst = true → s.aperture off = some a → s.isLocal a = true →
    (∀ n, bar2Fits off n = true → (YardOpen s (localOf a) n ∨ HbmOpen s (localOf a) n) →
      ∃ t, exec (.bar2Read off n .clean) s = .next t ∧ SameBut [.out, .co] s t
        ∧ t.out = .completion .success ((List.range n).map fun i => s.byteAt (localOf a + i)) :: s.out
        ∧ (YardOpen s (localOf a) n → t.co = s.co))
    ∧ (∀ bs : List Byte, bar2Fits off bs.length = true → s.mem.wf = true →
        (YardOpen s (localOf a) bs.length ∨ HbmOpen s (localOf a) bs.length) →
      ∃ t, exec (.bar2Write off bs .clean) s = .next t ∧ Stored s t (localOf a) bs ∧ SameBut [.mem, .co, .cores] s t
        ∧ (YardOpen s (localOf a) bs.length → t.co = s.co ∧ t.cores = s.cores))
    ∧ (∀ (op : AtomicOp) (n : Nat) (x y : W64), n = 4 ∨ n = 8 → bar2Fits off n = true → a % n = 0 → s.mem.wf = true →
        YardOpen s (localOf a) n →
      let was := (List.range n).map fun i => s.byteAt (localOf a + i)
      let new := match op with
        | .fetchAdd => toBytes n (ofBytes was + x.toNat)
        | .swap => toBytes n x.toNat
        | .cas => if ofBytes was = y.toNat % 2 ^ (8 * n) then toBytes n x.toNat else was
      ∃ t, exec (.bar2AtomicOp op off n x y .clean) s = .next t ∧ t.out = .completion .success was :: s.out
        ∧ Stored s t (localOf a) new ∧ SameBut [.mem, .out] s t)

/-- PCIE_LINK_UP, CONFIG_REQUEST, HI_CORE_DB_WRITE, MSIX_UNMASK, HOST_READ_FAILURE and
FUNCTION_LEVEL_RESET (01 R45; 16 R481, R491, R493-R495). -/
def Obligations.HostControl : Prop :=
  ∀ s : State, s.pw.perst = true →
    (∀ (speed : BitVec 4) (width : BitVec 5) (flit : Bool), exec (.pcieLinkUp speed width flit) s
        = .next { s with hi := { s.hi with speed := speed, width := width, flit := flit, ready := true } })
    ∧ (s.hi.ready = false → ∀ i w, i < 1024 → exec (.configRequest (4 * i) 4 w) s = .next (s.emit (.completion .retry [])))
    ∧ (s.hi.ready = true → s.cc.boot ≠ .idle →
      exec (.configRequest 0 4 none) s = .next (s.emit (.completion .success [0x9A, 0x1F, 0x20, 0x70]))
      ∧ exec (.configRequest 8 4 none) s = .next (s.emit (.completion .success [0x01, 0x00, 0x00, 0x12]))
      ∧ exec (.configRequest 46 2 none) s = .next (s.emit (.completion .success (toBytes 2 s.hi.subsys.toNat)))
      ∧ ∀ v : W32, ∃ t, exec (.configRequest 4 4 (some v)) s = .next t ∧ t.busMaster = v.getLsbD 2
          ∧ t.out = .completion .success [] :: s.out ∧ SameBut [.hi, .out] s t)
    ∧ (∀ v : W64, v.toNat % 2 ^ 15 < 25600 → s.isolated (v.toNat % 2 ^ 15) = false →
      exec (.hiCoreDbWrite v) s = .next (s.modCore (v.toNat % 2 ^ 15) fun k => { k with intPending := k.intPending ||| 4 }))
    ∧ (∀ v : W64, (25600 ≤ v.toNat % 2 ^ 15 ∨ s.isolated (v.toNat % 2 ^ 15) = true) →
      ∃ t, exec (.hiCoreDbWrite v) s = .next t ∧ t.hi.dbIsolated = satInc s.hi.dbIsolated ∧ t.hi.errKind = 2
        ∧ SameBut [.hi] s t)
    ∧ (∀ v, v < 2048 → s.hi.msixEnable = true → s.hi.funcMask = false → v ∈ s.hi.pba → s.busMaster = true →
      ∃ t, exec (.msixUnmask v) s = .next t ∧ (nget {} t.hi.msix v).mask = false ∧ v ∉ t.hi.pba
        ∧ t.out = .msix (nget {} s.hi.msix v).addr (nget {} s.hi.msix v).data :: s.out ∧ SameBut [.hi, .out] s t)
    ∧ (∀ c id a o, c < 25600 → (s.core c).acc id = some a → a.id = id → a.stage = .issued → s.blocked c a = false →
        a.kind = .load → a.accepted = false → s.destOf a.addr = .host → (s.core c).opOf a.op = some o → isLoadPort o.port = true →
      ∃ t, exec (.hostReadFailure c id) s = .next t ∧ (t.core c).due = (s.core c).due ++ [{ code := 3, addr := a.addr }]
        ∧ (t.core c).acc id = none ∧ SameBut [.cores, .out] s t)
    ∧ ((∀ p, p ∈ s.queues → p.2.cur = none ∧ p.2.aborted = none) →
      ∃ t, exec .functionLevelReset s = .next t ∧ t.queues = [] ∧ t.hi.ap = [] ∧ t.hi.ctlEnable = false ∧ t.hi.msixEnable = false
        ∧ t.hi.msix = [] ∧ t.hi.hwBase = 0 ∧ t.hi.ready = s.hi.ready
        ∧ t.mem = s.mem ∧ (s.hi.signals = [] → t.sems = s.sems) ∧ t.dx = s.dx
        ∧ (∀ r, (t.region r).decl = (s.region r).decl))

/-- HI_Q_TAIL_WRITE, QUEUE_ENABLE_WRITE, QUEUE_RESET, DMA_DESCRIPTOR_START and
DMA_DESCRIPTOR_COMPLETE (16 R497-R504). -/
def Obligations.DmaQueues : Prop :=
  ∀ (s : State) (q : Nat), s.pw.perst = true → q < 64 →
    (∀ (v : W32) (src : Source),
      ((v - (s.queue q).head).toNat ≤ (s.queue q).size →
        exec (.hiQTailWrite q v src) s = .next (s.setQueue q { s.queue q with tail := v, tailWriter := src }))
      ∧ ((s.queue q).size < (v - (s.queue q).head).toNat →
        exec (.hiQTailWrite q v src) s = .next (s.setQueue q { s.queue q with rejected := satInc (s.queue q).rejected })))
    ∧ (∀ b, exec (.queueEnableWrite q b) s = .next (s.setQueue q { s.queue q with enable := b }))
    ∧ (∀ j, (s.queue q).cur = some j → j.host = true → s.busMaster = true →
      ∃ t, exec (.queueReset q) s = .next t ∧ (t.queue q).head = 0 ∧ (t.queue q).tail = 0 ∧ (t.queue q).enable = false
        ∧ (t.queue q).cur = none ∧ (t.queue q).last = 6 ∧ (t.queue q).errors = satInc (s.queue q).errors
        ∧ .hostWrite (j.slot + 0x38) (toBytes 8 6) false ∈ t.out ∧ SameBut [.queues, .ml, .hi, .out] s t)
    ∧ ((s.queue q).cur = none → ∃ t, exec (.queueReset q) s = .next t ∧ SameBut [.queues, .ml] s t
        ∧ t.queue q = { s.queue q with
            enable := false, head := 0, tail := 0, cur := none, carried := none, carriedSent := false })
    ∧ (∀ ring : List Byte, ring.length = 64 → (s.queue q).enable = true → (s.queue q).baseHost = true → (s.queue q).cur = none →
        (s.queue q).carried = none → (s.queue q).aborted = none → (s.queue q).tail ≠ (s.queue q).head →
        s.busMaster = true →
      let slot := (s.queue q).addr.toNat * 64 + 64 * ((s.queue q).head.toNat % (s.queue q).size)
      let j : DmaJob := { desc := (List.range 8).map fun i => BitVec.ofNat 64 (ofBytes ((ring.drop (8 * i)).take 8)), host := true, slot := slot }
      ∃ t, exec (.dmaDescriptorStart q (.data ring) .clean) s = .next t
        ∧ (j.malformed = true → (t.queue q).cur = none ∧ (t.queue q).head = (s.queue q).head + 1 ∧ (t.queue q).last = 5
            ∧ .hostWrite (slot + 0x38) (toBytes 8 5) false ∈ t.out ∧ SameBut [.queues, .hi, .out] s t)
        ∧ (j.malformed = false → j.srcHost = true → (t.queue q).cur = some j ∧ (t.queue q).head = (s.queue q).head
            ∧ t.out = .hostRead j.src j.length :: .hostRead slot 64 :: s.out ∧ SameBut [.queues, .out] s t))
    ∧ (∀ (j : DmaJob) (bs : List Byte), (s.queue q).cur = some j → j.host = true → j.srcHost = true → j.dstHost = false →
        j.bad = none → j.wrote = false → j.length = bs.length → bs ≠ [] → s.isLocal j.dst = true → s.mem.wf = true →
        YardOpen s (localOf j.dst) bs.length → (∀ w, w ∈ s.ml.waits → w.queue ≠ some q) → j.signal = none → s.busMaster = true →
      ∃ t, exec (.dmaDescriptorComplete q (.data bs) .clean) s = .next t ∧ Stored s t (localOf j.dst) bs
        ∧ (t.queue q).head = (s.queue q).head + 1 ∧ (t.queue q).cur = none ∧ (t.queue q).last = 1
        ∧ t.out = .hostWrite (j.slot + 0x38) (toBytes 8 (bs.length * 2 ^ 32 + 1)) false :: s.out
        ∧ SameBut [.mem, .queues, .out, .free, .ml] s t)

/-- ML_PORT_ENABLE_WRITE, RETRAIN, TRAINING_COMPLETE and PORT_FAIL (17 R512, R521, R522, R524). -/
def Obligations.LinkStates : Prop :=
  ∀ (s : State) (p : Nat) (src : Source), s.pw.perst = true → p < 12 →
    ((s.port p).st ≠ .up →
      (∃ t, exec (.mlPortEnableWrite p false src) s = .next t ∧ (t.port p).st = .disabled ∧ (t.port p).enable = false
        ∧ (t.port p).writer = src ∧ (∀ q, q ≠ p → t.port q = s.port q) ∧ SameBut [.ml, .hi, .out] s t
        ∧ ((s.port p).st = .disabled → SameBut [.ml] s t) ∧ ((s.port p).st ≠ .disabled → EventRaised s t 5))
      ∧ ((s.port p).enable = true → ∃ t, exec (.retrain p src) s = .next t ∧ (t.port p).st = .training
        ∧ (t.port p).writer = src ∧ (∀ q, q ≠ p → t.port q = s.port q) ∧ SameBut [.ml, .hi, .out] s t
        ∧ ((s.port p).st = .training → SameBut [.ml] s t) ∧ ((s.port p).st ≠ .training → EventRaised s t 5)))
    ∧ ((s.port p).st = .disabled →
      ∃ t, exec (.mlPortEnableWrite p true src) s = .next t ∧ (t.port p).st = .training ∧ (t.port p).enable = true
        ∧ (t.port p).writer = src ∧ (∀ q, q ≠ p → t.port q = s.port q) ∧ SameBut [.ml, .hi, .out] s t ∧ EventRaised s t 5)
    ∧ (∀ a b, a < 2048 → b < 16 → (s.port p).enable = true → ((s.port p).st = .training ∨ (s.port p).st = .failed) →
      ∃ t, exec (.trainingComplete p a b) s = .next t ∧ (t.port p).st = .up ∧ (t.port p).peerPkg.toNat = a
        ∧ (t.port p).peerPort.toNat = b ∧ (t.port p).txSeq = 0 ∧ (t.port p).rxSeq = 0 ∧ (t.port p).replay = []
        ∧ (∀ key, key < 8 → (t.port p).room key = vcBuffer (key / 2))
        ∧ (∀ q, q ≠ p → t.port q = s.port q) ∧ SameBut [.ml, .hi, .out] s t ∧ EventRaised s t 5)
    ∧ ((s.port p).st = .up →
      ∃ t, exec (.portFail p) s = .next t ∧ (t.port p).enable = (s.port p).enable
        ∧ p ∈ t.ml.switched ∧ (∀ q, q ∈ s.ml.switched → q ∈ t.ml.switched)
        ∧ t.ml.switchovers = satInc s.ml.switchovers
        ∧ (s.ml.parentEn = true → s.ml.parent.toNat = p → t.tb.synced = false)
        ∧ ((s.ml.parentEn = false ∨ s.ml.parent.toNat ≠ p) → t.tb = s.tb)
        ∧ ((s.port p).unsent = [] → (t.port p).st = .failed ∧ ∀ q, q ≠ p → t.port q = s.port q)
        ∧ t.regions = s.regions ∧ t.mem = s.mem ∧ t.sems = s.sems)

/-- CODEWORD_RECEIVE, MARKER_CODEWORD, PACKET_SEND, PACKET_RECEIVE, LINK_CONTROL and
REPLAY_TIMEOUT (17 R507-R514, R520). -/
def Obligations.LinkTraffic : Prop :=
  ∀ (s : State) (p : Nat), s.pw.perst = true → p < 12 → (s.port p).st = .up →
    (∃ t, exec (.codewordReceive p .discarded) s = .next t ∧ (t.port p).uncorr = satInc (s.port p).uncorr
      ∧ (t.port p).resync = true ∧ (t.port p).rxSeq = (s.port p).rxSeq ∧ SameBut [.ml] s t)
    ∧ (∀ (fixed : Bool) (ctl : BitVec 20) (h : List Byte) (rest : List (List Byte)),
        ctl.toNat / 2 ^ 18 = 0 → h.length = 32 → (∀ u, u ∈ rest → u = List.replicate 32 0) → rest.length = 19 →
        (s.port p).rxCur = [] → (s.port p).resync = false → unitLen h = 0 → (h.take 8).all (fun b => b == 0) = false →
      ∃ t, exec (.codewordReceive p (.decoded fixed ctl (h :: rest))) s = .next t
        ∧ t.port p = { s.port p with
            rxPkts := (s.port p).rxPkts ++ [packetOf [h]]
            corrected := if fixed then satInc (s.port p).corrected else (s.port p).corrected }
        ∧ SameBut [.ml] s t)
    ∧ exec (.markerCodeword p) s = .next (s.emit (.marker p))
    ∧ (∀ vc k rest, vc < 4 → nget [] (s.port p).sendQ vc = k :: rest → (vc = 3 ∨ nget [] (s.port p).sendQ 3 = []) →
        (s.port p).canSend k = true →
      ∃ t, exec (.packetSend p vc) s = .next t ∧ (t.port p).txSeq = (s.port p).txSeq + 1
        ∧ nget [] (t.port p).sendQ vc = rest
        ∧ (t.port p).replay = (s.port p).replay ++ [{ k with seq := (s.port p).txSeq, ack := (s.port p).rxSeq - 1 }]
        ∧ t.out = .packet p { k with seq := (s.port p).txSeq, ack := (s.port p).rxSeq - 1 } :: s.out
        ∧ (∀ q, q ≠ p → t.port q = s.port q) ∧ SameBut [.ml, .out] s t)
    ∧ (∀ k rest, (s.port p).rxPkts = k :: rest → k.ptype ≠ 3 →
      ∃ t, exec (.packetReceive p) s = .next t
        ∧ (k.crcOk = false → (t.port p).rxPkts = rest ∧ (t.port p).crcErr = satInc (s.port p).crcErr ∧ (t.port p).rxSeq = (s.port p).rxSeq
            ∧ (∃ c, t.out = .packet p c :: s.out ∧ c.ptype = 3 ∧ c.ack = (s.port p).rxSeq - 1) ∧ SameBut [.ml, .out] s t)
        ∧ (k.crcOk = true → k.seq ≠ (s.port p).rxSeq → (t.port p).rxPkts = rest ∧ (t.port p).rxSeq = (s.port p).rxSeq ∧ t.ml.reqIn = s.ml.reqIn
            ∧ ((k.seq - (s.port p).rxSeq).msb = true → t.out = s.out) ∧ SameBut [.ml, .out] s t)
        ∧ (k.crcOk = true → k.seq = (s.port p).rxSeq → k.dest = s.pkg → k.ptype = 1 →
            k.tseq = nget 0 s.ml.tseqRx (k.vc.toNat * 2048 + k.src.toNat) →
            (t.port p).rxPkts = rest ∧ (t.port p).rxSeq = (s.port p).rxSeq + 1 ∧ t.ml.reqIn = s.ml.reqIn ++ [{ k with via := p }]
            ∧ nget 0 t.ml.tseqRx (k.vc.toNat * 2048 + k.src.toNat) = k.tseq + 1 ∧ SameBut [.ml, .out] s t))
    ∧ (∀ k rest, (s.port p).rxPkts = k :: rest → k.ptype = 3 → k.crcOk = true → (s.port p).replay = [] →
      ∃ t, exec (.linkControl p) s = .next t ∧ (t.port p).rxPkts = rest
        ∧ nget 0 (t.port p).credit (2 * (k.credit.toNat % 4) + k.credit.toNat / 4 % 2) = k.credit.toNat / 2 ^ 8
        ∧ (t.port p).rxSeq = (s.port p).rxSeq ∧ SameBut [.ml] s t)
    ∧ (∀ k rest, (s.port p).rxPkts = k :: rest → k.ptype = 3 → k.crcOk = false →
      ∃ t c, exec (.linkControl p) s = .next t ∧ (t.port p).rxPkts = rest ∧ (t.port p).crcErr = satInc (s.port p).crcErr
        ∧ (t.port p).credit = (s.port p).credit ∧ (t.port p).replay = (s.port p).replay
        ∧ t.out = .packet p c :: s.out ∧ c.ptype = 3 ∧ c.ack = (s.port p).rxSeq - 1 ∧ SameBut [.ml, .out] s t)
    ∧ ((s.port p).replay ≠ [] → (s.port p).sentAt + 2000 ≤ s.pw.now → (s.port p).stalls < 8 →
      ∃ t, exec (.replayTimeout p) s = .next t ∧ (t.port p).replays = satInc (s.port p).replays
        ∧ (t.port p).replay = (s.port p).replay ∧ (t.port p).stalls = (s.port p).stalls + 1
        ∧ t.out = ((s.port p).replay.map fun k => Output.packet p { k with ack := (s.port p).rxSeq - 1 }).reverse ++ s.out
        ∧ SameBut [.ml, .out] s t)

/-- REMOTE_REQUEST, RESP_TIMEOUT and TIMEBASE_EXCHANGE (17 R518, R519, R523, R524). Which OP byte
names a read is the free `Config.moriqOp` (log 16): the third clause holds for every OP. -/
def Obligations.RemoteRequests : Prop :=
  ∀ s : State, s.pw.perst = true →
    (∀ k rest p cls, s.ml.reqIn = k :: rest → k.carry = false → s.route s.ml.origin.toNat k.src.toNat = some (p, cls) →
      (∀ n, linkOpOf (Config.moriqOp k.op) = some .read → n = min 256 (ofBytes (k.payload.take 4)) → 0 < n →
          YardOpen s k.addr.toNat n →
        ∃ t a, exec (.remoteRequest .clean) s = .next t ∧ t.ml.reqIn = rest ∧ SameBut [.ml] s t
          ∧ nget [] (t.port p).sendQ 1 = nget [] (s.port p).sendQ 1 ++ [a] ∧ a.ptype = 2 ∧ a.dest = k.src ∧ a.credit = k.credit
          ∧ a.op = Config.moriqCode (LinkOp.answer .ok).code ∧ a.payload = (List.range n).map fun i => s.byteAt (k.addr.toNat + i))
      ∧ (linkOpOf (Config.moriqOp k.op) = none →
        ∃ t a, exec (.remoteRequest .clean) s = .next t ∧ t.ml.reqIn = rest ∧ SameBut [.ml] s t
          ∧ nget [] (t.port p).sendQ 1 = nget [] (s.port p).sendQ 1 ++ [a] ∧ a.ptype = 2 ∧ a.dest = k.src ∧ a.credit = k.credit
          ∧ a.op = Config.moriqCode (LinkOp.answer .unmapped).code ∧ a.payload = [])
      ∧ (YardOpen s k.addr.toNat (max (max 8 (min 256 (ofBytes (k.payload.take 4)))) k.payload.length) → s.mem.wf = true →
        ∃ t a, exec (.remoteRequest .clean) s = .next t ∧ t.ml.reqIn = rest ∧ SameBut [.ml, .mem] s t
          ∧ nget [] (t.port p).sendQ 1 = nget [] (s.port p).sendQ 1 ++ [a] ∧ a.ptype = 2 ∧ a.dest = k.src ∧ a.credit = k.credit
          ∧ (linkOpOf (Config.moriqOp k.op) = some .write → Stored s t k.addr.toNat k.payload
              ∧ a.op = Config.moriqCode (LinkOp.answer .ok).code)
          ∧ (linkOpOf (Config.moriqOp k.op) = some .read → t.mem = s.mem)))
    ∧ (∀ i w, nth s.ml.waits i = some w → (w.refused = true ∨ w.since + 1000 * s.ml.respTimeout.toNat ≤ s.pw.now) →
      (w.core = none → w.queue = none → LogRoom s → w.acc ≠ 0 → s.hi.signals = [] →
        ∃ t, exec (.respTimeout i) s = .next t ∧ t.ml.waits = s.ml.waits.filter (fun x => x.id != w.id)
          ∧ t.hi.errKind = 3 ∧ Logged s t 0x0A ∧ (∃ l, t.out = .completion .aborted [] :: l) ∧ SameBut [.ml, .hi, .ec, .out] s t)
      ∧ (∀ c a, w.core = some c → (s.core c).opOf w.acc = none → (s.core c).acc w.acc = some a → a.accepted = false → w.more = [] →
        ∃ t, exec (.respTimeout i) s = .next t ∧ t.ml.waits = s.ml.waits.filter (fun x => x.id != w.id)
          ∧ (t.core c).acc w.acc = some { a with stage := .served, status := .noRoute } ∧ (∀ d, d ≠ c → t.core d = s.core d)
          ∧ t.ml.noRoute = s.ml.noRoute ∧ SameBut [.ml, .cores] s t))
    ∧ (∀ (t1 t2 t3 t4 : W64) (par : Bool), s.ml.parentEn = true → (s.port s.ml.parent.toNat).st = .up → s.ml.parent.toNat < 12 →
      let off := ((t2 - t1).toInt - (t4 - t3).toInt) / 2
      ∃ t, exec (.timebaseExchange t1 t2 t3 t4 par) s = .next t ∧ t.ml = { s.ml with tbOffset := BitVec.ofInt 32 off }
        ∧ (s.tb.stepped = false → t.tb.now = s.tb.now + BitVec.ofInt 64 (off / 16) ∧ t.tb.stepped = true
            ∧ t.tb.synced = s.tb.synced ∧ SameBut [.ml, .tb, .tf] s t)
        ∧ (s.tb.stepped = true → t.tb.now = s.tb.now ∧ t.tb.stepped = true ∧ SameBut [.ml, .tb] s t
            ∧ (s.tb.synced = true → t.tb.synced = true)
            ∧ (s.tb.synced = false → (t.tb.synced = true ↔ par = true ∧ (-4 ≤ off ∧ off ≤ 4) ∧ 15 ≤ s.tb.good))))

/-- CONFIG_PATROL, HBM_SCRUB, ENGINE_RECOVERED and EC_HEAD_WRITE (18 R526-R536). -/
def Obligations.PatrolScrubAndLog : Prop :=
  ∀ s : State, s.pw.perst = true →
    (∀ c m, c < 25600 → m < 51 → (s.region (regionOf c)).st ≠ .writing → (s.core c).cfgBad = [] →
      exec (.configPatrol (.frame c m) .clean) s = .next s
      ∧ exec (.configPatrol (.frame c m) .corrected) s = .next { s with ec := { s.ec with patrol := satInc s.ec.patrol } }
      ∧ ((s.region (regionOf c)).st = .running → LogRoom s → (∀ d, (s.core d).accs = []) →
          (∀ i w, w ∈ (s.sem i).queue → w.pkg = none) →
        ∃ t, exec (.configPatrol (.frame c m) .uncorrectable) s = .next t ∧ Logged s t 2
          ∧ (t.region (regionOf c)).st = .red ∧ (∀ q, q ≠ regionOf c → t.region q = s.region q)
          ∧ (∀ d, regionOf d = regionOf c → t.running d = false ∧ (t.core d).l1 = [])
          ∧ (∀ d, regionOf d ≠ regionOf c → s.running d = true → (t.core d).intPending.getLsbD 4 = true)
          ∧ (∀ i, (s.sem i).st = .owned → (s.sem i).ownerPkg = none → inRegion (regionOf c) (s.sem i).owner = true →
              (t.sem i).st = .abandoned)
          ∧ (s.ml.waits = [] → t.ml = s.ml) ∧ SameBut [.regions, .cores, .sems, .hi, .out, .ec, .sd, .ml] s t))
    ∧ (∀ p m, p < 12 → m < 16 → (s.port p).st ≠ .up → LogRoom s →
      ∃ t, exec (.configPatrol (.route p m) .uncorrectable) s = .next t ∧ Logged s t 9 ∧ (t.port p).enable = false
        ∧ (t.port p).st = .disabled ∧ (∀ q, q ≠ p → t.port q = s.port q) ∧ SameBut [.ml, .ec, .hi, .out] s t)
    ∧ (∀ l, l < 0x1_2000_0000 → s.pw.hbm = .ready →
      exec (.hbmScrub l .clean) s = .next s
      ∧ (∃ t, exec (.hbmScrub l .corrected) s = .next t ∧ nget 0 t.ec.corrected 3 = satInc (nget 0 s.ec.corrected 3)
          ∧ SameBut [.ec] s t)
      ∧ (l ∉ s.poison → LogRoom s → ∃ t, exec (.hbmScrub l .uncorrectable) s = .next t ∧ t.poison = l :: s.poison
          ∧ Logged s t 3 ∧ SameBut [.poison, .ec, .hi, .out] s t))
    ∧ (∀ e u, u < e.units → LogRoom s →
      exec (.engineRecovered e u .clean) s = .next s
      ∧ (∃ t, exec (.engineRecovered e u .corrected) s = .next t ∧ SameBut [.ec] s t
        ∧ let i := match e with | .homeAgent => 5 | .semaphore => 4 | .depot => 6
          t.ec = { s.ec with corrected := nset i (satInc (nget 0 s.ec.corrected i)) s.ec.corrected })
      ∧ ∃ t, exec (.engineRecovered e u .uncorrectable) s = .next t ∧ Logged s t 8 ∧ SameBut [.ec, .hi, .out] s t)
    ∧ (∀ v : W32, ∃ t, exec (.ecHeadWrite v) s = .next t ∧ SameBut [.ec] s t ∧ t.ec.tail = s.ec.tail ∧ t.ec.ring = s.ec.ring
        ∧ ((v - s.ec.head).toNat ≤ (s.ec.tail - s.ec.head).toNat → (v - s.ec.head).toNat < 2 ^ 31 → t.ec.head = v)
        ∧ ((s.ec.tail - s.ec.head).toNat < (v - s.ec.head).toNat → (v - s.ec.head).toNat < 2 ^ 31 → t.ec.head = s.ec.tail)
        ∧ (2 ^ 31 ≤ (v - s.ec.head).toNat → t.ec.head = s.ec.head))

/-- SIGNAL, TRYWAIT, CLAIM, RELEASE, READ, REVIVE and INIT (13 R397, R398, R411, R415). -/
def Obligations.SemaphoreOperations : Prop :=
  (∀ (s : State) (c i : Nat) (o : Op), s.pw.perst = true → c < 25600 → s.semNext c = some (o, i) → (s.sem i).queue = [] →
    let m := s.sem i
    (o.port = 0x690 → m.count.toNat + o.b.toNat < 2 ^ 32 → (m.count.toNat < m.level.toNat → m.count.toNat + o.b.toNat < m.level.toNat) →
      ∃ t, exec (.signal (.core c)) s = .next t
        ∧ SemDone s t c i o { m with count := m.count + BitVec.ofNat 32 o.b.toNat, lastSignaller := srcCore c }
            (semWord 0 (m.count + BitVec.ofNat 32 o.b.toNat)))
    ∧ (o.port = 0x690 → 2 ^ 32 ≤ m.count.toNat + o.b.toNat →
      ∃ t, exec (.signal (.core c)) s = .next t ∧ SemDone s t c i o m (semWord 7 m.count))
    ∧ (o.port = 0x692 → ∃ t, exec (.trywait (.core c)) s = .next t
        ∧ (m.st = .abandoned → SemDone s t c i o m (semWord 2 m.count))
        ∧ (m.st ≠ .abandoned → o.b.toNat ≤ m.count.toNat →
            SemDone s t c i o { m with count := m.count - BitVec.ofNat 32 o.b.toNat } (semWord 0 (m.count - BitVec.ofNat 32 o.b.toNat)))
        ∧ (m.st ≠ .abandoned → m.count.toNat < o.b.toNat → SemDone s t c i o m (semWord 4 m.count)))
    ∧ (o.port = 0x693 → ∃ t, exec (.claim (.core c)) s = .next t
        ∧ (m.st = .free → SemDone s t c i o { m with owner := srcCore c, ownerPkg := none, st := .owned } (semWord 0 m.count))
        ∧ (m.st = .owned → SemDone s t c i o m
            (semWord (if m.owner = srcCore c ∧ m.ownerPkg = none then 0 else 5) m.count))
        ∧ (m.st = .abandoned → SemDone s t c i o m (semWord 2 m.count)))
    ∧ (o.port = 0x694 → ∃ t, exec (.release (.core c)) s = .next t
        ∧ (m.st = .owned → m.owner = srcCore c → m.ownerPkg = none →
            SemDone s t c i o { m with owner := 0, ownerPkg := none, st := .free } (semWord 0 m.count))
        ∧ (m.st ≠ .owned ∨ m.owner ≠ srcCore c ∨ m.ownerPkg ≠ none → SemDone s t c i o m (semWord 6 m.count)))
    ∧ (o.port = 0x695 → ∃ t, exec (.read (.core c)) s = .next t ∧ SemDone s t c i o m m.stateWord)
    ∧ (o.port = 0x696 → (m.count.toNat < m.level.toNat → o.b.toNat % 2 ^ 32 < m.level.toNat) →
      ∃ t, exec (.revive (.core c)) s = .next t
        ∧ SemDone s t c i o { m with count := BitVec.ofNat 32 o.b.toNat, owner := 0, ownerPkg := none, st := .free }
            (semWord 0 (BitVec.ofNat 32 o.b.toNat)))
    ∧ (o.port = 0x697 → (m.count.toNat < m.level.toNat → o.b.toNat % 2 ^ 32 < m.level.toNat) →
      ∃ t, exec (.init (.core c)) s = .next t
        ∧ SemDone s t c i o { m with count := BitVec.ofNat 32 o.b.toNat } (semWord 0 (BitVec.ofNat 32 o.b.toNat))))
  ∧ (∀ (s : State) (i : Nat) (v : W64), s.pw.perst = true → i < 65536 → (s.sem i).queue = [] →
    (∃ t, exec (.read (.direct 0x7FFF i v)) s = .next t ∧ t.out = .completion .success (toBytes 8 (s.sem i).stateWord.toNat) :: s.out
      ∧ SameBut [.out] s t)
    ∧ (s.hostWrites ≠ [] ∨ s.hi.signals ≠ [] → exec (.signal (.direct 0x7FFF i v)) s
        = .next { s with hi := { s.hi with
            signals := s.hi.signals ++ [{ sem := i, n := v.toNat % 2 ^ 32, after := s.hostWrites }] } })
    ∧ (s.hostWrites = [] → s.hi.signals = [] → (s.sem i).level = 0 → (s.sem i).count.toNat + v.toNat % 2 ^ 32 < 2 ^ 32 →
      ∃ t, exec (.signal (.direct 0x7FFF i v)) s = .next t ∧ SameBut [.sems] s t ∧ (∀ j, j ≠ i → t.sem j = s.sem j)
        ∧ t.sem i = { s.sem i with count := (s.sem i).count + BitVec.ofNat 32 v.toNat, lastSignaller := 0x7FFF })
    ∧ ((s.sem i).st = .free →
      ∃ t, exec (.claim (.direct 0x7FFF i v)) s = .next t ∧ SameBut [.sems] s t ∧ (∀ j, j ≠ i → t.sem j = s.sem j)
        ∧ t.sem i = { s.sem i with owner := 0x7FFF, ownerPkg := none, st := .owned, hostRes := semWord 0 (s.sem i).count }))

/-- WAIT, WAIT_DEADLINE, SEMAPHORE_RESULT and CARRIED_SIGNAL, and service (13 R399-R403, R408). -/
def Obligations.SemaphoreWaits : Prop :=
  (∀ (count : W32) (q : List Waiter),
    let r := serveQueue count q
    q = r.2.2.map Prod.fst ++ r.2.1 ∧ r.1.toNat + sumBy (fun p => p.1.n) r.2.2 = count.toNat
      ∧ ∀ w rest, r.2.1 = w :: rest → r.1.toNat < w.n)
  ∧ (∀ (s : State) (c i : Nat) (o : Op), s.pw.perst = true → c < 25600 → s.semNext c = some (o, i) → o.port = 0x691 → o.pass = 0 →
      (s.core c).opOf o.id = some o →
      dueDeadline s.tb.now (s.sem i).queue = none → (s.sem i).st ≠ .abandoned → o.b ≠ 0 →
    let w : Waiter := { caller := srcCore c, op := o.id, n := o.b.toNat, deadline := o.operand 0x681 }
    ∃ t, exec (.wait (.core c)) s = .next t ∧ (∀ j, j ≠ i → t.sem j = s.sem j) ∧ (∀ d, d ≠ c → t.core d = s.core d)
      ∧ SameBut [.sems, .semDies, .cores] s t
      ∧ ((s.sem i).queue = [] → o.b.toNat ≤ (s.sem i).count.toNat →
          t.sem i = { s.sem i with count := (s.sem i).count - BitVec.ofNat 32 o.b.toNat }
          ∧ (t.core c).opOf o.id = some { o with stage := .served, res := semWord 0 ((s.sem i).count - BitVec.ofNat 32 o.b.toNat) })
      ∧ (((s.sem i).queue ≠ [] ∨ (s.sem i).count.toNat < o.b.toNat) → (o.operand 0x681 = 0 ∨ s.tb.now < o.operand 0x681) →
          s.roomUse (i / 4096) < 16384 →
          t.sem i = { s.sem i with queue := (s.sem i).queue ++ [w] } ∧ (t.core c).opOf o.id = some { o with stage := .queued })
      ∧ (((s.sem i).queue ≠ [] ∨ (s.sem i).count.toNat < o.b.toNat) → (o.operand 0x681 = 0 ∨ s.tb.now < o.operand 0x681) →
          16384 ≤ s.roomUse (i / 4096) →
          t.sem i = s.sem i ∧ (t.semDie (i / 4096)).fullRefused = satInc (s.semDie (i / 4096)).fullRefused
          ∧ (t.core c).opOf o.id = some { o with stage := .served, res := semWord 3 (s.sem i).count })
      ∧ (((s.sem i).queue ≠ [] ∨ (s.sem i).count.toNat < o.b.toNat) → o.operand 0x681 ≠ 0 → o.operand 0x681 ≤ s.tb.now →
          t.sem i = s.sem i ∧ (t.core c).opOf o.id = some { o with stage := .served, res := semWord 1 (s.sem i).count }))
  ∧ (∀ (s : State) (i : Nat) (w : Waiter) (o : Op), s.pw.perst = true → i < 65536 → (s.sem i).queue = [w] → w.pkg = none →
      w.deadline ≠ 0 → w.deadline ≤ s.tb.now → (s.core w.caller.toNat).opOf w.op = some o →
    ∃ t, exec (.waitDeadline i) s = .next t ∧ t.sem i = { s.sem i with queue := [] }
      ∧ (t.core w.caller.toNat).opOf w.op = some { o with stage := .served, res := semWord 1 (s.sem i).count }
      ∧ SameBut [.sems, .cores] s t)
  ∧ (∀ (s : State) (c id : Nat) (o : Op), s.pw.perst = true → c < 25600 → (s.region (regionOf c)).st.isRunning = true →
      (s.core c).opOf id = some o → o.stage = .served → (o.port = 0x691 ∨ o.port = 0x698) →
    ∃ t, exec (.semaphoreResult c id) s = .next t ∧ (t.core c).opOf id = none ∧ (∀ d, d ≠ c → t.core d = s.core d)
      ∧ (∀ p, p ∈ resultPorts o.port o.cap → nget id (s.core c).portLast p = id →
          (o.res.toNat % 256 ≠ 1 → nget 0 (t.core c).ports p = o.res)
          ∧ ∀ i, semAt (localOf ((o.operand 0x680).toNat % 2 ^ 56)) = some i → s.isLocal ((o.operand 0x680).toNat % 2 ^ 56) = true →
              o.res.toNat % 256 = 1 → nget 0 (t.core c).ports p = semWord 1 (s.sem i).count)
      ∧ (o.port = 0x691 → (t.core c).intPending = (s.core c).intPending)
      ∧ (o.port = 0x698 → (t.core c).intPending = (s.core c).intPending ||| 1) ∧ SameBut [.cores] s t)
  ∧ (∀ (s : State) (c i : Nat) (y : Carry) (rest : List Carry), s.pw.perst = true → c < 25600 →
      (s.core c).carriedDue = y :: rest → s.carryReady c y = true → s.isLocal y.sem.toNat = true →
      semAt (localOf y.sem.toNat) = some i → (s.sem i).queue = [] → (s.sem i).level = 0 →
      (s.sem i).count.toNat + y.n.toNat < 2 ^ 32 →
    ∃ t, exec (.carriedSignal (.core c)) s = .next t ∧ (t.core c).carriedDue = rest ∧ (∀ j, j ≠ i → t.sem j = s.sem j)
      ∧ t.sem i = { s.sem i with count := (s.sem i).count + BitVec.ofNat 32 y.n.toNat, lastSignaller := srcCore c }
      ∧ SameBut [.sems, .cores] s t)

/-- LOOKUP, LOOKUP_BLOCK, INSERT, PIN, RELEASE and AGE_SCAN on entries (14 R420, R430-R440). -/
def Obligations.DepotCommands : Prop :=
  ∀ (s : State) (q : DxReq) (port : Nat) (a : DxArgs) (walk : Option DxWalk),
    s.pw.perst = true → q.wf = true → Quiet s → s.tablesPlaced = true → s.mem.wf = true → s.dxNext q = some (port, a, walk) →
    let way := fun w => s.entryAddr a.digest w
    let entry := fun x => (s.readEntry x).2
    (s.nsSlot a.ns = none →
      (port = 0x711 → exec (.insert q) s = .next (s.dxResult q (dxWord 0x0A 0 0) none))
      ∧ (port = 0x712 → exec (.pin q) s = .next (s.dxResult q (dxWord 0x0A 0 0) none))
      ∧ (port = 0x710 → walk = none → exec (.lookup q) s = .next (s.dxResult q (dxWord 0x0A 0 0) none))
      ∧ (port = 0x714 → a.allNs = false → exec (.ageScan q) s = .next (s.dxResult q (dxWord 0x0A 0 0) none)))
    ∧ (∀ slot w, port = 0x711 → s.nsSlot a.ns = some slot → a.tpp < 3 → 1 ≤ a.b.toNat → a.b.toNat ≤ a.perPage →
        s.isLocal a.page = true → localOf a.page < 0x48_0000_0000 → s.nsEntries slot < s.nsQuota (nget 0 s.dx.ns slot) →
        w < 16 → (∀ v, v < w → (entry (way v)).valid = true) → (entry (way w)).valid = false →
        (∀ v, v < 16 → (entry (way v)).holds a.digest = false) →
      ∃ u, exec (.insert q) s = .next (u.dxResult q (dxWord 0 0 0) none) ∧ SameBut [.mem, .co, .cores] s u
        ∧ Stored s u (way w) (DxEntry.bytes
            { digest := a.digest, page := a.page, age := 0, refs := 1, tokens := a.b.toNat, slot := slot, pinned := false
              valid := true, tpp := a.tpp, inserted := s.tb.now }))
    ∧ (∀ slot w, port = 0x712 → s.nsSlot a.ns = some slot → w < 16 →
        (∀ v, v < w → ((entry (way v)).holds a.digest && (entry (way v)).slot == slot) = false) →
        (entry (way w)).holds a.digest = true → (entry (way w)).slot = slot →
      ∃ u, exec (.pin q) s = .next (u.dxResult q (dxWord 0 0 0) none) ∧ SameBut [.mem, .co, .cores] s u
        ∧ Stored s u (way w) (DxEntry.bytes { entry (way w) with pinned := a.b.getLsbD 0 }))
    ∧ (∀ slot, port = 0x712 → s.nsSlot a.ns = some slot → (∀ v, v < 16 → (entry (way v)).holds a.digest = false) →
      ∃ u, exec (.pin q) s = .next (u.dxResult q (dxWord 6 0 0) none) ∧ SameBut [.co] s u)
    ∧ (∀ w rec digest, port = 0x713 → a.b = 1 → a.addr % 16 = 0 → s.isLocal a.addr = true → HbmOpen s (localOf a.addr) 16 →
        rec = (List.range 16).map (fun i => s.byteAt (localOf a.addr + i)) → digest = BitVec.ofNat 64 (ofBytes (rec.take 8)) →
        ofBytes (rec.drop 8) % 2 ^ 56 ≠ 0 → w < 16 →
        (∀ v, v < 16 → v ≠ w → (entry (s.entryAddr digest v)).holds digest = false) →
        (entry (s.entryAddr digest w)).holds digest = true → (entry (s.entryAddr digest w)).page = ofBytes (rec.drop 8) % 2 ^ 56 →
        (entry (s.entryAddr digest w)).refs ≠ 0 →
      ∃ u, exec (.depotRelease q) s = .next (u.dxResult q (dxWord 0 1 0) none) ∧ SameBut [.mem, .co, .cores] s u
        ∧ Stored s u (s.entryAddr digest w)
            (DxEntry.bytes { entry (s.entryAddr digest w) with refs := (entry (s.entryAddr digest w)).refs - 1 }))
    ∧ (∀ slot, port = 0x710 → walk = none → s.nsSlot a.ns = some slot → a.tpp < 3 → 1 ≤ a.b.toNat → a.b.toNat ≤ 64 * a.perPage →
        a.addr % 16 = 0 → a.dst % 16 = 0 → s.isLocal a.addr = true → HbmOpen s (localOf a.addr) (4 * a.b.toNat) →
      ∃ (u : State) (w : DxWalk), exec (.lookup q) s = .next (u.modDx q (some w)) ∧ SameBut [.co] s u
        ∧ w.next = 0 ∧ w.stopped = false ∧ w.hits = 0 ∧ w.tokens = 0 ∧ w.status = 0
        ∧ w.toks = wordsFrom a.b.toNat ((List.range (4 * a.b.toNat)).map fun i => s.byteAt (localOf a.addr + i))
        ∧ w.digests = chainDigests a.perPage ((a.b.toNat + a.perPage - 1) / a.perPage) (if a.cont then a.parent else a.ns) w.toks)
    ∧ (∀ k d, port = 0x710 → walk = some k → nth k.digests k.next = some d → s.isLocal a.dst = true →
        HbmOpen s (localOf a.dst) (16 * k.next + 16) → localOf a.dst % 16 = 0 →
        (k.stopped = true ∨ ∀ v, v < 16 → (entry (s.entryAddr d v)).holds d = false) →
      ∃ u w, exec (.lookupBlock q) s = .next (u.dxWalkTo q w) ∧ w.next = k.next + 1 ∧ w.stopped = true ∧ w.hits = k.hits
        ∧ w.status = (if k.stopped then k.status else 6) ∧ SameBut [.mem, .co, .cores] s u
        ∧ Stored s u (localOf a.dst + 16 * k.next) (dxRecord d 0 (if k.stopped then 0x0E else 6)))
    ∧ (∀ k d x, port = 0x710 → walk = some k → nth k.digests k.next = some d → a.verify = false → k.stopped = false →
        s.isLocal a.dst = true → HbmOpen s (localOf a.dst) (16 * k.next + 16) → localOf a.dst % 16 = 0 →
        x < 16 → (∀ v, v < 16 → v ≠ x → (entry (s.entryAddr d v)).holds d = false) →
        (entry (s.entryAddr d x)).holds d = true → some (entry (s.entryAddr d x)).slot = s.nsSlot a.ns →
        (entry (s.entryAddr d x)).tpp = a.tpp →
        (entry (s.entryAddr d x)).tokens = ((k.toks.drop (k.next * a.perPage)).take a.perPage).length →
        (entry (s.entryAddr d x)).refs < 2 ^ 24 - 1 →
      ∃ m u w, exec (.lookupBlock q) s = .next (u.dxWalkTo q w) ∧ w.next = k.next + 1 ∧ w.stopped = false
        ∧ w.hits = k.hits + 1 ∧ w.tokens = k.tokens + (entry (s.entryAddr d x)).tokens ∧ w.status = k.status
        ∧ SameBut [.mem, .co, .cores] s u
        ∧ Stored s m (s.entryAddr d x)
            (DxEntry.bytes { entry (s.entryAddr d x) with refs := (entry (s.entryAddr d x)).refs + 1, age := 0 })
        ∧ Stored m u (localOf a.dst + 16 * k.next) (dxRecord d (entry (s.entryAddr d x)).page 0))
    ∧ (port = 0x714 → a.addr % 16 = 0 → (a.allNs = true ∨ s.nsSlot a.ns ≠ none) → a.threshold = 0 →
      let ages := fun x => (entry x).valid && (a.allNs || some (entry x).slot == s.nsSlot a.ns) && (entry x).refs == 0
        && !(entry x).pinned
      ∃ u, exec (.ageScan q) s = .next (u.nsRefresh.dxResult q (dxWord 0 0 0) none) ∧ SameBut [.mem, .co, .cores] s u
        ∧ (∀ x i b, x ∈ s.scanEntries → ages x = true →
            (DxEntry.bytes { entry x with age := min 255 ((entry x).age + 1) })[i]? = some b → u.byteAt (x + i) = b)
        ∧ ∀ y, (∀ x, x ∈ s.scanEntries → ages x = true → y < x ∨ x + 32 ≤ y) → u.byteAt y = s.byteAt y)

/-- DEPOT_ASYNC_COMPLETE and DEPOT_SLOT_TRIGGER, and results (14 R431, R445, R446). -/
def Obligations.DepotResults : Prop :=
  ∀ s : State, s.pw.perst = true →
    (∀ c o w page, (s.core c).oldest (fun o => isDepot o.port && o.stage == .running) = some o → (s.core c).opOf o.id = some o →
      let t := s.dxResult (.core c) w page
      SameBut [.cores] s t ∧ (∀ d, d ≠ c → t.core d = s.core d)
        ∧ (s.isolated c = true → (t.core c).opOf o.id = none ∧ (t.core c).ports = (s.core c).ports)
        ∧ (s.isolated c = false → isAsync (o.operand 0x703) = true → (t.core c).ports = (s.core c).ports
          ∧ (t.core c).opOf o.id = some { o with stage := .served, res := w, res2 := page.getD 0, pass := b2n page.isSome })
        ∧ (s.isolated c = false → isAsync (o.operand 0x703) = false → (t.core c).opOf o.id = none
          ∧ (nget o.id (s.core c).portLast 0x708 = o.id → nget 0 (t.core c).ports 0x708 = w)
          ∧ (nget o.id (s.core c).portLast 0x709 = o.id → nget 0 (t.core c).ports 0x709 = page.getD (nget 0 (s.core c).ports 0x709))
          ∧ ∀ p, p ≠ 0x708 → p ≠ 0x709 → nget 0 (t.core c).ports p = nget 0 (s.core c).ports p))
    ∧ (∀ c o, c < 25600 → (s.core c).oldest (fun o => isDepot o.port && o.stage == .served) = some o →
        isAsync (o.operand 0x703) = true → o.pass = 1 → s.isolated c = false →
      ∃ t, exec (.depotAsyncComplete c) s = .next t ∧ SameBut [.cores] s t ∧ (∀ d, d ≠ c → t.core d = s.core d)
        ∧ (t.core c).opOf o.id = none ∧ (t.core c).intPending = (s.core c).intPending ||| 64
        ∧ (nget o.id (s.core c).portLast 0x70A = o.id → nget 0 (t.core c).ports 0x70A = o.res)
        ∧ (nget o.id (s.core c).portLast 0x70B = o.id → nget 0 (t.core c).ports 0x70B = o.res2)
        ∧ ∀ p, p ≠ 0x70A → p ≠ 0x70B → nget 0 (t.core c).ports p = nget 0 (s.core c).ports p)
    ∧ (∀ c, c < 25600 → s.isolated c = true →
      ∃ t, exec (.depotAsyncComplete c) s = .next t ∧ SameBut [.cores] s t ∧ (∀ d, d ≠ c → t.core d = s.core d)
        ∧ (t.core c).oldest (fun o => isDepot o.port && o.stage == .served) = none ∧ (t.core c).ports = (s.core c).ports
        ∧ (t.core c).intPending = (s.core c).intPending)
    ∧ (∀ n port v, n < 64 →
      let slot := nget {} s.dx.slots n
      (isDepot port = false → exec (.depotSlotTrigger n port v) s = .next s)
      ∧ (isDepot port = true → slot.cmd ≠ none → exec (.depotSlotTrigger n port v) s
          = .next { s with dx := { s.dx with slotRejected := satInc s.dx.slotRejected } })
      ∧ (isDepot port = true → slot.cmd = none →
        ∃ t, exec (.depotSlotTrigger n port v) s = .next t ∧ SameBut [.dx] s t
          ∧ (nget {} t.dx.slots n).cmd = some (port, v) ∧ t.dx.order = s.dx.order ++ [n]
          ∧ (s.firstSlot srcHost = none → t.dxNext (.slot n) = some (port, dxArgs slot.ports v, none))
          ∧ (s.firstSlot srcHost ≠ none → n ∉ s.dx.order → t.dxNext (.slot n) = none)
          ∧ ∀ m, m ≠ n → nget {} t.dx.slots m = nget {} s.dx.slots m)
      ∧ (∀ w page, let t := s.dxResult (.slot n) w page
          SameBut [.dx] s t ∧ (nget {} t.dx.slots n).cmd = none ∧ nget 0 (nget {} t.dx.slots n).ports 0x708 = w
          ∧ (∀ x, page = some x → nget 0 (nget {} t.dx.slots n).ports 0x709 = x)
          ∧ ∀ m, m ≠ n → nget {} t.dx.slots m = nget {} s.dx.slots m))

/-- SLICE_ACCESS and REMOTE_YARD_ACCESS (11 R333-R355, 12 R369-R383). -/
def Obligations.SliceAndYardAccess : Prop :=
  (∀ (s : State) (c id slice line : Nat) (a : Access), AtSlice s c id a slice line →
    let k := s.core c
    let t := attrOf (s.attrBits a)
    let held := s.findLine slice line
    (a.kind = .load → t.cache ≤ 1 → ∀ key w, held = some (key, w) → w.poison = false →
      ∃ u, exec (.sliceAccess c id .clean) s = .next u ∧ SameBut [.cores, .co] s u ∧ (∀ d, d ≠ c → u.core d = s.core d)
        ∧ (u.core c).acc id = some { a with stage := .served, got := k.overlay s.canonical a ((s.lineBytesOf a w.data).map some) }
        ∧ u.findLine slice line = some (key, { w with age := 0 })
        ∧ (u.core c).l1Hit line = (if !t.stream && bit k.l1Enable.cur 0 && k.mayL1 a then some { line := line, data := w.data }
            else k.l1Hit line))
    ∧ (a.kind = .store → t.cache = 0 → ∀ key w, held = some (key, w) → w.poison = false → w.st = .M ∨ w.st = .E →
      ∃ u, exec (.sliceAccess c id .clean) s = .next u ∧ SameBut [.cores, .co] s u
        ∧ (u.core c).acc id = some { a with stage := .served } ∧ (∀ d, d ≠ c → (u.core d).l1Hit line = none)
        ∧ u.findLine slice line
            = some (key, { w with st := .M, age := 0, data := mergeData w.data (placeInLine a.inLine a.bytes) }))
    ∧ (∀ p, a.kind = .atomic p → t.cache ≠ 2 → t.atomic = 1 → ∀ key w, held = some (key, w) → w.poison = false →
        w.st = .M ∨ w.st = .E →
      let was := s.lineBytesOf a w.data
      let new := amoValue p (BitVec.ofNat 64 (ofBytes was)) a.b a.c
      ∃ u, exec (.sliceAccess c id .clean) s = .next u ∧ SameBut [.cores, .co] s u
        ∧ (u.core c).acc id = some { a with stage := .served, got := was.map some } ∧ (∀ d, (u.core d).l1Hit line = none)
        ∧ u.findLine slice line = some (key, { w with
            st := .M, age := 0, data := mergeData w.data (placeInLine a.inLine ((toBytes 8 new.toNat).map some)) }))
    ∧ (a.kind = .clean → ∀ key w, held = some (key, w) → w.st = .M → w.poison = false → line ∉ s.poison →
      ∃ u, exec (.sliceAccess c id .clean) s = .next u ∧ SameBut [.mem, .cores, .co] s u
        ∧ u.mem = s.mem.writeN (64 * line) w.data ∧ u.findLine slice line = some (key, { w with st := .E })
        ∧ (u.core c).acc id = none)
    ∧ (∀ kind, ((a.kind = .load ∨ a.kind = .prefetch) ∧ t.cache ≠ 2 ∧ held = none ∧ kind = .readFill)
          ∨ (a.kind = .load ∧ t.cache = 2 ∧ kind = .readBypass)
          ∨ (a.kind = .store ∧ held = none ∧ (t.cache = 2 ∨ t.walloc = false) ∧ kind = .writeBypass)
          ∨ (a.kind = .store ∧ held = none ∧ t.cache = 0 ∧ t.walloc = true ∧ kind = .ownFill)
          ∨ (a.kind = .store ∧ held = none ∧ t.cache = 1 ∧ t.walloc = true ∧ kind = .readFill)
          ∨ (a.kind = .store ∧ (∃ key w, held = some (key, w) ∧ w.st ≠ .M ∧ w.st ≠ .E) ∧ t.cache = 0 ∧ kind = .ownFill)
          ∨ (a.kind = .store ∧ held ≠ none ∧ t.cache = 1 ∧ kind = .writeThrough)
          ∨ (a.kind = .store ∧ held ≠ none ∧ t.cache = 2 ∧ kind = .writeBypass) →
      ∃ u, exec (.sliceAccess c id .clean) s = .next u ∧ Requested s u c id a slice line kind)
    ∧ (∀ p, a.kind = .atomic p → (s.core c).l1Hit line = none → ∀ kind,
          ((t.cache = 2 ∨ t.atomic = 2) ∧ kind = .farAtomic) ∨ (t.cache ≠ 2 ∧ t.atomic = 1 ∧ held = none ∧ kind = .ownFill) →
      ∃ u, exec (.sliceAccess c id .clean) s = .next u ∧ Requested s u c id a slice line kind))
  ∧ (∀ (s : State) (c id d off : Nat) (a : Access), Free s c id a → s.isLocal a.addr = true →
      decodeLocal (localOf a.addr) = .yard d off → d ≠ c →
    (s.isolated d = true →
      ∃ u, exec (.remoteYardAccess c id .clean) s = .next u ∧ SameBut [.cores] s u ∧ (∀ e, e ≠ c → u.core e = s.core e)
        ∧ (u.core c).acc id = some { a with stage := .served, status := .isolated })
    ∧ (s.isolated d = false → (∀ w, w ∈ wordsOf (localOf a.addr) a.bytes.length → s.yardWordBad w = false) → s.mem.wf = true →
      let was := (List.range a.bytes.length).map fun i => s.byteAt (localOf a.addr + i)
      (a.kind = .load → ∃ u, exec (.remoteYardAccess c id .clean) s = .next u ∧ SameBut [.cores] s u
        ∧ (u.core c).acc id = some { a with stage := .served, got := (s.core c).overlay s.canonical a (was.map some) })
      ∧ (∀ bs, a.kind = .store → a.bytes = bs.map some →
        ∃ u, exec (.remoteYardAccess c id .clean) s = .next u ∧ SameBut [.mem, .cores] s u ∧ Stored s u (localOf a.addr) bs
          ∧ (u.core c).acc id = some { a with stage := .served })
      ∧ (∀ p, a.kind = .atomic p → a.bytes.length = 8 → localOf a.addr % 8 = 0 →
        ∃ u, exec (.remoteYardAccess c id .clean) s = .next u ∧ SameBut [.mem, .cores] s u
          ∧ Stored s u (localOf a.addr) (toBytes 8 (amoValue p (BitVec.ofNat 64 (ofBytes was)) a.b a.c).toNat)
          ∧ (u.core c).acc id = some { a with stage := .served, got := was.map some })))

/-- HOME_REQUEST, PROBE_RESPONSE, WRITEBACK_ARRIVAL and FAR_ATOMIC (12 R361-R375). -/
def Obligations.HomeAgents : Prop :=
  ∀ s : State, s.pw.perst = true → rising s.co.queue = true →
    (∀ i q, nth s.co.net i = some q → 512 ≤ (s.agentReqs q.agent).length → exec (.homeRequest i) s = .next s)
    ∧ (∀ i q, nth s.co.net i = some q → s.agentReqs q.agent = [] → q.kind = .readFill → q.data = none → q.started = false →
      (s.holders q.line = [] →
        ∃ t g, exec (.homeRequest i) s = .next t ∧ SameBut [.co] s t ∧ t.co.net = dropNth s.co.net i
          ∧ t.co.grants = s.co.grants ++ [g] ∧ g.kind = .readFill ∧ g.st = (if q.ro then .S else .E) ∧ g.line = q.line
          ∧ g.slice = q.slice ∧ g.core = q.core ∧ g.acc = q.acc ∧ g.data = s.hbmLine q.line ∧ g.poison = s.linePoisoned q.line
          ∧ t.holders q.line = [(q.slice, g.st)])
      ∧ (∀ x, s.holders q.line = [(x, .M)] → x ≠ q.slice →
        ∃ t, exec (.homeRequest i) s = .next t ∧ SameBut [.co] s t ∧ t.co.net = dropNth s.co.net i ∧ t.co.grants = s.co.grants
          ∧ ((s.governing (64 * q.line)).order = false → t.co.fwds = s.co.fwds ∧ t.co.probes = s.co.probes
              ++ [{ req := q.id, agent := q.agent, line := q.line, slice := x, mode := .share, seq := s.co.nextReq }])
          ∧ ((s.governing (64 * q.line)).order = true → t.co.probes = s.co.probes
              ∧ ∃ f, t.co.fwds = s.co.fwds ++ [f] ∧ f.owner = x ∧ f.arrived = false ∧ f.req.id = q.id ∧ f.req.line = q.line
                ∧ f.req.slice = q.slice ∧ t.holders q.line = [(x, .M), (q.slice, .S)])))
    ∧ (∀ i r q d, nth s.co.resps i = some r → s.agentReqs r.agent = [q] → q.id = r.req → q.agent = r.agent → q.line = r.line →
        q.need = [r.slice] → q.started = true → q.kind = .ownFill → r.data = some d → s.findLine q.slice q.line = none →
      ∃ t g, exec (.probeResponse i) s = .next t ∧ SameBut [.co] s t ∧ t.co.resps = dropNth s.co.resps i
        ∧ t.co.grants = s.co.grants ++ [g] ∧ g.kind = .ownFill ∧ g.st = .M ∧ g.data = d ∧ g.poison = r.poison ∧ g.line = q.line
        ∧ g.slice = q.slice ∧ g.core = q.core ∧ g.acc = q.acc ∧ t.holders q.line = [(q.slice, .M)])
    ∧ (∀ i w d, nth s.co.wbs i = some w → w.data = some d → w.poison = false → w.line ∉ s.poison → rising s.co.dir = true →
      ∃ t, exec (.writebackArrival i) s = .next t ∧ SameBut [.mem, .co] s t ∧ t.co.wbs = dropNth s.co.wbs i
        ∧ t.co.acks = s.co.acks ++ [(w.slice, w.line)]
        ∧ (s.crossing w = false → t.mem = s.mem.writeN (64 * w.line) d
            ∧ t.holders w.line = (s.holders w.line).filter fun h => h.1 != w.slice)
        ∧ (s.crossing w = true → t.mem = s.mem ∧ t.co.dir = s.co.dir))
    ∧ (∀ agent q a p, agent < 64 → s.agentReqs agent = [q] → q.kind = .farAtomic → q.started = true → q.need = [] → q.data = none →
        q.predicted = false → q.line = localOf a.addr / 64 → s.linePoisoned q.line = false → (s.core q.core).acc q.acc = some a →
        a.kind = .atomic p → a.accepted = false → a.bytes.length = 8 → a.inLine + 8 ≤ 64 → s.mem.wf = true →
      let was := s.lineBytesOf a (s.hbmLine q.line)
      ∃ t, exec (.farAtomic agent) s = .next t ∧ SameBut [.mem, .co, .cores] s t
        ∧ Stored s t (localOf a.addr) (toBytes 8 (amoValue p (BitVec.ofNat 64 (ofBytes was)) a.b a.c).toNat)
        ∧ (t.core q.core).acc q.acc = some { a with stage := .served, got := was.map some }
        ∧ (∀ c, (t.core c).l1Hit q.line = none)
        ∧ nget 0 t.co.farAtomics agent = satInc (nget 0 s.co.farAtomics agent))

/-- PROBE, FORWARDED_REQUEST, LINE_GRANT, SIDING_ISSUE, SIDING_RETIRE and TABLET_HOLD_END
(11 R344-R349, 12 R366-R378). -/
def Obligations.SliceMessages : Prop :=
  ∀ s : State, s.pw.perst = true →
    let only := fun (key : Nat) (w : Line) slice =>
      rising s.co.lines = true ∧ ∀ q, q ∈ s.co.lines → q.1 / 32768 = slice → q.2.line = w.line → q = (key, w)
    (∀ i p, nth s.co.probes i = some p → p.arrived = false → s.co.grants = [] → s.co.fwds = [] →
      (∀ key w, s.findLine p.slice p.line = some (key, w) → w.holdEnd = none →
        let left : Option LineSt := match p.mode with
          | .remove => none
          | .share => some (if w.st.dirty then .O else .S)
          | .read => some (if w.st = .M then .O else w.st)
          | .look => some w.st
        let a : Resp := { req := p.req, agent := p.agent, line := p.line, slice := p.slice, data := some w.data, poison := w.poison
                          left := left, dirty := w.st.dirty }
        ∃ t, exec (.probe i) s = .next t ∧ SameBut [.co, .cores] s t ∧ t.co.probes = eraseFirst (· == p) s.co.probes
          ∧ t.co.resps = s.co.resps ++ [a]
          ∧ (∀ st, left = some st → t.cores = s.cores ∧ t.findLine p.slice p.line = some (key, { w with st := st }))
          ∧ (p.mode = .remove → only key w p.slice → t.findLine p.slice p.line = none
              ∧ ∀ c, dieOf c = p.slice / 32 → (t.core c).l1Hit p.line = none)
          ∧ (p.mode = .remove → rising s.co.dir = true → ∀ h, h ∈ t.holders p.line → h.1 ≠ p.slice))
      ∧ (∀ key w e, s.findLine p.slice p.line = some (key, w) → w.holdEnd = some e →
        ∃ t, exec (.probe i) s = .next t ∧ SameBut [.co] s t ∧ t.co.resps = s.co.resps
          ∧ t.co.probes = mapIf (· == p) (fun p => { p with arrived := true }) s.co.probes
          ∧ t.findLine p.slice p.line = some (key, { w with probed := true })
          ∧ nget 0 t.co.holdProbes p.slice = satInc (nget 0 s.co.holdProbes p.slice))
      ∧ (s.findLine p.slice p.line = none → s.findSiding p.slice p.line = none →
        let u := s.holdNot p.slice p.line
        exec (.probe i) s = .next { u with co := { u.co with
          probes := eraseFirst (· == p) s.co.probes
          resps := s.co.resps ++ [{ req := p.req, agent := p.agent, line := p.line, slice := p.slice, left := none, data := none
                                    dirty := false, poison := false }] } }))
    ∧ (∀ f key w, s.co.fwds = [f] → f.arrived = false → f.req.need = [] → s.co.grants = [] →
        s.earlierHit f.owner f.req.line = false → s.findLine f.owner f.req.line = some (key, w) → w.holdEnd = none →
      ∃ t g, exec (.forwardedRequest 0) s = .next t ∧ SameBut [.co, .cores] s t ∧ t.co.fwds = [] ∧ t.co.grants = [g]
        ∧ g.data = w.data ∧ g.poison = w.poison ∧ g.line = f.req.line ∧ g.slice = f.req.slice ∧ g.core = f.req.core
        ∧ g.acc = f.req.acc
        ∧ (f.req.kind = .ownFill → g.st = .M ∧ (only key w f.owner → t.findLine f.owner f.req.line = none))
        ∧ (f.req.kind ≠ .ownFill → g.st = .S
            ∧ t.findLine f.owner f.req.line = some (key, { w with st := if w.st.dirty then .O else .S })))
    ∧ (∀ i g a n, nth s.co.grants i = some g → (s.core g.core).acc g.acc = some a → s.findLine g.slice g.line = none →
        firstIf (fun n => !nhas s.co.lines (wayKey g.slice (setOf (64 * g.line)) n)) (List.range 16) = some n → g.poison = false →
        a.accepted = false →
      let key := wayKey g.slice (setOf (64 * g.line)) n
      let w : Line := { line := g.line, st := g.st, age := if g.age3 then 3 else 1, data := g.data }
      (g.kind = .readFill → a.kind = .load →
        ∃ t, exec (.lineGrant i) s = .next t ∧ SameBut [.co, .cores] s t ∧ t.co.grants = dropNth s.co.grants i
          ∧ t.findLine g.slice g.line = some (key, w)
          ∧ (t.core g.core).acc g.acc = some { a with
              stage := .served, got := (s.core g.core).overlay s.canonical a ((s.lineBytesOf a g.data).map some) })
      ∧ (g.kind = .ownFill → a.kind = .store →
        ∃ t, exec (.lineGrant i) s = .next t ∧ SameBut [.co, .cores] s t ∧ t.co.grants = dropNth s.co.grants i
          ∧ t.findLine g.slice g.line = some (key, { w with
              data := mergeData g.data (placeInLine a.inLine a.bytes)
              holdEnd := if s.co.hold = 0 then none else some (s.pw.now + s.co.hold.toNat) })
          ∧ (t.core g.core).acc g.acc = some { a with stage := .served } ∧ ∀ d, d ≠ g.core → (t.core d).l1Hit g.line = none))
    ∧ (∀ slice e, slice < 512 → firstIf (fun e => !e.issued) (s.siding slice) = some e →
      ∃ t, exec (.sidingIssue slice) s = .next t ∧ SameBut [.co] s t
        ∧ t.siding slice = mapIf (fun x => x.line == e.line) (fun e => { e with issued := true }) (s.siding slice)
        ∧ t.co.wbs = s.co.wbs ++ [{ slice := slice, line := e.line, agent := homeAgent (64 * e.line), poison := e.poison
                                    data := if e.st.dirty then some e.data else none }])
    ∧ (∀ i slice line, nth s.co.acks i = some (slice, line) → rising s.co.siding = true →
      (s.sought slice line = true → exec (.sidingRetire i) s = .next s)
      ∧ (s.sought slice line = false →
        ∃ t, exec (.sidingRetire i) s = .next t ∧ SameBut [.co, .cores] s t ∧ t.co.acks = dropNth s.co.acks i
          ∧ t.siding slice = eraseFirst (fun e => e.line == line) (s.siding slice)
          ∧ ∀ c a, dieOf c = slice / 32 → a ∈ (s.core c).accs → a.kind = .clean ∨ a.kind = .flush → a.stage = .atSlice →
              s.isLocal a.addr = true → localOf a.addr / 64 = line → (t.core c).acc a.id = none))
    ∧ (∀ slice line key w e, slice < 512 → s.findLine slice line = some (key, w) → w.holdEnd = some e →
      (s.pw.now < e → exec (.tabletHoldEnd slice line) s = .next s)
      ∧ (s.probeWaits slice line = true → s.waitingFor slice line ≠ [] → exec (.tabletHoldEnd slice line) s = .next s)
      ∧ (s.probeWaits slice line = false → e ≤ s.pw.now → w.predicted ≤ 1 →
        ∃ t, exec (.tabletHoldEnd slice line) s = .next t ∧ SameBut [.co] s t
          ∧ t.findLine slice line = some (key, { w with holdEnd := none, predicted := 0, probed := false })
          ∧ (w.predicted = 0 → t.co.pred = s.co.pred)
          ∧ (w.predicted = 1 → (t.predAt slice line).toNat
              = if w.probed then min 3 ((s.predAt slice line).toNat + 1) else (s.predAt slice line).toNat - 1)))

/-- BUNDLE_EXECUTE (05 R132-R162). -/
def Obligations.BundlesExecute : Prop :=
  (∀ (s : State) (c : Nat), s.pw.perst = true → c < 25600 → (s.core c).parkFilled = 0 → s.mayExecute c = false →
    exec (.bundleExecute c false .clean .clean) s = .next s)
  ∧ ∀ (s : State) (c : Nat) (b : BitVec 128), AtBundle s c b →
    let k := s.core c
    let ms := passing k b
    let v := plainValue k b
    (∀ slot, bundleFault b = some slot →
      ∃ t, exec (.bundleExecute c false .clean .clean) s = .next t ∧ OnlyCore c s t ∧ (t.core c).gpr = k.gpr ∧ (t.core c).ports = k.ports
        ∧ (t.core c).pc = k.pc ∧ (t.core c).ops = k.ops ∧ (t.core c).accs = k.accs
        ∧ (t.core c).due = k.due ++ [{ code := 1, resume := some k.pc.toNat, slot := slot }])
    ∧ (bundleFault b = none → (ms.filter fun m => isFlow m.dst).length ≤ 1 → (∃ m, m ∈ ms ∧ k.srcWaits m.src = true) →
      ∃ t, exec (.bundleExecute c false .clean .clean) s = .next t ∧ OnlyCore c s t ∧ (t.core c).gpr = k.gpr ∧ (t.core c).ports = k.ports
        ∧ (t.core c).pc = k.pc ∧ (t.core c).ops = k.ops ∧ (t.core c).due = k.due ∧ (t.core c).waiting = true
        ∧ (t.core c).perfWaits = satInc k.perfWaits)
    ∧ (bundleFault b = none → k.ops = [] →
      ((∀ m, m ∈ ms → m.src ≤ 0x07F ∧ m.dst < 0x040) → (ms.map Move.dst).Nodup →
        ∃ t, exec (.bundleExecute c false .clean .clean) s = .next t ∧ OnlyCore c s t ∧ (∀ m, m ∈ ms → nget 0 (t.core c).gpr m.dst = v m)
          ∧ (∀ r, r ∉ ms.map Move.dst → nget 0 (t.core c).gpr r = nget 0 k.gpr r) ∧ (t.core c).pc = k.pc + 1
          ∧ (t.core c).preds = k.preds ∧ (t.core c).ports = k.ports ∧ (t.core c).pennant = k.pennant ∧ (t.core c).ops = []
          ∧ (t.core c).due = k.due ∧ (t.core c).level = k.level ∧ (t.core c).perfBundles = satInc k.perfBundles)
      ∧ (∀ m, ms = [m] → m.src ≤ 0x07F →
        (m.dst = 0x180 ∨ m.dst = 0x181 ∨ m.dst = 0x182 ∨ m.dst = 0x183 ∨ m.dst = 0x184 →
          ∃ t, exec (.bundleExecute c false .clean .clean) s = .next t ∧ OnlyCore c s t
            ∧ (t.core c).pc = (if m.dst = 0x184 then (nget 0 k.gpr 61).setWidth 11
                else if m.dst % 2 = 0 then (v m).setWidth 11 else k.pc + (v m).setWidth 11)
            ∧ nget 0 (t.core c).gpr 61 = (if m.dst = 0x182 ∨ m.dst = 0x183 then BitVec.ofNat 64 (k.pc.toNat + 1) else nget 0 k.gpr 61)
            ∧ (∀ r, r ≠ 61 → nget 0 (t.core c).gpr r = nget 0 k.gpr r) ∧ (t.core c).ports = k.ports ∧ (t.core c).ops = [])
        ∧ (inRange 0x090 0x0AC m.dst = true ∨ inRange 0x0D0 0x0EC m.dst = true ∨ inRange 0x110 0x113 m.dst = true →
          ∃ t, exec (.bundleExecute c false .clean .clean) s = .next t ∧ OnlyCore c s t ∧ (t.core c).pc = k.pc + 1
            ∧ (t.core c).ops = [{ id := k.nextId, port := m.dst, bundle := k.pc.toNat, b := v m, cap := k.capture m.dst }]
            ∧ (∀ p, p ∈ resultPorts m.dst [] → nget 0 (t.core c).portLast p = k.nextId) ∧ (t.core c).gpr = k.gpr
            ∧ (t.core c).ports = k.ports)
        ∧ (m.dst = 0x173 →
          let ea := (nget 0 k.ports 0x140 + v m).toNat % 2 ^ 56
          (ea % 8 = 0 → s.isLocal ea = true → decodeLocal (localOf ea) ≠ .unmapped → scalarRefused 0x173 (localOf ea) 8 = false →
            ∃ t, exec (.bundleExecute c false .clean .clean) s = .next t ∧ OnlyCore c s t ∧ (t.core c).pc = k.pc + 1
              ∧ (t.core c).accs = k.accs ++ [{ id := k.nextId + 1, op := k.nextId, kind := .store, addr := ea, bytes := (toBytes 8 (nget 0 k.ports 0x141).toNat).map some }]
              ∧ (t.core c).gpr = k.gpr ∧ (t.core c).due = k.due)
          ∧ (ea % 8 ≠ 0 ∨ (s.isLocal ea = true ∧ decodeLocal (localOf ea) = .unmapped) →
            ∃ t, exec (.bundleExecute c false .clean .clean) s = .next t ∧ OnlyCore c s t ∧ (t.core c).pc = k.pc ∧ (t.core c).accs = k.accs
              ∧ (t.core c).ops = [] ∧ (t.core c).gpr = k.gpr
              ∧ (t.core c).due = k.due ++ [{ code := (if ea % 8 ≠ 0 ∧ memoryLike ea = true ∧ scalarRefused 0x173 (localOf ea) 1 = false then 2 else 3), resume := some k.pc.toNat, addr := ea, slot := m.slot }]))))

/-- SCALAR_OP_COMPLETE, MEMORY_RESPONSE, STORE_ACCEPTED, FENCE_COMPLETE, CP_TIMER_CMP_WRITE,
CORE_TIMER, GUEST_ACK, GUEST_TIMEOUT and GUEST_LOGIC_INTERRUPT (05 R151-R168, 06 Table 6.1). -/
def Obligations.UnitsAccessesAndGuest : Prop :=
  ∀ (s : State) (c : Nat), s.pw.perst = true → c < 25600 →
    let k := s.core c
    (∀ unit o, unit < 3 → k.oldest (fun o => scalarUnit o.port == some unit) = some o →
      ∃ t, exec (.scalarOpComplete c unit) s = .next t ∧ OnlyCore c s t ∧ (t.core c).opOf o.id = none ∧ (t.core c).gpr = k.gpr
        ∧ (t.core c).pc = k.pc ∧ (t.core c).pennant = k.pennant ||| o.scalar.2
        ∧ (unit < 2 →
          let base := if unit = 0 then 0x080 else 0x0C0
          let a := o.operand base
          (∀ p, p ≠ base + 2 → nget 0 (t.core c).ports p = nget 0 k.ports p)
          ∧ (nget o.id k.portLast (base + 2) = o.id →
            let r := nget 0 (t.core c).ports (base + 2)
            (o.port = base + 0x10 → r = a + o.b ∧ (bit o.scalar.2 9 = true ↔ (a + o.b).toInt ≠ a.toInt + o.b.toInt))
            ∧ (o.port = base + 0x11 → r = a - o.b ∧ (bit o.scalar.2 9 = true ↔ (a - o.b).toInt ≠ a.toInt - o.b.toInt))
            ∧ (o.port = base + 0x17 → r = a &&& ~~~o.b) ∧ (o.port = base + 0x18 → r = a <<< (o.b.toNat % 64))
            ∧ (o.port = base + 0x1A → r = a.sshiftRight (o.b.toNat % 64)) ∧ (o.port = base + 0x1B → r = a.rotateLeft (o.b.toNat % 64))
            ∧ (o.port = base + 0x1E → r = if a.toInt < o.b.toInt then 1 else 0)
            ∧ (o.port = base + 0x25 → r.toNat = max a.toNat o.b.toNat)
            ∧ (o.port = base + 0x26 → r = if o.operand (base + 1) ≠ 0 then a else o.b)))
        ∧ (unit = 2 → nget o.id k.portLast 0x102 = o.id → nget o.id k.portLast 0x103 = o.id →
          let a := o.operand 0x100
          let r := nget 0 (t.core c).ports 0x102
          let h := nget 0 (t.core c).ports 0x103
          (o.port = 0x110 → (h.toInt * 2 ^ 64 + r.toNat : Int) = a.toInt * o.b.toInt)
          ∧ (o.port = 0x111 → h.toNat * 2 ^ 64 + r.toNat = a.toNat * o.b.toNat)
          ∧ (o.port = 0x112 ∨ o.port = 0x113 → o.b = 0 → r = BitVec.allOnes 64 ∧ h = a ∧ bit o.scalar.2 8 = true)
          ∧ (o.port = 0x113 → o.b ≠ 0 → r.toNat = a.toNat / o.b.toNat ∧ h.toNat = a.toNat % o.b.toNat)))
    ∧ (∀ id a o off, Free s c id a → s.isLocal a.addr = true → decodeLocal (localOf a.addr) = .yard c off → k.opOf a.op = some o →
        (∀ w, w ∈ wordsOf (localOf a.addr) a.bytes.length → s.yardWordBad w = false) →
      (a.kind = .load → isLoadPort o.port = true → a.status = .ok → nget o.id k.portLast (0x144 + (o.port - 0x150) / 8) = o.id →
        let was := (List.range a.bytes.length).map fun i => some (s.byteAt (localOf a.addr + i))
        ∃ t, exec (.memoryResponse c id [] .clean) s = .next t ∧ OnlyCore c s t ∧ (t.core c).acc id = none
          ∧ (t.core c).opOf o.id = none
          ∧ nget 0 (t.core c).ports (0x144 + (o.port - 0x150) / 8) = loadValue o.port (gotBytes (k.overlay s.canonical a was)))
      ∧ (∀ bs, a.kind = .store → isStorePort o.port = true → a.status = .ok → a.bytes = bs.map some → s.mem.wf = true →
        ∃ t, exec (.storeAccepted c id .clean) s = .next t ∧ SameBut [.mem, .cores] s t ∧ Stored s t (localOf a.addr) bs
          ∧ (t.core c).acc id = none ∧ (t.core c).opOf o.id = none ∧ (t.core c).gpr = k.gpr))
    ∧ (∀ o, k.oldest (fun o => isFence o.port && k.fenced o.id (o.port != 0x780)) = some o →
      ∃ t, exec (.fenceComplete c) s = .next t ∧ OnlyCore c s t ∧ (t.core c).opOf o.id = none ∧ (t.core c).gpr = k.gpr
        ∧ (t.core c).accs = k.accs.filter fun a => a.op != o.id)
    ∧ (∀ v, ∃ t, exec (.cpTimerCmpWrite c v) s = .next t ∧ OnlyCore c s t ∧ (t.core c).timerCmp = v
        ∧ (t.core c).intPending = (if s.tb.now < v then k.intPending &&& ~~~2 else k.intPending))
    ∧ (s.tb.now < k.timerCmp → exec (.coreTimer c) s = .next s)
    ∧ (k.timerCmp ≤ s.tb.now → exec (.coreTimer c) s = .next (s.modCore c fun k => { k with intPending := k.intPending ||| 2 }))
    ∧ (∀ g m rest, s.running c = true → k.guest = some g → g.moves = m :: rest →
      let net := s.guestNow c g
      let inTime := s.pw.now < g.since + k.guestLimit
      (¬inTime → exec (.guestAck c) s = .next s)
      ∧ (inTime → bit net.value 959 ≠ g.req → exec (.guestAck c) s = .next { s with free := s.free + 1 })
      ∧ (inTime → g.req = true → bit net.value 959 = true → ∃ t, exec (.guestAck c) s = .next t ∧ SameBut [.cores, .free] s t
          ∧ (m.2.2.isSome = true → (t.core c).guest = some { g with req := false, since := s.pw.now })
          ∧ (m.2.2 = none → ∃ h, (t.core c).guest = some h ∧ h.req = false ∧ h.since = s.pw.now
              ∧ h.results = g.results ++ [(m.1, net.value.extractLsb' 960 64)]))
      ∧ (inTime → g.req = false → bit net.value 959 = false → ∃ t, exec (.guestAck c) s = .next t ∧ SameBut [.cores, .free] s t
          ∧ (rest = [] → (t.core c).guest = some { g with moves := [], req := false })
          ∧ (rest ≠ [] → (t.core c).guest = some { g with moves := rest, req := true, since := s.pw.now }))
      ∧ (inTime → exec (.guestTimeout c) s = .next s)
      ∧ (¬inTime →
        ∃ t, exec (.guestTimeout c) s = .next t ∧ SameBut [.cores, .free] s t ∧ (t.core c).guest = none ∧ (t.core c).waiting = false
          ∧ (t.core c).guestTimeouts = satInc k.guestTimeouts ∧ (t.core c).gpr = k.gpr ∧ (t.core c).pc = k.pc
          ∧ (t.core c).due = k.due ++ [{ code := 4, resume := some k.pc.toNat, addr := m.2.1, slot := m.1 }]))
    ∧ (k.guest = none → (s.region (regionOf c)).st = .running →
      ∃ t, exec (.guestLogicInterrupt c) s = .next t ∧ SameBut [.cores, .free] s t
        ∧ (t.core c).intPending = (if bit (k.guestNet { edge := k.guestEdges, n := s.free }).value 958 then k.intPending ||| 8 else k.intPending &&& ~~~8))
    ∧ ((s.region (regionOf c)).st = .parkedIsolated →
      ∃ t, exec (.guestLogicInterrupt c) s = .next t ∧ SameBut [.cores, .free] s t ∧ (t.core c).intPending = k.intPending &&& ~~~8)

/-- EXCEPTION_ENTRY and INTERRUPT_ENTRY, and RETI (06 R186-R213). -/
def Obligations.EntriesAndReturn : Prop :=
  ∀ (s : State) (c : Nat), s.pw.perst = true → c < 25600 → (s.core c).parkFilled = 0 → s.mem.wf = true →
    let k := s.core c
    let frame := fun (addr : Nat) (cause : Nat) =>
      ([k.pc.setWidth 64, BitVec.ofNat 64 cause, BitVec.ofNat 64 (addr % 2 ^ 56), 0, 0, (k.preds &&& 0xFE).setWidth 64, k.pennant.setWidth 64
        , nget 0 k.gpr 62] ++ (List.range 8).map (nget 0 k.gpr)).flatMap fun w => toBytes 8 w.toNat
    let level := 2 ^ 16 * (match k.level with | some l => l | none => 4)
    let kept := fun (t : State) =>
      SameBut [.mem, .cores, .yardBad] s t ∧ (∀ d, d ≠ c → t.core d = s.core d) ∧ (t.core c).preds = k.preds
        ∧ (t.core c).pennant = k.pennant ∧ (t.core c).ports = k.ports ∧ (t.core c).ops = k.ops
    let sent := fun (t : State) (off : Nat) (bs : List Byte) =>
      (s.frameBusy c off 128 = false → Stored s t (yardBase c + off) bs ∧ (t.core c).accs = k.accs)
      ∧ (s.frameBusy c off 128 = true → t.mem = s.mem ∧ ∃ new, (t.core c).accs = k.accs ++ new
          ∧ (∀ x, x ∈ new → x.kind = .store ∧ x.stage = .issued ∧ x.accepted = false)
          ∧ new.flatMap (fun x => x.bytes.zip ((List.range 64).map fun i => x.addr + i))
              = (bs.map some).zip ((List.range 128).map fun i => s.yardGlobal c + off + i))
    let below := localOf k.sp - 128 - yardBase c
    (s.atBoundary c = true → k.level.getD 4 < 8 →
      (∀ d, k.waiting = false → k.nextDue = some d → d.filled = 0 → d.code < 256 → d.slot < 4 → d.code ≠ 5 → d.origOnly = false →
        (s.stackOk c = true →
          ∃ t, exec (.exceptionEntry c) s = .next t ∧ kept t ∧ (t.core c).due = k.due.erase d
            ∧ sent t below (frame d.addr (d.code + level + 2 ^ 20 * d.slot))
            ∧ nget 0 (t.core c).gpr 62 = nget 0 k.gpr 62 - 128 ∧ (∀ r, r ≠ 62 → nget 0 (t.core c).gpr r = nget 0 k.gpr r)
            ∧ (t.core c).pc = BitVec.ofNat 11 (k.vectorBase.cur.toNat + d.code) ∧ (t.core c).level = k.level
            ∧ (t.core c).shadow = k.shadow)
        ∧ (s.stackOk c = false → k.shadow = false →
          ∃ t, exec (.exceptionEntry c) s = .next t ∧ kept t ∧ (t.core c).due = k.due.erase d
            ∧ sent t 0x1_FF00 (frame d.addr (5 + level + 2 ^ 20 * d.slot + 2 ^ 23 + 2 ^ 24 * d.code))
            ∧ (t.core c).gpr = k.gpr ∧ (t.core c).pc = BitVec.ofNat 11 (k.vectorBase.cur.toNat + 5) ∧ (t.core c).level = some 3
            ∧ (t.core c).shadow = true)
        ∧ (s.stackOk c = false → k.shadow = true → LogRoom s → (∀ e, (s.core e).accs = []) →
            (∀ i w, w ∈ (s.sem i).queue → w.pkg = none) →
          ∃ t, exec (.exceptionEntry c) s = .next t ∧ Logged s t 6 ∧ (t.region (regionOf c)).st = .red ∧ t.running c = false
            ∧ t.mem = s.mem))
      ∧ (∀ i p, k.dueBlocks = false → k.chosen k.level = some (i, p) → k.promptMode i = false → k.waiting = false →
          k.longBusy = false → s.stackOk c = true → ∀ prog,
        ∃ t, exec (.interruptEntry c prog) s = .next t ∧ kept t
          ∧ sent t below (frame 0 (0x20 + i + level))
          ∧ nget 0 (t.core c).gpr 62 = nget 0 k.gpr 62 - 128 ∧ (∀ r, r ≠ 62 → nget 0 (t.core c).gpr r = nget 0 k.gpr r)
          ∧ (t.core c).pc = BitVec.ofNat 11 (k.vectorBase.cur.toNat + 16 + i) ∧ (t.core c).level = some p
          ∧ (t.core c).intPending = (if isEdge i then k.intPending &&& ~~~BitVec.ofNat 32 (2 ^ i) else k.intPending))
      ∧ (k.chosen k.level = none → ∀ prog, exec (.interruptEntry c prog) s = .next s)
      ∧ (∀ i p, k.dueBlocks = true → k.chosen k.level = some (i, p) → ∀ prog, exec (.interruptEntry c prog) s
          = .next (if k.promptMode i then s.setCore c { k with waiting := false, ctl := [] } else s)))
    ∧ (∀ i p, k.chosen k.level = some (i, p) →
        i < 7 ∧ k.wants i = true ∧ p = k.priority i ∧ (∀ l, k.level = some l → l < p)
        ∧ ∀ j, j < 7 → k.wants j = true → k.priority j ≤ p ∧ (k.priority j = p → i ≤ j))
    ∧ (s.frameOk c = true → (∀ w, w ∈ wordsOf (localOf k.sp) 128 → s.yardWordBad w = false) →
        let w := fun i => (nth (s.frameWords c) i).getD 0
        k.chosen (prevLevel (w 1)) = none → bits (w 3) 63 60 = 0 →
      ∃ t, s.reti c = .done t ∧ OnlyCore c s t ∧ (t.core c).pc = (w 0).setWidth 11 ∧ (t.core c).level = prevLevel (w 1)
        ∧ (t.core c).preds = (w 5).setWidth 8 &&& 0xFE ∧ (t.core c).pennant = k.pennant ∧ nget 0 (t.core c).gpr 62 = w 7
        ∧ (∀ i, i < 8 → nget 0 (t.core c).gpr i = w (8 + i))
        ∧ (∀ r, 8 ≤ r → r ≠ 62 → nget 0 (t.core c).gpr r = nget 0 k.gpr r)
        ∧ (localOf k.sp = yardBase c + 0x1_FF00 → (t.core c).shadow = false)
        ∧ (localOf k.sp ≠ yardBase c + 0x1_FF00 → (t.core c).shadow = k.shadow))

/-- VECTOR_OP_COMPLETE and CONVERT_COMPLETE (07 R236-R242, 08 R244-R256, 09 R278-R281). -/
def Obligations.VectorAndConversionResults : Prop :=
  ∀ (s : State) (c : Nat), s.pw.perst = true → c < 25600 →
    let k := s.core c
    (∀ o, k.oldest (isUnit .vec) = some o →
      let v := o.vec
      (k.vecReady o = false → (o.stage = .queued → o.maskWaits k = true) →
        ∃ t, exec (.vectorOpComplete c) s = .next t ∧ OnlyCore c s t ∧ t.core c = k)
      ∧ (o.stage = .queued → o.maskWaits k = false →
        let p := { o with stage := .running }
        ∃ t, exec (.vectorOpComplete c) s = .next t ∧ OnlyCore c s t ∧ (t.core c).vreg = k.vreg ∧ (t.core c).ports = k.ports
          ∧ ((k.vecAccesses p).2 = none → (t.core c).opOf o.id = some p ∧ (t.core c).due = k.due))
      ∧ (k.vecReady o = true → o.limit = none → o.index = 0 → o.pos = 0 →
        (o.port = 0x218 ∨ o.port = 0x219 ∨ o.port = 0x21A → v.code = 0xE →
          let value := fun i =>
            let x := k.elem v.src1 32 i
            let y := if v.scalar2 then v.scalar.toNat % 2 ^ 32 else k.elem v.src2 32 i
            (if o.port = 0x218 then x + y else if o.port = 0x219 then x + 2 ^ 32 - y else x * y) % 2 ^ 32
          ∃ t, exec (.vectorOpComplete c) s = .next t ∧ OnlyCore c s t ∧ (t.core c).opOf o.id = none
            ∧ (∀ i, i < v.vl → (t.core c).elem v.dst 32 i
                = if k.laneOn v i then value i else if v.mzero then 0 else k.elem v.dst 32 i)
            ∧ (∀ i, v.vl ≤ i → (t.core c).elem v.dst 32 i = k.elem v.dst 32 i)
            ∧ (∀ r, r ≠ v.dst → (t.core c).vregOf r = k.vregOf r) ∧ (t.core c).mreg = k.mreg ∧ (t.core c).pennant = k.pennant
            ∧ (t.core c).due = k.due ∧ (t.core c).lanes = k.lanes
            ∧ (nget o.id k.portLast 0x209 = o.id → (nget 0 (t.core c).ports 0x209).toNat
                = sumBy (fun i => if k.laneOn v i || v.mzero then 1 else 0) (List.range v.vl)))
        ∧ (o.port = 0x238 ∨ o.port = 0x239 ∨ o.port = 0x23A ∨ o.port = 0x23B →
          ∃ t, exec (.vectorOpComplete c) s = .next t ∧ OnlyCore c s t ∧ (t.core c).opOf o.id = none
            ∧ (∀ i, i < 1024 → (t.core c).maskBit (v.dst % 8) i =
                (let a := k.maskBit (v.src1 % 8) i
                 let b := k.maskBit (v.src2 % 8) i
                 if o.port = 0x238 then a && b else if o.port = 0x239 then a || b else if o.port = 0x23A then a != b else !a))
            ∧ (∀ r, r ≠ v.dst % 8 → (t.core c).mregOf r = k.mregOf r) ∧ (t.core c).vreg = k.vreg
            ∧ (nget o.id k.portLast 0x209 = o.id → nget 0 (t.core c).ports 0x209 = 1024))
        ∧ (o.port = 0x340 → v.code = 0xE → o.leaves = [] → nget o.id k.portLast 0x350 = o.id →
          ∃ t, exec (.vectorOpComplete c) s = .next t ∧ OnlyCore c s t ∧ (t.core c).opOf o.id = none ∧ (t.core c).vreg = k.vreg
            ∧ (t.core c).mreg = k.mreg ∧ (t.core c).pennant = k.pennant
            ∧ nget 0 (t.core c).ports 0x350 = BitVec.ofInt 64 (((List.range v.vl).filter fun i => k.laneOn v i).foldl
                (fun a i => a + sval 32 (k.elem v.src1 32 i)) 0))))
    ∧ (∀ o, k.oldest (isUnit .cv) = some o →
      let v := k.cvOf o
      (k.regBusy o.id o.regSets.1 o.regSets.2 = true →
        ∃ t, exec (.convertComplete c) s = .next t ∧ OnlyCore c s t ∧ t.core c = k)
      ∧ (k.regBusy o.id o.regSets.1 o.regSets.2 = false → o.port = 0x610 → o.index = 0 → v.sc = 0xC → v.k = 0 → v.men = false →
          v.dc = 0xC ∨ v.dc = 0xD → nget o.id k.portLast 0x608 = o.id →
        let w := if v.dc = 0xC then 8 else 4
        let top : Int := if v.dc = 0xC then 127 else 7
        let x := fun i => v.from_.toNat / 2 ^ (8 * i) % 2 ^ 8
        (∀ i, o.held = none → i < 1024 → x i = k.elem v.src 8 i) ∧ ∃ t, exec (.convertComplete c) s = .next t ∧ OnlyCore c s t ∧ (t.core c).opOf o.id = none
          ∧ (∀ i, i < v.count → (t.core c).elem v.dst w i = uval w (max (-top - 1) (min top (sval 8 (x i)))))
          ∧ (∀ i, v.count ≤ i → (t.core c).elem v.dst w i = k.elem v.dst w i)
          ∧ (∀ r, r ≠ v.dst → (t.core c).vregOf r = k.vregOf r) ∧ (t.core c).due = k.due
          ∧ nget 0 (t.core c).ports 0x608 = BitVec.ofNat 64 v.count))

/-- INTERVAL_STEP, TRAIN_HEADER, MATRIX_OP_COMPLETE and TMOVE_COMPLETE (10 R299-R329). -/
def Obligations.MatrixAndMoverResults : Prop :=
  ∀ (s : State) (c : Nat), s.pw.perst = true → c < 25600 →
    let k := s.core c
    (∀ o, k.oldest (isUnit .mx) = some o → k.opOf o.id = some o →
      let x := o.tileAt 0
      let y := o.tileAt 1
      let l := o.ladder
      let cells := l.cellsAt o.index
      let base := yardBase c
      (o.port = 0x410 → x.fmt = 0xC → y.fmt = 0xC → l.fmt = 0xE → x.src = 0 → y.src = 0 → y.cols = x.cols → o.pass.testBit 2 = true →
          o.occ = 0 → 1 ≤ l.depth → bits o.b 18 16 = 0 → o.index < o.mxPositions → 8 * o.pos < x.cols → s.mxWaits c o = false →
          4 * l.cols ≤ l.pitch → s.mem.wf = true → (∀ w, w % 8 = 0 → w < 0x2_0000 → s.yardWordBad (base + w) = false) →
          (∀ i j, i ∈ cells.1 → j ∈ cells.2 → l.levelOff 0 i j + 4 ≤ 0x2_0000 ∧ x.base + i * x.pitch + x.cols ≤ 0x2_0000
            ∧ y.base + j * y.pitch + x.cols ≤ 0x2_0000) →
        let int8 := fun a => sval 8 (s.byteAt a).toNat
        let sum := fun i j => (List.range (min 8 (x.cols - 8 * o.pos))).foldl
          (fun z e => z + int8 (base + x.base + i * x.pitch + 8 * o.pos + e) * int8 (base + y.base + j * y.pitch + 8 * o.pos + e)) 0
        ∃ t, exec (.intervalStep c .clean) s = .next t ∧ SameBut [.mem, .cores] s t ∧ (∀ d, d ≠ c → t.core d = s.core d)
          ∧ (∀ i j n, i ∈ cells.1 → j ∈ cells.2 → n < 4 →
              some (t.byteAt (base + l.levelOff 0 i j + n)) = (toBytes 4 (uval 32 (sum i j)))[n]?)
          ∧ (∀ a, (∀ i j, i ∈ cells.1 → j ∈ cells.2 → a < base + l.levelOff 0 i j ∨ base + l.levelOff 0 i j + 4 ≤ a) → t.byteAt a = s.byteAt a)
          ∧ (t.core c).pennant = k.pennant
          ∧ ∃ p, (t.core c).opOf o.id = some p
            ∧ (o.pos + 1 = o.mxPer → p.index = o.index + 1 ∧ p.pos = 0) ∧ (o.pos + 1 ≠ o.mxPer → p.index = o.index ∧ p.pos = o.pos + 1 ∧ p.occ = 1))
      ∧ (o.port = 0x410 → x.src = 1 → y.src ≠ 1 → o.pass.testBit 0 = false → ∀ rows cols fmt lrows lcols rest,
          k.trainIn = .header false rows cols fmt lrows lcols :: rest →
        (rows = x.rows ∧ cols = x.cols ∧ fmt = x.fmt ∧ lrows = l.rows ∧ lcols = l.cols →
          ∃ t, exec (.trainHeader c) s = .next t ∧ OnlyCore c s t ∧ (t.core c).trainIn = rest
            ∧ (t.core c).opOf o.id = some { o with pass := o.pass + 1 } ∧ (t.core c).trainMismatch = k.trainMismatch)
        ∧ (¬(rows = x.rows ∧ cols = x.cols ∧ fmt = x.fmt ∧ lrows = l.rows ∧ lcols = l.cols) → k.ops.filter (isUnit .mx) = [o] →
            k.slotMx = none →
          ∃ t, exec (.trainHeader c) s = .next t ∧ OnlyCore c s t ∧ (t.core c).trainMismatch = true ∧ (t.core c).opOf o.id = none
            ∧ (t.core c).slotMx = some o ∧ ∃ d, (t.core c).due.getLast? = some d ∧ d.code = 3 ∧ d.waitOp = some o.id ∧ d.filled = 2))
      ∧ (s.mxWaits c o = false → o.port = 0x410 → o.mxPositions ≤ o.index →
        let p := k.mxBegin o
        p.res.toNat + p.mxPer < 2 ^ 24 →
        ∃ t, exec (.matrixOpComplete c .clean) s = .next t ∧ OnlyCore c s t ∧ (t.core c).opOf o.id = none
          ∧ (o.pass.testBit 2 = true → p = o) ∧ (o.pass.testBit 2 = false → p.res.toNat = (k.tile (bits o.b 11 8)).count)
          ∧ ((t.core c).tile (bits o.b 11 8)).count = p.res.toNat + p.mxPer
          ∧ (p.res2 = 0 → p.ladder.depth ≤ 16 → p.mxPer ≤ 2 ^ p.ladder.depth → ((t.core c).tile (bits o.b 11 8)).occ = p.mxPer
              ∧ ((t.core c).tile (bits o.b 11 8)).fold = false)
          ∧ (∀ d, d < 16 → d ≠ bits o.b 11 8 → (t.core c).tile d = k.tile d)
          ∧ nget 0 (t.core c).ports 0x402 = BitVec.ofNat 64 p.committed)
      ∧ (s.mxWaits c o = false → o.port = 0x413 → o.index = 0 → o.pos = 0 →
        ∃ t, exec (.matrixOpComplete c .clean) s = .next t ∧ OnlyCore c s t ∧ (t.core c).opOf o.id = none
          ∧ ((t.core c).tile (bits o.b 3 0)).occ = 0 ∧ ((t.core c).tile (bits o.b 3 0)).count = 0
          ∧ ((t.core c).tile (bits o.b 3 0)).fold = false ∧ nget 0 (t.core c).ports 0x402 = 0)
      ∧ (s.mxWaits c o = true → exec (.matrixOpComplete c .clean) s = .next s))
    ∧ (∀ o, k.oldest (isUnit .mv) = some o →
      (o.mvRows ≤ o.index → k.accsDone o.id = true →
        ∃ t, exec (.tmoveComplete c) s = .next t ∧ OnlyCore c s t ∧ (t.core c).opOf o.id = none
          ∧ nget 0 (t.core c).ports 0x429 = BitVec.ofNat 64 o.mvRows ∧ (t.core c).carriedDue = k.carriedDue ++ o.carry.toList)
      ∧ (o.index < o.mvRows → o.mvBytes ≠ 0 →
        ∃ t, exec (.tmoveComplete c) s = .next t ∧ OnlyCore c s t ∧ t.core c = k))

/-- A step takes the command at the front of the queue; an idle step is the model's choice
(log 2). -/
def Obligations.StepRunsFront : Prop :=
  (∀ (s : State) (i : Instr) (rest : List Instr), s.pending = i :: rest → step s = exec i { s with pending := rest })
  ∧ (∀ s : State, s.pending = [] → step s = .next s)
  ∧ ∀ (i : Instr) (s : State),
    (i.WellFormed = true → Goes (exec i s)) ∧ (i.WellFormed = false → exec i s = .fault .noSuchUnit)

/-- What reaches a device held in reset (19 R546, R553, R571). -/
def Obligations.HeldInReset : Prop :=
  ∀ (i : Instr) (s : State), s.pw.perst = false → i.WellFormed = true →
    (reachesReset i = false → exec i s = .next s)
    ∧ (reachesReset i = true → i ≠ .perstNAssert → (∀ b p r f, i ≠ .perstNRise b p r f) →
      ∃ t, exec i s = .next t ∧ SameBut [.pw, .ra, .sd, .out] s t)

/-- Every step keeps `Memory.wf`. -/
def Obligations.MemoryStaysCanonical : Prop :=
  ∀ s t : State, s.mem.wf = true → step s = .next t → t.mem.wf = true

/-- The canonical form at reset, and undefined contents (04 R580). -/
def Obligations.ResetMemoryCanonical : Prop :=
  State.reset.mem.wf = true ∧ ∀ a, State.reset.mem.read a = none

end
end

