-- ==== Sys2Proof/Laws/State.lean ====
section
/-!
SUPPORT. One lemma for each part of the state that a single update leaves alone, and
what an update of a table reads back as.
-/
namespace Sys2Proof.Machine

/-! ## Tables -/

@[simp] theorem nget_nset_same {α : Type} (d : α) (m : NMap α) (k : Nat) (v : α) : nget d (nset k v m) k = v := by
  induction m with
  | nil => simp [nset, nget]
  | cons p t ih =>
    obtain ⟨a, w⟩ := p
    unfold nset
    split
    · simp [nget]
    · split
      · simp [nget]
      · simp [nget, *]

theorem nget_nset_other {α : Type} (d : α) (m : NMap α) (k j : Nat) (v : α) (h : j ≠ k) :
    nget d (nset k v m) j = nget d m j := by
  induction m with
  | nil => simp [nset, nget, Ne.symm h]
  | cons p t ih =>
    obtain ⟨a, w⟩ := p
    unfold nset
    split
    · simp [nget, Ne.symm h]
    · split
      · subst_vars; simp [nget, Ne.symm h]
      · simp only [nget, ih]

@[simp] theorem nfind_nset_same {α : Type} (m : NMap α) (k : Nat) (v : α) : nfind (nset k v m) k = some v := by
  induction m with
  | nil => simp [nset, nfind]
  | cons p t ih =>
    obtain ⟨a, w⟩ := p
    unfold nset
    split
    · simp [nfind]
    · split
      · simp [nfind]
      · simp [nfind, *]

/-! ## Parts of the state -/

@[simp] theorem State.setCore_pending (s : State) (c : Nat) (k : Core) : (s.setCore c k).pending = s.pending := rfl
@[simp] theorem State.setCore_out (s : State) (c : Nat) (k : Core) : (s.setCore c k).out = s.out := rfl
@[simp] theorem State.setCore_free (s : State) (c : Nat) (k : Core) : (s.setCore c k).free = s.free := rfl
@[simp] theorem State.setCore_pw (s : State) (c : Nat) (k : Core) : (s.setCore c k).pw = s.pw := rfl
@[simp] theorem State.setCore_mem (s : State) (c : Nat) (k : Core) : (s.setCore c k).mem = s.mem := rfl
@[simp] theorem State.setCore_memEpoch (s : State) (c : Nat) (k : Core) : (s.setCore c k).memEpoch = s.memEpoch := rfl
@[simp] theorem State.setCore_yardBad (s : State) (c : Nat) (k : Core) : (s.setCore c k).yardBad = s.yardBad := rfl
@[simp] theorem State.setCore_poison (s : State) (c : Nat) (k : Core) : (s.setCore c k).poison = s.poison := rfl
@[simp] theorem State.setCore_tb (s : State) (c : Nat) (k : Core) : (s.setCore c k).tb = s.tb := rfl
@[simp] theorem State.setCore_ra (s : State) (c : Nat) (k : Core) : (s.setCore c k).ra = s.ra := rfl
@[simp] theorem State.setCore_cc (s : State) (c : Nat) (k : Core) : (s.setCore c k).cc = s.cc := rfl
@[simp] theorem State.setCore_pkg (s : State) (c : Nat) (k : Core) : (s.setCore c k).pkg = s.pkg := rfl
@[simp] theorem State.setCore_aliasEn (s : State) (c : Nat) (k : Core) : (s.setCore c k).aliasEn = s.aliasEn := rfl
@[simp] theorem State.setCore_regions (s : State) (c : Nat) (k : Core) : (s.setCore c k).regions = s.regions := rfl
@[simp] theorem State.setCore_co (s : State) (c : Nat) (k : Core) : (s.setCore c k).co = s.co := rfl
@[simp] theorem State.setCore_sems (s : State) (c : Nat) (k : Core) : (s.setCore c k).sems = s.sems := rfl
@[simp] theorem State.setCore_semDies (s : State) (c : Nat) (k : Core) : (s.setCore c k).semDies = s.semDies := rfl
@[simp] theorem State.setCore_dx (s : State) (c : Nat) (k : Core) : (s.setCore c k).dx = s.dx := rfl
@[simp] theorem State.setCore_sb (s : State) (c : Nat) (k : Core) : (s.setCore c k).sb = s.sb := rfl
@[simp] theorem State.setCore_tf (s : State) (c : Nat) (k : Core) : (s.setCore c k).tf = s.tf := rfl
@[simp] theorem State.setCore_hi (s : State) (c : Nat) (k : Core) : (s.setCore c k).hi = s.hi := rfl
@[simp] theorem State.setCore_queues (s : State) (c : Nat) (k : Core) : (s.setCore c k).queues = s.queues := rfl
@[simp] theorem State.setCore_ml (s : State) (c : Nat) (k : Core) : (s.setCore c k).ml = s.ml := rfl
@[simp] theorem State.setCore_ec (s : State) (c : Nat) (k : Core) : (s.setCore c k).ec = s.ec := rfl
@[simp] theorem State.setCore_sd (s : State) (c : Nat) (k : Core) : (s.setCore c k).sd = s.sd := rfl

@[simp] theorem State.modCore_pending (s : State) (c : Nat) (f : Core → Core) : (s.modCore c f).pending = s.pending := rfl
@[simp] theorem State.modCore_out (s : State) (c : Nat) (f : Core → Core) : (s.modCore c f).out = s.out := rfl
@[simp] theorem State.modCore_free (s : State) (c : Nat) (f : Core → Core) : (s.modCore c f).free = s.free := rfl
@[simp] theorem State.modCore_pw (s : State) (c : Nat) (f : Core → Core) : (s.modCore c f).pw = s.pw := rfl
@[simp] theorem State.modCore_mem (s : State) (c : Nat) (f : Core → Core) : (s.modCore c f).mem = s.mem := rfl
@[simp] theorem State.modCore_memEpoch (s : State) (c : Nat) (f : Core → Core) : (s.modCore c f).memEpoch = s.memEpoch := rfl
@[simp] theorem State.modCore_yardBad (s : State) (c : Nat) (f : Core → Core) : (s.modCore c f).yardBad = s.yardBad := rfl
@[simp] theorem State.modCore_poison (s : State) (c : Nat) (f : Core → Core) : (s.modCore c f).poison = s.poison := rfl
@[simp] theorem State.modCore_tb (s : State) (c : Nat) (f : Core → Core) : (s.modCore c f).tb = s.tb := rfl
@[simp] theorem State.modCore_ra (s : State) (c : Nat) (f : Core → Core) : (s.modCore c f).ra = s.ra := rfl
@[simp] theorem State.modCore_cc (s : State) (c : Nat) (f : Core → Core) : (s.modCore c f).cc = s.cc := rfl
@[simp] theorem State.modCore_pkg (s : State) (c : Nat) (f : Core → Core) : (s.modCore c f).pkg = s.pkg := rfl
@[simp] theorem State.modCore_aliasEn (s : State) (c : Nat) (f : Core → Core) : (s.modCore c f).aliasEn = s.aliasEn := rfl
@[simp] theorem State.modCore_regions (s : State) (c : Nat) (f : Core → Core) : (s.modCore c f).regions = s.regions := rfl
@[simp] theorem State.modCore_co (s : State) (c : Nat) (f : Core → Core) : (s.modCore c f).co = s.co := rfl
@[simp] theorem State.modCore_sems (s : State) (c : Nat) (f : Core → Core) : (s.modCore c f).sems = s.sems := rfl
@[simp] theorem State.modCore_semDies (s : State) (c : Nat) (f : Core → Core) : (s.modCore c f).semDies = s.semDies := rfl
@[simp] theorem State.modCore_dx (s : State) (c : Nat) (f : Core → Core) : (s.modCore c f).dx = s.dx := rfl
@[simp] theorem State.modCore_sb (s : State) (c : Nat) (f : Core → Core) : (s.modCore c f).sb = s.sb := rfl
@[simp] theorem State.modCore_tf (s : State) (c : Nat) (f : Core → Core) : (s.modCore c f).tf = s.tf := rfl
@[simp] theorem State.modCore_hi (s : State) (c : Nat) (f : Core → Core) : (s.modCore c f).hi = s.hi := rfl
@[simp] theorem State.modCore_queues (s : State) (c : Nat) (f : Core → Core) : (s.modCore c f).queues = s.queues := rfl
@[simp] theorem State.modCore_ml (s : State) (c : Nat) (f : Core → Core) : (s.modCore c f).ml = s.ml := rfl
@[simp] theorem State.modCore_ec (s : State) (c : Nat) (f : Core → Core) : (s.modCore c f).ec = s.ec := rfl
@[simp] theorem State.modCore_sd (s : State) (c : Nat) (f : Core → Core) : (s.modCore c f).sd = s.sd := rfl

@[simp] theorem State.mapCores_pending (s : State) (p : Nat → Bool) (f : Nat → Core → Core) : (s.mapCores p f).pending = s.pending := rfl
@[simp] theorem State.mapCores_out (s : State) (p : Nat → Bool) (f : Nat → Core → Core) : (s.mapCores p f).out = s.out := rfl
@[simp] theorem State.mapCores_free (s : State) (p : Nat → Bool) (f : Nat → Core → Core) : (s.mapCores p f).free = s.free := rfl
@[simp] theorem State.mapCores_pw (s : State) (p : Nat → Bool) (f : Nat → Core → Core) : (s.mapCores p f).pw = s.pw := rfl
@[simp] theorem State.mapCores_mem (s : State) (p : Nat → Bool) (f : Nat → Core → Core) : (s.mapCores p f).mem = s.mem := rfl
@[simp] theorem State.mapCores_memEpoch (s : State) (p : Nat → Bool) (f : Nat → Core → Core) : (s.mapCores p f).memEpoch = s.memEpoch := rfl
@[simp] theorem State.mapCores_yardBad (s : State) (p : Nat → Bool) (f : Nat → Core → Core) : (s.mapCores p f).yardBad = s.yardBad := rfl
@[simp] theorem State.mapCores_poison (s : State) (p : Nat → Bool) (f : Nat → Core → Core) : (s.mapCores p f).poison = s.poison := rfl
@[simp] theorem State.mapCores_tb (s : State) (p : Nat → Bool) (f : Nat → Core → Core) : (s.mapCores p f).tb = s.tb := rfl
@[simp] theorem State.mapCores_ra (s : State) (p : Nat → Bool) (f : Nat → Core → Core) : (s.mapCores p f).ra = s.ra := rfl
@[simp] theorem State.mapCores_cc (s : State) (p : Nat → Bool) (f : Nat → Core → Core) : (s.mapCores p f).cc = s.cc := rfl
@[simp] theorem State.mapCores_pkg (s : State) (p : Nat → Bool) (f : Nat → Core → Core) : (s.mapCores p f).pkg = s.pkg := rfl
@[simp] theorem State.mapCores_aliasEn (s : State) (p : Nat → Bool) (f : Nat → Core → Core) : (s.mapCores p f).aliasEn = s.aliasEn := rfl
@[simp] theorem State.mapCores_regions (s : State) (p : Nat → Bool) (f : Nat → Core → Core) : (s.mapCores p f).regions = s.regions := rfl
@[simp] theorem State.mapCores_co (s : State) (p : Nat → Bool) (f : Nat → Core → Core) : (s.mapCores p f).co = s.co := rfl
@[simp] theorem State.mapCores_sems (s : State) (p : Nat → Bool) (f : Nat → Core → Core) : (s.mapCores p f).sems = s.sems := rfl
@[simp] theorem State.mapCores_semDies (s : State) (p : Nat → Bool) (f : Nat → Core → Core) : (s.mapCores p f).semDies = s.semDies := rfl
@[simp] theorem State.mapCores_dx (s : State) (p : Nat → Bool) (f : Nat → Core → Core) : (s.mapCores p f).dx = s.dx := rfl
@[simp] theorem State.mapCores_sb (s : State) (p : Nat → Bool) (f : Nat → Core → Core) : (s.mapCores p f).sb = s.sb := rfl
@[simp] theorem State.mapCores_tf (s : State) (p : Nat → Bool) (f : Nat → Core → Core) : (s.mapCores p f).tf = s.tf := rfl
@[simp] theorem State.mapCores_hi (s : State) (p : Nat → Bool) (f : Nat → Core → Core) : (s.mapCores p f).hi = s.hi := rfl
@[simp] theorem State.mapCores_queues (s : State) (p : Nat → Bool) (f : Nat → Core → Core) : (s.mapCores p f).queues = s.queues := rfl
@[simp] theorem State.mapCores_ml (s : State) (p : Nat → Bool) (f : Nat → Core → Core) : (s.mapCores p f).ml = s.ml := rfl
@[simp] theorem State.mapCores_ec (s : State) (p : Nat → Bool) (f : Nat → Core → Core) : (s.mapCores p f).ec = s.ec := rfl
@[simp] theorem State.mapCores_sd (s : State) (p : Nat → Bool) (f : Nat → Core → Core) : (s.mapCores p f).sd = s.sd := rfl

@[simp] theorem State.setRegion_pending (s : State) (r : Nat) (g : Region) : (s.setRegion r g).pending = s.pending := rfl
@[simp] theorem State.setRegion_out (s : State) (r : Nat) (g : Region) : (s.setRegion r g).out = s.out := rfl
@[simp] theorem State.setRegion_free (s : State) (r : Nat) (g : Region) : (s.setRegion r g).free = s.free := rfl
@[simp] theorem State.setRegion_pw (s : State) (r : Nat) (g : Region) : (s.setRegion r g).pw = s.pw := rfl
@[simp] theorem State.setRegion_mem (s : State) (r : Nat) (g : Region) : (s.setRegion r g).mem = s.mem := rfl
@[simp] theorem State.setRegion_memEpoch (s : State) (r : Nat) (g : Region) : (s.setRegion r g).memEpoch = s.memEpoch := rfl
@[simp] theorem State.setRegion_yardBad (s : State) (r : Nat) (g : Region) : (s.setRegion r g).yardBad = s.yardBad := rfl
@[simp] theorem State.setRegion_poison (s : State) (r : Nat) (g : Region) : (s.setRegion r g).poison = s.poison := rfl
@[simp] theorem State.setRegion_tb (s : State) (r : Nat) (g : Region) : (s.setRegion r g).tb = s.tb := rfl
@[simp] theorem State.setRegion_ra (s : State) (r : Nat) (g : Region) : (s.setRegion r g).ra = s.ra := rfl
@[simp] theorem State.setRegion_cc (s : State) (r : Nat) (g : Region) : (s.setRegion r g).cc = s.cc := rfl
@[simp] theorem State.setRegion_pkg (s : State) (r : Nat) (g : Region) : (s.setRegion r g).pkg = s.pkg := rfl
@[simp] theorem State.setRegion_aliasEn (s : State) (r : Nat) (g : Region) : (s.setRegion r g).aliasEn = s.aliasEn := rfl
@[simp] theorem State.setRegion_cores (s : State) (r : Nat) (g : Region) : (s.setRegion r g).cores = s.cores := rfl
@[simp] theorem State.setRegion_co (s : State) (r : Nat) (g : Region) : (s.setRegion r g).co = s.co := rfl
@[simp] theorem State.setRegion_sems (s : State) (r : Nat) (g : Region) : (s.setRegion r g).sems = s.sems := rfl
@[simp] theorem State.setRegion_semDies (s : State) (r : Nat) (g : Region) : (s.setRegion r g).semDies = s.semDies := rfl
@[simp] theorem State.setRegion_dx (s : State) (r : Nat) (g : Region) : (s.setRegion r g).dx = s.dx := rfl
@[simp] theorem State.setRegion_sb (s : State) (r : Nat) (g : Region) : (s.setRegion r g).sb = s.sb := rfl
@[simp] theorem State.setRegion_tf (s : State) (r : Nat) (g : Region) : (s.setRegion r g).tf = s.tf := rfl
@[simp] theorem State.setRegion_hi (s : State) (r : Nat) (g : Region) : (s.setRegion r g).hi = s.hi := rfl
@[simp] theorem State.setRegion_queues (s : State) (r : Nat) (g : Region) : (s.setRegion r g).queues = s.queues := rfl
@[simp] theorem State.setRegion_ml (s : State) (r : Nat) (g : Region) : (s.setRegion r g).ml = s.ml := rfl
@[simp] theorem State.setRegion_ec (s : State) (r : Nat) (g : Region) : (s.setRegion r g).ec = s.ec := rfl
@[simp] theorem State.setRegion_sd (s : State) (r : Nat) (g : Region) : (s.setRegion r g).sd = s.sd := rfl

@[simp] theorem State.modRegion_pending (s : State) (r : Nat) (f : Region → Region) : (s.modRegion r f).pending = s.pending := rfl
@[simp] theorem State.modRegion_out (s : State) (r : Nat) (f : Region → Region) : (s.modRegion r f).out = s.out := rfl
@[simp] theorem State.modRegion_free (s : State) (r : Nat) (f : Region → Region) : (s.modRegion r f).free = s.free := rfl
@[simp] theorem State.modRegion_pw (s : State) (r : Nat) (f : Region → Region) : (s.modRegion r f).pw = s.pw := rfl
@[simp] theorem State.modRegion_mem (s : State) (r : Nat) (f : Region → Region) : (s.modRegion r f).mem = s.mem := rfl
@[simp] theorem State.modRegion_memEpoch (s : State) (r : Nat) (f : Region → Region) : (s.modRegion r f).memEpoch = s.memEpoch := rfl
@[simp] theorem State.modRegion_yardBad (s : State) (r : Nat) (f : Region → Region) : (s.modRegion r f).yardBad = s.yardBad := rfl
@[simp] theorem State.modRegion_poison (s : State) (r : Nat) (f : Region → Region) : (s.modRegion r f).poison = s.poison := rfl
@[simp] theorem State.modRegion_tb (s : State) (r : Nat) (f : Region → Region) : (s.modRegion r f).tb = s.tb := rfl
@[simp] theorem State.modRegion_ra (s : State) (r : Nat) (f : Region → Region) : (s.modRegion r f).ra = s.ra := rfl
@[simp] theorem State.modRegion_cc (s : State) (r : Nat) (f : Region → Region) : (s.modRegion r f).cc = s.cc := rfl
@[simp] theorem State.modRegion_pkg (s : State) (r : Nat) (f : Region → Region) : (s.modRegion r f).pkg = s.pkg := rfl
@[simp] theorem State.modRegion_aliasEn (s : State) (r : Nat) (f : Region → Region) : (s.modRegion r f).aliasEn = s.aliasEn := rfl
@[simp] theorem State.modRegion_cores (s : State) (r : Nat) (f : Region → Region) : (s.modRegion r f).cores = s.cores := rfl
@[simp] theorem State.modRegion_co (s : State) (r : Nat) (f : Region → Region) : (s.modRegion r f).co = s.co := rfl
@[simp] theorem State.modRegion_sems (s : State) (r : Nat) (f : Region → Region) : (s.modRegion r f).sems = s.sems := rfl
@[simp] theorem State.modRegion_semDies (s : State) (r : Nat) (f : Region → Region) : (s.modRegion r f).semDies = s.semDies := rfl
@[simp] theorem State.modRegion_dx (s : State) (r : Nat) (f : Region → Region) : (s.modRegion r f).dx = s.dx := rfl
@[simp] theorem State.modRegion_sb (s : State) (r : Nat) (f : Region → Region) : (s.modRegion r f).sb = s.sb := rfl
@[simp] theorem State.modRegion_tf (s : State) (r : Nat) (f : Region → Region) : (s.modRegion r f).tf = s.tf := rfl
@[simp] theorem State.modRegion_hi (s : State) (r : Nat) (f : Region → Region) : (s.modRegion r f).hi = s.hi := rfl
@[simp] theorem State.modRegion_queues (s : State) (r : Nat) (f : Region → Region) : (s.modRegion r f).queues = s.queues := rfl
@[simp] theorem State.modRegion_ml (s : State) (r : Nat) (f : Region → Region) : (s.modRegion r f).ml = s.ml := rfl
@[simp] theorem State.modRegion_ec (s : State) (r : Nat) (f : Region → Region) : (s.modRegion r f).ec = s.ec := rfl
@[simp] theorem State.modRegion_sd (s : State) (r : Nat) (f : Region → Region) : (s.modRegion r f).sd = s.sd := rfl

@[simp] theorem State.setSem_pending (s : State) (i : Nat) (m : Sem) : (s.setSem i m).pending = s.pending := rfl
@[simp] theorem State.setSem_out (s : State) (i : Nat) (m : Sem) : (s.setSem i m).out = s.out := rfl
@[simp] theorem State.setSem_free (s : State) (i : Nat) (m : Sem) : (s.setSem i m).free = s.free := rfl
@[simp] theorem State.setSem_pw (s : State) (i : Nat) (m : Sem) : (s.setSem i m).pw = s.pw := rfl
@[simp] theorem State.setSem_mem (s : State) (i : Nat) (m : Sem) : (s.setSem i m).mem = s.mem := rfl
@[simp] theorem State.setSem_memEpoch (s : State) (i : Nat) (m : Sem) : (s.setSem i m).memEpoch = s.memEpoch := rfl
@[simp] theorem State.setSem_yardBad (s : State) (i : Nat) (m : Sem) : (s.setSem i m).yardBad = s.yardBad := rfl
@[simp] theorem State.setSem_poison (s : State) (i : Nat) (m : Sem) : (s.setSem i m).poison = s.poison := rfl
@[simp] theorem State.setSem_tb (s : State) (i : Nat) (m : Sem) : (s.setSem i m).tb = s.tb := rfl
@[simp] theorem State.setSem_ra (s : State) (i : Nat) (m : Sem) : (s.setSem i m).ra = s.ra := rfl
@[simp] theorem State.setSem_cc (s : State) (i : Nat) (m : Sem) : (s.setSem i m).cc = s.cc := rfl
@[simp] theorem State.setSem_pkg (s : State) (i : Nat) (m : Sem) : (s.setSem i m).pkg = s.pkg := rfl
@[simp] theorem State.setSem_aliasEn (s : State) (i : Nat) (m : Sem) : (s.setSem i m).aliasEn = s.aliasEn := rfl
@[simp] theorem State.setSem_regions (s : State) (i : Nat) (m : Sem) : (s.setSem i m).regions = s.regions := rfl
@[simp] theorem State.setSem_cores (s : State) (i : Nat) (m : Sem) : (s.setSem i m).cores = s.cores := rfl
@[simp] theorem State.setSem_co (s : State) (i : Nat) (m : Sem) : (s.setSem i m).co = s.co := rfl
@[simp] theorem State.setSem_semDies (s : State) (i : Nat) (m : Sem) : (s.setSem i m).semDies = s.semDies := rfl
@[simp] theorem State.setSem_dx (s : State) (i : Nat) (m : Sem) : (s.setSem i m).dx = s.dx := rfl
@[simp] theorem State.setSem_sb (s : State) (i : Nat) (m : Sem) : (s.setSem i m).sb = s.sb := rfl
@[simp] theorem State.setSem_tf (s : State) (i : Nat) (m : Sem) : (s.setSem i m).tf = s.tf := rfl
@[simp] theorem State.setSem_hi (s : State) (i : Nat) (m : Sem) : (s.setSem i m).hi = s.hi := rfl
@[simp] theorem State.setSem_queues (s : State) (i : Nat) (m : Sem) : (s.setSem i m).queues = s.queues := rfl
@[simp] theorem State.setSem_ml (s : State) (i : Nat) (m : Sem) : (s.setSem i m).ml = s.ml := rfl
@[simp] theorem State.setSem_ec (s : State) (i : Nat) (m : Sem) : (s.setSem i m).ec = s.ec := rfl
@[simp] theorem State.setSem_sd (s : State) (i : Nat) (m : Sem) : (s.setSem i m).sd = s.sd := rfl

@[simp] theorem State.setSemDie_pending (s : State) (d : Nat) (m : SemDie) : (s.setSemDie d m).pending = s.pending := rfl
@[simp] theorem State.setSemDie_out (s : State) (d : Nat) (m : SemDie) : (s.setSemDie d m).out = s.out := rfl
@[simp] theorem State.setSemDie_free (s : State) (d : Nat) (m : SemDie) : (s.setSemDie d m).free = s.free := rfl
@[simp] theorem State.setSemDie_pw (s : State) (d : Nat) (m : SemDie) : (s.setSemDie d m).pw = s.pw := rfl
@[simp] theorem State.setSemDie_mem (s : State) (d : Nat) (m : SemDie) : (s.setSemDie d m).mem = s.mem := rfl
@[simp] theorem State.setSemDie_memEpoch (s : State) (d : Nat) (m : SemDie) : (s.setSemDie d m).memEpoch = s.memEpoch := rfl
@[simp] theorem State.setSemDie_yardBad (s : State) (d : Nat) (m : SemDie) : (s.setSemDie d m).yardBad = s.yardBad := rfl
@[simp] theorem State.setSemDie_poison (s : State) (d : Nat) (m : SemDie) : (s.setSemDie d m).poison = s.poison := rfl
@[simp] theorem State.setSemDie_tb (s : State) (d : Nat) (m : SemDie) : (s.setSemDie d m).tb = s.tb := rfl
@[simp] theorem State.setSemDie_ra (s : State) (d : Nat) (m : SemDie) : (s.setSemDie d m).ra = s.ra := rfl
@[simp] theorem State.setSemDie_cc (s : State) (d : Nat) (m : SemDie) : (s.setSemDie d m).cc = s.cc := rfl
@[simp] theorem State.setSemDie_pkg (s : State) (d : Nat) (m : SemDie) : (s.setSemDie d m).pkg = s.pkg := rfl
@[simp] theorem State.setSemDie_aliasEn (s : State) (d : Nat) (m : SemDie) : (s.setSemDie d m).aliasEn = s.aliasEn := rfl
@[simp] theorem State.setSemDie_regions (s : State) (d : Nat) (m : SemDie) : (s.setSemDie d m).regions = s.regions := rfl
@[simp] theorem State.setSemDie_cores (s : State) (d : Nat) (m : SemDie) : (s.setSemDie d m).cores = s.cores := rfl
@[simp] theorem State.setSemDie_co (s : State) (d : Nat) (m : SemDie) : (s.setSemDie d m).co = s.co := rfl
@[simp] theorem State.setSemDie_sems (s : State) (d : Nat) (m : SemDie) : (s.setSemDie d m).sems = s.sems := rfl
@[simp] theorem State.setSemDie_dx (s : State) (d : Nat) (m : SemDie) : (s.setSemDie d m).dx = s.dx := rfl
@[simp] theorem State.setSemDie_sb (s : State) (d : Nat) (m : SemDie) : (s.setSemDie d m).sb = s.sb := rfl
@[simp] theorem State.setSemDie_tf (s : State) (d : Nat) (m : SemDie) : (s.setSemDie d m).tf = s.tf := rfl
@[simp] theorem State.setSemDie_hi (s : State) (d : Nat) (m : SemDie) : (s.setSemDie d m).hi = s.hi := rfl
@[simp] theorem State.setSemDie_queues (s : State) (d : Nat) (m : SemDie) : (s.setSemDie d m).queues = s.queues := rfl
@[simp] theorem State.setSemDie_ml (s : State) (d : Nat) (m : SemDie) : (s.setSemDie d m).ml = s.ml := rfl
@[simp] theorem State.setSemDie_ec (s : State) (d : Nat) (m : SemDie) : (s.setSemDie d m).ec = s.ec := rfl
@[simp] theorem State.setSemDie_sd (s : State) (d : Nat) (m : SemDie) : (s.setSemDie d m).sd = s.sd := rfl

@[simp] theorem State.setQueue_pending (s : State) (q : Nat) (k : Queue) : (s.setQueue q k).pending = s.pending := rfl
@[simp] theorem State.setQueue_out (s : State) (q : Nat) (k : Queue) : (s.setQueue q k).out = s.out := rfl
@[simp] theorem State.setQueue_free (s : State) (q : Nat) (k : Queue) : (s.setQueue q k).free = s.free := rfl
@[simp] theorem State.setQueue_pw (s : State) (q : Nat) (k : Queue) : (s.setQueue q k).pw = s.pw := rfl
@[simp] theorem State.setQueue_mem (s : State) (q : Nat) (k : Queue) : (s.setQueue q k).mem = s.mem := rfl
@[simp] theorem State.setQueue_memEpoch (s : State) (q : Nat) (k : Queue) : (s.setQueue q k).memEpoch = s.memEpoch := rfl
@[simp] theorem State.setQueue_yardBad (s : State) (q : Nat) (k : Queue) : (s.setQueue q k).yardBad = s.yardBad := rfl
@[simp] theorem State.setQueue_poison (s : State) (q : Nat) (k : Queue) : (s.setQueue q k).poison = s.poison := rfl
@[simp] theorem State.setQueue_tb (s : State) (q : Nat) (k : Queue) : (s.setQueue q k).tb = s.tb := rfl
@[simp] theorem State.setQueue_ra (s : State) (q : Nat) (k : Queue) : (s.setQueue q k).ra = s.ra := rfl
@[simp] theorem State.setQueue_cc (s : State) (q : Nat) (k : Queue) : (s.setQueue q k).cc = s.cc := rfl
@[simp] theorem State.setQueue_pkg (s : State) (q : Nat) (k : Queue) : (s.setQueue q k).pkg = s.pkg := rfl
@[simp] theorem State.setQueue_aliasEn (s : State) (q : Nat) (k : Queue) : (s.setQueue q k).aliasEn = s.aliasEn := rfl
@[simp] theorem State.setQueue_regions (s : State) (q : Nat) (k : Queue) : (s.setQueue q k).regions = s.regions := rfl
@[simp] theorem State.setQueue_cores (s : State) (q : Nat) (k : Queue) : (s.setQueue q k).cores = s.cores := rfl
@[simp] theorem State.setQueue_co (s : State) (q : Nat) (k : Queue) : (s.setQueue q k).co = s.co := rfl
@[simp] theorem State.setQueue_sems (s : State) (q : Nat) (k : Queue) : (s.setQueue q k).sems = s.sems := rfl
@[simp] theorem State.setQueue_semDies (s : State) (q : Nat) (k : Queue) : (s.setQueue q k).semDies = s.semDies := rfl
@[simp] theorem State.setQueue_dx (s : State) (q : Nat) (k : Queue) : (s.setQueue q k).dx = s.dx := rfl
@[simp] theorem State.setQueue_sb (s : State) (q : Nat) (k : Queue) : (s.setQueue q k).sb = s.sb := rfl
@[simp] theorem State.setQueue_tf (s : State) (q : Nat) (k : Queue) : (s.setQueue q k).tf = s.tf := rfl
@[simp] theorem State.setQueue_hi (s : State) (q : Nat) (k : Queue) : (s.setQueue q k).hi = s.hi := rfl
@[simp] theorem State.setQueue_ml (s : State) (q : Nat) (k : Queue) : (s.setQueue q k).ml = s.ml := rfl
@[simp] theorem State.setQueue_ec (s : State) (q : Nat) (k : Queue) : (s.setQueue q k).ec = s.ec := rfl
@[simp] theorem State.setQueue_sd (s : State) (q : Nat) (k : Queue) : (s.setQueue q k).sd = s.sd := rfl

@[simp] theorem State.setPort_pending (s : State) (p : Nat) (k : Port) : (s.setPort p k).pending = s.pending := rfl
@[simp] theorem State.setPort_out (s : State) (p : Nat) (k : Port) : (s.setPort p k).out = s.out := rfl
@[simp] theorem State.setPort_free (s : State) (p : Nat) (k : Port) : (s.setPort p k).free = s.free := rfl
@[simp] theorem State.setPort_pw (s : State) (p : Nat) (k : Port) : (s.setPort p k).pw = s.pw := rfl
@[simp] theorem State.setPort_mem (s : State) (p : Nat) (k : Port) : (s.setPort p k).mem = s.mem := rfl
@[simp] theorem State.setPort_memEpoch (s : State) (p : Nat) (k : Port) : (s.setPort p k).memEpoch = s.memEpoch := rfl
@[simp] theorem State.setPort_yardBad (s : State) (p : Nat) (k : Port) : (s.setPort p k).yardBad = s.yardBad := rfl
@[simp] theorem State.setPort_poison (s : State) (p : Nat) (k : Port) : (s.setPort p k).poison = s.poison := rfl
@[simp] theorem State.setPort_tb (s : State) (p : Nat) (k : Port) : (s.setPort p k).tb = s.tb := rfl
@[simp] theorem State.setPort_ra (s : State) (p : Nat) (k : Port) : (s.setPort p k).ra = s.ra := rfl
@[simp] theorem State.setPort_cc (s : State) (p : Nat) (k : Port) : (s.setPort p k).cc = s.cc := rfl
@[simp] theorem State.setPort_pkg (s : State) (p : Nat) (k : Port) : (s.setPort p k).pkg = s.pkg := rfl
@[simp] theorem State.setPort_aliasEn (s : State) (p : Nat) (k : Port) : (s.setPort p k).aliasEn = s.aliasEn := rfl
@[simp] theorem State.setPort_regions (s : State) (p : Nat) (k : Port) : (s.setPort p k).regions = s.regions := rfl
@[simp] theorem State.setPort_cores (s : State) (p : Nat) (k : Port) : (s.setPort p k).cores = s.cores := rfl
@[simp] theorem State.setPort_co (s : State) (p : Nat) (k : Port) : (s.setPort p k).co = s.co := rfl
@[simp] theorem State.setPort_sems (s : State) (p : Nat) (k : Port) : (s.setPort p k).sems = s.sems := rfl
@[simp] theorem State.setPort_semDies (s : State) (p : Nat) (k : Port) : (s.setPort p k).semDies = s.semDies := rfl
@[simp] theorem State.setPort_dx (s : State) (p : Nat) (k : Port) : (s.setPort p k).dx = s.dx := rfl
@[simp] theorem State.setPort_sb (s : State) (p : Nat) (k : Port) : (s.setPort p k).sb = s.sb := rfl
@[simp] theorem State.setPort_tf (s : State) (p : Nat) (k : Port) : (s.setPort p k).tf = s.tf := rfl
@[simp] theorem State.setPort_hi (s : State) (p : Nat) (k : Port) : (s.setPort p k).hi = s.hi := rfl
@[simp] theorem State.setPort_queues (s : State) (p : Nat) (k : Port) : (s.setPort p k).queues = s.queues := rfl
@[simp] theorem State.setPort_ec (s : State) (p : Nat) (k : Port) : (s.setPort p k).ec = s.ec := rfl
@[simp] theorem State.setPort_sd (s : State) (p : Nat) (k : Port) : (s.setPort p k).sd = s.sd := rfl

@[simp] theorem State.modPort_pending (s : State) (p : Nat) (f : Port → Port) : (s.modPort p f).pending = s.pending := rfl
@[simp] theorem State.modPort_out (s : State) (p : Nat) (f : Port → Port) : (s.modPort p f).out = s.out := rfl
@[simp] theorem State.modPort_free (s : State) (p : Nat) (f : Port → Port) : (s.modPort p f).free = s.free := rfl
@[simp] theorem State.modPort_pw (s : State) (p : Nat) (f : Port → Port) : (s.modPort p f).pw = s.pw := rfl
@[simp] theorem State.modPort_mem (s : State) (p : Nat) (f : Port → Port) : (s.modPort p f).mem = s.mem := rfl
@[simp] theorem State.modPort_memEpoch (s : State) (p : Nat) (f : Port → Port) : (s.modPort p f).memEpoch = s.memEpoch := rfl
@[simp] theorem State.modPort_yardBad (s : State) (p : Nat) (f : Port → Port) : (s.modPort p f).yardBad = s.yardBad := rfl
@[simp] theorem State.modPort_poison (s : State) (p : Nat) (f : Port → Port) : (s.modPort p f).poison = s.poison := rfl
@[simp] theorem State.modPort_tb (s : State) (p : Nat) (f : Port → Port) : (s.modPort p f).tb = s.tb := rfl
@[simp] theorem State.modPort_ra (s : State) (p : Nat) (f : Port → Port) : (s.modPort p f).ra = s.ra := rfl
@[simp] theorem State.modPort_cc (s : State) (p : Nat) (f : Port → Port) : (s.modPort p f).cc = s.cc := rfl
@[simp] theorem State.modPort_pkg (s : State) (p : Nat) (f : Port → Port) : (s.modPort p f).pkg = s.pkg := rfl
@[simp] theorem State.modPort_aliasEn (s : State) (p : Nat) (f : Port → Port) : (s.modPort p f).aliasEn = s.aliasEn := rfl
@[simp] theorem State.modPort_regions (s : State) (p : Nat) (f : Port → Port) : (s.modPort p f).regions = s.regions := rfl
@[simp] theorem State.modPort_cores (s : State) (p : Nat) (f : Port → Port) : (s.modPort p f).cores = s.cores := rfl
@[simp] theorem State.modPort_co (s : State) (p : Nat) (f : Port → Port) : (s.modPort p f).co = s.co := rfl
@[simp] theorem State.modPort_sems (s : State) (p : Nat) (f : Port → Port) : (s.modPort p f).sems = s.sems := rfl
@[simp] theorem State.modPort_semDies (s : State) (p : Nat) (f : Port → Port) : (s.modPort p f).semDies = s.semDies := rfl
@[simp] theorem State.modPort_dx (s : State) (p : Nat) (f : Port → Port) : (s.modPort p f).dx = s.dx := rfl
@[simp] theorem State.modPort_sb (s : State) (p : Nat) (f : Port → Port) : (s.modPort p f).sb = s.sb := rfl
@[simp] theorem State.modPort_tf (s : State) (p : Nat) (f : Port → Port) : (s.modPort p f).tf = s.tf := rfl
@[simp] theorem State.modPort_hi (s : State) (p : Nat) (f : Port → Port) : (s.modPort p f).hi = s.hi := rfl
@[simp] theorem State.modPort_queues (s : State) (p : Nat) (f : Port → Port) : (s.modPort p f).queues = s.queues := rfl
@[simp] theorem State.modPort_ec (s : State) (p : Nat) (f : Port → Port) : (s.modPort p f).ec = s.ec := rfl
@[simp] theorem State.modPort_sd (s : State) (p : Nat) (f : Port → Port) : (s.modPort p f).sd = s.sd := rfl

@[simp] theorem State.emit_pending (s : State) (o : Output) : (s.emit o).pending = s.pending := rfl
@[simp] theorem State.emit_free (s : State) (o : Output) : (s.emit o).free = s.free := rfl
@[simp] theorem State.emit_pw (s : State) (o : Output) : (s.emit o).pw = s.pw := rfl
@[simp] theorem State.emit_mem (s : State) (o : Output) : (s.emit o).mem = s.mem := rfl
@[simp] theorem State.emit_memEpoch (s : State) (o : Output) : (s.emit o).memEpoch = s.memEpoch := rfl
@[simp] theorem State.emit_yardBad (s : State) (o : Output) : (s.emit o).yardBad = s.yardBad := rfl
@[simp] theorem State.emit_poison (s : State) (o : Output) : (s.emit o).poison = s.poison := rfl
@[simp] theorem State.emit_tb (s : State) (o : Output) : (s.emit o).tb = s.tb := rfl
@[simp] theorem State.emit_ra (s : State) (o : Output) : (s.emit o).ra = s.ra := rfl
@[simp] theorem State.emit_cc (s : State) (o : Output) : (s.emit o).cc = s.cc := rfl
@[simp] theorem State.emit_pkg (s : State) (o : Output) : (s.emit o).pkg = s.pkg := rfl
@[simp] theorem State.emit_aliasEn (s : State) (o : Output) : (s.emit o).aliasEn = s.aliasEn := rfl
@[simp] theorem State.emit_regions (s : State) (o : Output) : (s.emit o).regions = s.regions := rfl
@[simp] theorem State.emit_cores (s : State) (o : Output) : (s.emit o).cores = s.cores := rfl
@[simp] theorem State.emit_co (s : State) (o : Output) : (s.emit o).co = s.co := rfl
@[simp] theorem State.emit_sems (s : State) (o : Output) : (s.emit o).sems = s.sems := rfl
@[simp] theorem State.emit_semDies (s : State) (o : Output) : (s.emit o).semDies = s.semDies := rfl
@[simp] theorem State.emit_dx (s : State) (o : Output) : (s.emit o).dx = s.dx := rfl
@[simp] theorem State.emit_sb (s : State) (o : Output) : (s.emit o).sb = s.sb := rfl
@[simp] theorem State.emit_tf (s : State) (o : Output) : (s.emit o).tf = s.tf := rfl
@[simp] theorem State.emit_hi (s : State) (o : Output) : (s.emit o).hi = s.hi := rfl
@[simp] theorem State.emit_queues (s : State) (o : Output) : (s.emit o).queues = s.queues := rfl
@[simp] theorem State.emit_ml (s : State) (o : Output) : (s.emit o).ml = s.ml := rfl
@[simp] theorem State.emit_ec (s : State) (o : Output) : (s.emit o).ec = s.ec := rfl
@[simp] theorem State.emit_sd (s : State) (o : Output) : (s.emit o).sd = s.sd := rfl

@[simp] theorem State.modLoad_pending (s : State) (f : Load → Load) : (s.modLoad f).pending = s.pending := rfl
@[simp] theorem State.modLoad_out (s : State) (f : Load → Load) : (s.modLoad f).out = s.out := rfl
@[simp] theorem State.modLoad_free (s : State) (f : Load → Load) : (s.modLoad f).free = s.free := rfl
@[simp] theorem State.modLoad_pw (s : State) (f : Load → Load) : (s.modLoad f).pw = s.pw := rfl
@[simp] theorem State.modLoad_mem (s : State) (f : Load → Load) : (s.modLoad f).mem = s.mem := rfl
@[simp] theorem State.modLoad_memEpoch (s : State) (f : Load → Load) : (s.modLoad f).memEpoch = s.memEpoch := rfl
@[simp] theorem State.modLoad_yardBad (s : State) (f : Load → Load) : (s.modLoad f).yardBad = s.yardBad := rfl
@[simp] theorem State.modLoad_poison (s : State) (f : Load → Load) : (s.modLoad f).poison = s.poison := rfl
@[simp] theorem State.modLoad_tb (s : State) (f : Load → Load) : (s.modLoad f).tb = s.tb := rfl
@[simp] theorem State.modLoad_ra (s : State) (f : Load → Load) : (s.modLoad f).ra = s.ra := rfl
@[simp] theorem State.modLoad_pkg (s : State) (f : Load → Load) : (s.modLoad f).pkg = s.pkg := rfl
@[simp] theorem State.modLoad_aliasEn (s : State) (f : Load → Load) : (s.modLoad f).aliasEn = s.aliasEn := rfl
@[simp] theorem State.modLoad_regions (s : State) (f : Load → Load) : (s.modLoad f).regions = s.regions := rfl
@[simp] theorem State.modLoad_cores (s : State) (f : Load → Load) : (s.modLoad f).cores = s.cores := rfl
@[simp] theorem State.modLoad_co (s : State) (f : Load → Load) : (s.modLoad f).co = s.co := rfl
@[simp] theorem State.modLoad_sems (s : State) (f : Load → Load) : (s.modLoad f).sems = s.sems := rfl
@[simp] theorem State.modLoad_semDies (s : State) (f : Load → Load) : (s.modLoad f).semDies = s.semDies := rfl
@[simp] theorem State.modLoad_dx (s : State) (f : Load → Load) : (s.modLoad f).dx = s.dx := rfl
@[simp] theorem State.modLoad_sb (s : State) (f : Load → Load) : (s.modLoad f).sb = s.sb := rfl
@[simp] theorem State.modLoad_tf (s : State) (f : Load → Load) : (s.modLoad f).tf = s.tf := rfl
@[simp] theorem State.modLoad_hi (s : State) (f : Load → Load) : (s.modLoad f).hi = s.hi := rfl
@[simp] theorem State.modLoad_queues (s : State) (f : Load → Load) : (s.modLoad f).queues = s.queues := rfl
@[simp] theorem State.modLoad_ml (s : State) (f : Load → Load) : (s.modLoad f).ml = s.ml := rfl
@[simp] theorem State.modLoad_ec (s : State) (f : Load → Load) : (s.modLoad f).ec = s.ec := rfl
@[simp] theorem State.modLoad_sd (s : State) (f : Load → Load) : (s.modLoad f).sd = s.sd := rfl

@[simp] theorem State.consume_pending (s : State) (n : Nat) : (s.consume n).pending = s.pending := rfl
@[simp] theorem State.consume_out (s : State) (n : Nat) : (s.consume n).out = s.out := rfl
@[simp] theorem State.consume_free (s : State) (n : Nat) : (s.consume n).free = s.free := rfl
@[simp] theorem State.consume_pw (s : State) (n : Nat) : (s.consume n).pw = s.pw := rfl
@[simp] theorem State.consume_mem (s : State) (n : Nat) : (s.consume n).mem = s.mem := rfl
@[simp] theorem State.consume_memEpoch (s : State) (n : Nat) : (s.consume n).memEpoch = s.memEpoch := rfl
@[simp] theorem State.consume_yardBad (s : State) (n : Nat) : (s.consume n).yardBad = s.yardBad := rfl
@[simp] theorem State.consume_poison (s : State) (n : Nat) : (s.consume n).poison = s.poison := rfl
@[simp] theorem State.consume_tb (s : State) (n : Nat) : (s.consume n).tb = s.tb := rfl
@[simp] theorem State.consume_ra (s : State) (n : Nat) : (s.consume n).ra = s.ra := rfl
@[simp] theorem State.consume_pkg (s : State) (n : Nat) : (s.consume n).pkg = s.pkg := rfl
@[simp] theorem State.consume_aliasEn (s : State) (n : Nat) : (s.consume n).aliasEn = s.aliasEn := rfl
@[simp] theorem State.consume_regions (s : State) (n : Nat) : (s.consume n).regions = s.regions := rfl
@[simp] theorem State.consume_cores (s : State) (n : Nat) : (s.consume n).cores = s.cores := rfl
@[simp] theorem State.consume_co (s : State) (n : Nat) : (s.consume n).co = s.co := rfl
@[simp] theorem State.consume_sems (s : State) (n : Nat) : (s.consume n).sems = s.sems := rfl
@[simp] theorem State.consume_semDies (s : State) (n : Nat) : (s.consume n).semDies = s.semDies := rfl
@[simp] theorem State.consume_dx (s : State) (n : Nat) : (s.consume n).dx = s.dx := rfl
@[simp] theorem State.consume_sb (s : State) (n : Nat) : (s.consume n).sb = s.sb := rfl
@[simp] theorem State.consume_tf (s : State) (n : Nat) : (s.consume n).tf = s.tf := rfl
@[simp] theorem State.consume_hi (s : State) (n : Nat) : (s.consume n).hi = s.hi := rfl
@[simp] theorem State.consume_queues (s : State) (n : Nat) : (s.consume n).queues = s.queues := rfl
@[simp] theorem State.consume_ml (s : State) (n : Nat) : (s.consume n).ml = s.ml := rfl
@[simp] theorem State.consume_ec (s : State) (n : Nat) : (s.consume n).ec = s.ec := rfl
@[simp] theorem State.consume_sd (s : State) (n : Nat) : (s.consume n).sd = s.sd := rfl

@[simp] theorem State.raDrive_pending (s : State) : (s.raDrive).pending = s.pending := rfl
@[simp] theorem State.raDrive_out (s : State) : (s.raDrive).out = s.out := rfl
@[simp] theorem State.raDrive_free (s : State) : (s.raDrive).free = s.free := rfl
@[simp] theorem State.raDrive_pw (s : State) : (s.raDrive).pw = s.pw := rfl
@[simp] theorem State.raDrive_mem (s : State) : (s.raDrive).mem = s.mem := rfl
@[simp] theorem State.raDrive_memEpoch (s : State) : (s.raDrive).memEpoch = s.memEpoch := rfl
@[simp] theorem State.raDrive_yardBad (s : State) : (s.raDrive).yardBad = s.yardBad := rfl
@[simp] theorem State.raDrive_poison (s : State) : (s.raDrive).poison = s.poison := rfl
@[simp] theorem State.raDrive_tb (s : State) : (s.raDrive).tb = s.tb := rfl
@[simp] theorem State.raDrive_cc (s : State) : (s.raDrive).cc = s.cc := rfl
@[simp] theorem State.raDrive_pkg (s : State) : (s.raDrive).pkg = s.pkg := rfl
@[simp] theorem State.raDrive_aliasEn (s : State) : (s.raDrive).aliasEn = s.aliasEn := rfl
@[simp] theorem State.raDrive_regions (s : State) : (s.raDrive).regions = s.regions := rfl
@[simp] theorem State.raDrive_cores (s : State) : (s.raDrive).cores = s.cores := rfl
@[simp] theorem State.raDrive_co (s : State) : (s.raDrive).co = s.co := rfl
@[simp] theorem State.raDrive_sems (s : State) : (s.raDrive).sems = s.sems := rfl
@[simp] theorem State.raDrive_semDies (s : State) : (s.raDrive).semDies = s.semDies := rfl
@[simp] theorem State.raDrive_dx (s : State) : (s.raDrive).dx = s.dx := rfl
@[simp] theorem State.raDrive_sb (s : State) : (s.raDrive).sb = s.sb := rfl
@[simp] theorem State.raDrive_tf (s : State) : (s.raDrive).tf = s.tf := rfl
@[simp] theorem State.raDrive_hi (s : State) : (s.raDrive).hi = s.hi := rfl
@[simp] theorem State.raDrive_queues (s : State) : (s.raDrive).queues = s.queues := rfl
@[simp] theorem State.raDrive_ml (s : State) : (s.raDrive).ml = s.ml := rfl
@[simp] theorem State.raDrive_ec (s : State) : (s.raDrive).ec = s.ec := rfl
@[simp] theorem State.raDrive_sd (s : State) : (s.raDrive).sd = s.sd := rfl

@[simp] theorem State.raReleaseLine_pending (s : State) : (s.raReleaseLine).pending = s.pending := rfl
@[simp] theorem State.raReleaseLine_out (s : State) : (s.raReleaseLine).out = s.out := rfl
@[simp] theorem State.raReleaseLine_free (s : State) : (s.raReleaseLine).free = s.free := rfl
@[simp] theorem State.raReleaseLine_pw (s : State) : (s.raReleaseLine).pw = s.pw := rfl
@[simp] theorem State.raReleaseLine_mem (s : State) : (s.raReleaseLine).mem = s.mem := rfl
@[simp] theorem State.raReleaseLine_memEpoch (s : State) : (s.raReleaseLine).memEpoch = s.memEpoch := rfl
@[simp] theorem State.raReleaseLine_yardBad (s : State) : (s.raReleaseLine).yardBad = s.yardBad := rfl
@[simp] theorem State.raReleaseLine_poison (s : State) : (s.raReleaseLine).poison = s.poison := rfl
@[simp] theorem State.raReleaseLine_tb (s : State) : (s.raReleaseLine).tb = s.tb := rfl
@[simp] theorem State.raReleaseLine_cc (s : State) : (s.raReleaseLine).cc = s.cc := rfl
@[simp] theorem State.raReleaseLine_pkg (s : State) : (s.raReleaseLine).pkg = s.pkg := rfl
@[simp] theorem State.raReleaseLine_aliasEn (s : State) : (s.raReleaseLine).aliasEn = s.aliasEn := rfl
@[simp] theorem State.raReleaseLine_regions (s : State) : (s.raReleaseLine).regions = s.regions := rfl
@[simp] theorem State.raReleaseLine_cores (s : State) : (s.raReleaseLine).cores = s.cores := rfl
@[simp] theorem State.raReleaseLine_co (s : State) : (s.raReleaseLine).co = s.co := rfl
@[simp] theorem State.raReleaseLine_sems (s : State) : (s.raReleaseLine).sems = s.sems := rfl
@[simp] theorem State.raReleaseLine_semDies (s : State) : (s.raReleaseLine).semDies = s.semDies := rfl
@[simp] theorem State.raReleaseLine_dx (s : State) : (s.raReleaseLine).dx = s.dx := rfl
@[simp] theorem State.raReleaseLine_sb (s : State) : (s.raReleaseLine).sb = s.sb := rfl
@[simp] theorem State.raReleaseLine_tf (s : State) : (s.raReleaseLine).tf = s.tf := rfl
@[simp] theorem State.raReleaseLine_hi (s : State) : (s.raReleaseLine).hi = s.hi := rfl
@[simp] theorem State.raReleaseLine_queues (s : State) : (s.raReleaseLine).queues = s.queues := rfl
@[simp] theorem State.raReleaseLine_ml (s : State) : (s.raReleaseLine).ml = s.ml := rfl
@[simp] theorem State.raReleaseLine_ec (s : State) : (s.raReleaseLine).ec = s.ec := rfl
@[simp] theorem State.raReleaseLine_sd (s : State) : (s.raReleaseLine).sd = s.sd := rfl

/-! ## What an update reads back as -/

@[simp] theorem State.core_setCore_same (s : State) (c : Nat) (k : Core) : (s.setCore c k).core c = k := by
  simp [State.core, State.setCore]

theorem State.core_setCore_other (s : State) (c d : Nat) (k : Core) (h : d ≠ c) : (s.setCore c k).core d = s.core d := by
  simp [State.core, State.setCore, nget_nset_other _ _ _ _ _ h]

@[simp] theorem State.core_modCore_same (s : State) (c : Nat) (f : Core → Core) : (s.modCore c f).core c = f (s.core c) := by
  simp [State.modCore]

theorem State.core_modCore_other (s : State) (c d : Nat) (f : Core → Core) (h : d ≠ c) :
    (s.modCore c f).core d = s.core d := by
  simp [State.modCore, State.core_setCore_other _ _ _ _ h]

@[simp] theorem State.region_setRegion_same (s : State) (r : Nat) (g : Region) : (s.setRegion r g).region r = g := by
  simp [State.region, State.setRegion]

theorem State.region_setRegion_other (s : State) (r q : Nat) (g : Region) (h : q ≠ r) :
    (s.setRegion r g).region q = s.region q := by
  simp [State.region, State.setRegion, nget_nset_other _ _ _ _ _ h]

@[simp] theorem State.region_modRegion_same (s : State) (r : Nat) (f : Region → Region) :
    (s.modRegion r f).region r = f (s.region r) := by
  simp [State.modRegion]

theorem State.region_modRegion_other (s : State) (r q : Nat) (f : Region → Region) (h : q ≠ r) :
    (s.modRegion r f).region q = s.region q := by
  simp [State.modRegion, State.region_setRegion_other _ _ _ _ h]

@[simp] theorem State.sem_setSem_same (s : State) (i : Nat) (m : Sem) : (s.setSem i m).sem i = m := by
  simp [State.sem, State.setSem]

theorem State.sem_setSem_other (s : State) (i j : Nat) (m : Sem) (h : j ≠ i) : (s.setSem i m).sem j = s.sem j := by
  simp [State.sem, State.setSem, nget_nset_other _ _ _ _ _ h]

@[simp] theorem State.queue_setQueue_same (s : State) (q : Nat) (k : Queue) : (s.setQueue q k).queue q = k := by
  simp [State.queue, State.setQueue]

@[simp] theorem State.port_setPort_same (s : State) (p : Nat) (k : Port) : (s.setPort p k).port p = k := by
  simp [State.port, State.setPort]

theorem State.port_setPort_other (s : State) (p q : Nat) (k : Port) (h : q ≠ p) : (s.setPort p k).port q = s.port q := by
  simp [State.port, State.setPort, nget_nset_other _ _ _ _ _ h]

end Sys2Proof.Machine
end

