-- ==== Sys2Proof/Laws/Memory.lean ====
section
/-!
SUPPORT. What the operations over the byte memory can do: each keeps the canonical form,
a byte reads as it was written, and every other byte reads as before.
-/
namespace Sys2Proof.Machine

/-! ## Rising keys -/

theorem rising_cons {α : Type} (p : Nat × α) (t : List (Nat × α)) :
    rising (p :: t) = true ↔ (∀ q, t.head? = some q → p.1 < q.1) ∧ rising t = true := by
  obtain ⟨a, v⟩ := p
  cases t with
  | nil => simp [rising]
  | cons q r => simp [rising]

/-- Keys of a rising table lie above its first key. -/
theorem rising_above {α : Type} {p : Nat × α} {t : List (Nat × α)} (h : rising (p :: t) = true) :
    ∀ q ∈ t, p.1 < q.1 := by
  induction t generalizing p with
  | nil => simp
  | cons r t ih =>
    obtain ⟨h1, h2⟩ := (rising_cons p (r :: t)).1 h
    have hr := h1 r rfl
    intro q hq
    rcases List.mem_cons.1 hq with rfl | hq
    · exact hr
    · exact Nat.lt_trans hr (ih h2 q hq)

/-- A table whose keys lie above `p` stays rising with `p` in front. -/
theorem rising_of_above {α : Type} {p : Nat × α} {t : List (Nat × α)} (h : rising t = true)
    (hp : ∀ q ∈ t, p.1 < q.1) : rising (p :: t) = true :=
  (rising_cons p t).2 ⟨fun q hq => hp q (by cases t <;> simp_all), h⟩

theorem rising_tail {α : Type} {p : Nat × α} {t : List (Nat × α)} (h : rising (p :: t) = true) : rising t = true :=
  ((rising_cons p t).1 h).2

theorem mem_nset {α : Type} {k : Nat} {v : α} {m : NMap α} {q : Nat × α} (h : q ∈ nset k v m) :
    q = (k, v) ∨ q ∈ m := by
  induction m with
  | nil => simpa [nset] using h
  | cons p t ih =>
    obtain ⟨a, w⟩ := p
    unfold nset at h
    split at h
    · simpa using h
    · split at h
      · rcases List.mem_cons.1 h with h | h <;> simp [h]
      · rcases List.mem_cons.1 h with h | h
        · simp [h]
        · rcases ih h with h | h <;> simp [h]

theorem rising_nset {α : Type} (k : Nat) (v : α) {m : NMap α} (h : rising m = true) : rising (nset k v m) = true := by
  induction m with
  | nil => rfl
  | cons p t ih =>
    obtain ⟨a, w⟩ := p
    have above := rising_above h
    unfold nset
    split
    · next hk => exact rising_of_above h (by
        intro q hq
        rcases List.mem_cons.1 hq with rfl | hq
        · exact hk
        · exact Nat.lt_trans hk (above q hq))
    · split
      · next hk => subst hk; exact rising_of_above (rising_tail h) above
      · next h1 h2 => exact rising_of_above (ih (rising_tail h)) (by
          intro q hq
          rcases mem_nset hq with rfl | hq
          · show a < k; omega
          · exact above q hq)

theorem mem_nerase {α : Type} {k : Nat} {m : NMap α} {q : Nat × α} (h : q ∈ nerase k m) : q ∈ m := by
  induction m with
  | nil => simp [nerase] at h
  | cons p t ih =>
    obtain ⟨a, w⟩ := p
    unfold nerase at h
    split at h
    · simp [h]
    · rcases List.mem_cons.1 h with h | h
      · simp [h]
      · simp [ih h]

theorem rising_nerase {α : Type} (k : Nat) {m : NMap α} (h : rising m = true) : rising (nerase k m) = true := by
  induction m with
  | nil => rfl
  | cons p t ih =>
    obtain ⟨a, w⟩ := p
    unfold nerase
    split
    · exact rising_tail h
    · exact rising_of_above (ih (rising_tail h)) fun q hq => rising_above h q (mem_nerase hq)

theorem rising_filter {α : Type} (f : Nat × α → Bool) {m : NMap α} (h : rising m = true) : rising (m.filter f) = true := by
  induction m with
  | nil => rfl
  | cons p t ih =>
    rw [List.filter_cons]
    split
    · exact rising_of_above (ih (rising_tail h)) fun q hq => rising_above h q (List.mem_filter.1 hq).1
    · exact ih (rising_tail h)

/-- A key of a rising table that lies below every entry is not listed. -/
theorem nfind_none_of_above {α : Type} {m : NMap α} {k : Nat} (h : ∀ q ∈ m, k < q.1) : nfind m k = none := by
  induction m with
  | nil => rfl
  | cons p t ih =>
    obtain ⟨a, w⟩ := p
    have := h (a, w) (by simp)
    simp only [nfind]
    rw [if_neg (by omega)]
    exact ih fun q hq => h q (by simp [hq])

theorem nfind_nset_other {α : Type} (m : NMap α) (k j : Nat) (v : α) (h : j ≠ k) : nfind (nset k v m) j = nfind m j := by
  induction m with
  | nil => simp [nset, nfind, Ne.symm h]
  | cons p t ih =>
    obtain ⟨a, w⟩ := p
    unfold nset
    split
    · simp [nfind, Ne.symm h]
    · split
      · subst_vars; simp [nfind, Ne.symm h]
      · simp only [nfind, ih]

theorem nfind_nerase_same {α : Type} {m : NMap α} (k : Nat) (h : rising m = true) : nfind (nerase k m) k = none := by
  induction m with
  | nil => rfl
  | cons p t ih =>
    obtain ⟨a, w⟩ := p
    unfold nerase
    split
    · next hk => subst hk; exact nfind_none_of_above (rising_above h)
    · next hk => simp only [nfind]; rw [if_neg hk]; exact ih (rising_tail h)

theorem nfind_nerase_other {α : Type} (m : NMap α) (k j : Nat) (h : j ≠ k) : nfind (nerase k m) j = nfind m j := by
  induction m with
  | nil => rfl
  | cons p t ih =>
    obtain ⟨a, w⟩ := p
    unfold nerase
    split
    · subst_vars; simp [nfind, Ne.symm h]
    · simp only [nfind, ih]

/-! ## One byte -/

theorem Memory.wf_iff (m : Memory) :
    m.wf = true ↔ rising m.cells = true ∧ (∀ p ∈ m.cells, m.blank p.1 ≠ some p.2) ∧ rangesWf m.zero = true := by
  simp [Memory.wf, Bool.and_eq_true, and_assoc]

theorem Memory.reset_wf : ({} : Memory).wf = true := rfl

/-- A write keeps the canonical form. -/
theorem Memory.write_wf {m : Memory} (a : Nat) (b : Byte) (h : m.wf = true) : (m.write a b).wf = true := by
  obtain ⟨h1, h2, h3⟩ := (Memory.wf_iff m).1 h
  rw [Memory.wf_iff]
  unfold Memory.write
  split
  · exact ⟨rising_nerase a h1, fun p hp => h2 p (mem_nerase hp), h3⟩
  · next hb => exact ⟨rising_nset a b h1, fun p hp => by
      rcases mem_nset hp with rfl | hp
      · exact hb
      · exact h2 p hp, h3⟩

/-- A written byte reads as written. -/
theorem Memory.read_write_same {m : Memory} (a : Nat) (b : Byte) (h : m.wf = true) : (m.write a b).read a = some b := by
  obtain ⟨h1, -, -⟩ := (Memory.wf_iff m).1 h
  unfold Memory.write
  split
  · next hb => simp only [Memory.read, nfind_nerase_same a h1]; exact hb
  · simp [Memory.read]

/-- A write leaves every other byte as it reads. -/
theorem Memory.read_write_other (m : Memory) (a c : Nat) (b : Byte) (h : c ≠ a) : (m.write a b).read c = m.read c := by
  unfold Memory.write
  split
  · simp only [Memory.read, nfind_nerase_other m.cells a c h]; rfl
  · simp only [Memory.read, nfind_nset_other m.cells a c b h]; rfl

/-! ## Several bytes -/

theorem Memory.writeN_wf {m : Memory} (a : Nat) (bs : List (Option Byte)) (h : m.wf = true) : (m.writeN a bs).wf = true := by
  induction bs generalizing m a with
  | nil => exact h
  | cons b t ih =>
    cases b with
    | none => exact ih (a + 1) h
    | some b => exact ih (a + 1) (Memory.write_wf a b h)

theorem Memory.read_writeN_outside (m : Memory) (a c : Nat) (bs : List (Option Byte)) (h : c < a ∨ a + bs.length ≤ c) :
    (m.writeN a bs).read c = m.read c := by
  induction bs generalizing m a with
  | nil => rfl
  | cons b t ih =>
    simp only [List.length_cons] at h
    cases b with
    | none => exact ih m (a + 1) (by omega)
    | some b => rw [Memory.writeN, ih _ (a + 1) (by omega), Memory.read_write_other m a c b (by omega)]

theorem Memory.read_writeN_at {m : Memory} (a : Nat) (bs : List (Option Byte)) (h : m.wf = true) (i : Nat)
    (hi : i < bs.length) : (m.writeN a bs).read (a + i) = match bs[i] with | some b => some b | none => m.read (a + i) := by
  induction bs generalizing m a i with
  | nil => simp at hi
  | cons b t ih =>
    cases i with
    | zero =>
      cases b with
      | none => simpa [Memory.writeN] using Memory.read_writeN_outside m (a + 1) a t (by omega)
      | some b =>
        rw [Memory.writeN, Memory.read_writeN_outside _ (a + 1) (a + 0) t (by omega)]
        simpa using Memory.read_write_same a b h
    | succ i =>
      have hi' : i < t.length := by simpa using hi
      have e : a + (i + 1) = a + 1 + i := by omega
      cases b with
      | none => rw [Memory.writeN, e, ih (a + 1) h i hi']; simp
      | some b =>
        rw [Memory.writeN, e, ih (a + 1) (Memory.write_wf a b h) i hi']
        simp only [List.getElem_cons_succ]
        cases t[i] with
        | some c => rfl
        | none => exact Memory.read_write_other m a (a + 1 + i) b (by omega)

/-! ## Cleared ranges -/

theorem rangesWf_cons (p : Nat × Nat) (t : List (Nat × Nat)) :
    rangesWf (p :: t) = true ↔ p.1 < p.2 ∧ (∀ q, t.head? = some q → p.2 < q.1) ∧ rangesWf t = true := by
  obtain ⟨a, b⟩ := p
  cases t with
  | nil => simp [rangesWf]
  | cons q r => simp [rangesWf, and_assoc]

/-- After joining, the first range begins no lower than the new one or the first old one. -/
theorem addRange_head (lo hi : Nat) (l : List (Nat × Nat)) (x : Nat) (hx : x < lo) (hw : rangesWf l = true)
    (hl : ∀ q, l.head? = some q → x < q.1) : ∀ q, (addRange lo hi l).head? = some q → x < q.1 := by
  induction l generalizing lo hi with
  | nil => intro q hq; simp [addRange] at hq; subst hq; exact hx
  | cons p t ih =>
    obtain ⟨a, b⟩ := p
    obtain ⟨h1, h2, h3⟩ := (rangesWf_cons (a, b) t).1 hw
    have ha : x < a := hl (a, b) rfl
    have hab : a < b := h1
    intro q hq
    unfold addRange at hq
    split at hq
    · simp at hq; subst hq; exact hx
    · split at hq
      · simp at hq; subst hq; exact ha
      · refine ih (min lo a) (max hi b) (by omega) h3 (fun r hr => ?_) q hq
        have : b < r.1 := h2 r hr
        omega

theorem addRange_wf {lo hi : Nat} {l : List (Nat × Nat)} (h : lo < hi) (hw : rangesWf l = true) :
    rangesWf (addRange lo hi l) = true := by
  induction l generalizing lo hi with
  | nil => simpa [addRange, rangesWf] using h
  | cons p t ih =>
    obtain ⟨a, b⟩ := p
    obtain ⟨h1, h2, h3⟩ := (rangesWf_cons (a, b) t).1 hw
    have hab : a < b := h1
    unfold addRange
    split
    · next hh => exact (rangesWf_cons _ _).2 ⟨h, fun q hq => by simp at hq; subst hq; exact hh, hw⟩
    · split
      · next hh => exact (rangesWf_cons _ _).2 ⟨h1, addRange_head lo hi t b hh h3 h2, ih h h3⟩
      · exact ih (by omega) h3

/-- The ranges after joining cover what the old ones and the new one cover. -/
theorem mem_addRange {lo hi : Nat} {l : List (Nat × Nat)} (h : lo < hi) (hw : rangesWf l = true) (a : Nat) :
    (addRange lo hi l).any (fun r => decide (r.1 ≤ a) && decide (a < r.2))
      = (decide (lo ≤ a) && decide (a < hi) || l.any (fun r => decide (r.1 ≤ a) && decide (a < r.2))) := by
  induction l generalizing lo hi with
  | nil => simp [addRange]
  | cons p t ih =>
    obtain ⟨c, d⟩ := p
    obtain ⟨h1, -, h3⟩ := (rangesWf_cons (c, d) t).1 hw
    have hcd : c < d := h1
    unfold addRange
    split
    · rfl
    · split
      · rw [List.any_cons, ih h h3, List.any_cons, Bool.or_left_comm]
      · next hn hm =>
        rw [ih (by omega) h3, List.any_cons, ← Bool.or_assoc]
        congr 1
        rw [Bool.eq_iff_iff]
        simp only [Bool.and_eq_true, Bool.or_eq_true, decide_eq_true_eq]
        omega

theorem Memory.clear_wf {m : Memory} (lo hi : Nat) (h : m.wf = true) : (m.clear lo hi).wf = true := by
  unfold Memory.clear
  split
  · next hlt =>
    obtain ⟨h1, h2, h3⟩ := (Memory.wf_iff m).1 h
    refine (Memory.wf_iff _).2 ⟨rising_filter _ h1, fun p hp => ?_, addRange_wf hlt h3⟩
    obtain ⟨hp, hout⟩ := List.mem_filter.1 hp
    have := h2 p hp
    simp only [Memory.blank, mem_addRange hlt h3] at this ⊢
    have e : (decide (lo ≤ p.1) && decide (p.1 < hi)) = false := by
      simp only [Bool.or_eq_true, decide_eq_true_eq] at hout
      simp only [Bool.and_eq_false_iff, decide_eq_false_iff_not]
      omega
    rw [e, Bool.false_or]
    exact this
  · exact h

theorem nfind_filter_in {α : Type} {m : NMap α} {k : Nat} {f : Nat × α → Bool} (h : ∀ v, f (k, v) = true) :
    nfind (m.filter f) k = nfind m k := by
  induction m with
  | nil => rfl
  | cons p t ih =>
    obtain ⟨a, w⟩ := p
    rw [List.filter_cons]
    by_cases hk : a = k
    · subst hk; simp [h w, nfind]
    · split <;> simp [nfind, hk, ih]

theorem nfind_filter_out {α : Type} {m : NMap α} {k : Nat} {f : Nat × α → Bool} (h : ∀ v, f (k, v) = false) :
    nfind (m.filter f) k = none := by
  induction m with
  | nil => rfl
  | cons p t ih =>
    obtain ⟨a, w⟩ := p
    rw [List.filter_cons]
    split
    · next hf =>
      have hk : a ≠ k := by rintro rfl; simp [h w] at hf
      simp [nfind, hk, ih]
    · exact ih

/-- A cleared byte reads 0, and every other byte as before. -/
theorem Memory.read_clear {m : Memory} (lo hi a : Nat) (h : m.wf = true) :
    (m.clear lo hi).read a = if lo ≤ a ∧ a < hi then some 0 else m.read a := by
  obtain ⟨-, -, h3⟩ := (Memory.wf_iff m).1 h
  unfold Memory.clear
  split
  · next hlt =>
    simp only [Memory.read, Memory.blank, mem_addRange hlt h3]
    by_cases hin : lo ≤ a ∧ a < hi
    · rw [nfind_filter_out (by intro v; simp only [Bool.or_eq_false_iff, decide_eq_false_iff_not]; omega)]
      simp [hin]
    · rw [nfind_filter_in (by intro v; simp only [Bool.or_eq_true, decide_eq_true_eq]; omega)]
      have e : (decide (lo ≤ a) && decide (a < hi)) = false := by
        simp only [Bool.and_eq_false_iff, decide_eq_false_iff_not]; omega
      rw [if_neg hin, e, Bool.false_or]
  · rw [if_neg (by omega)]

end Sys2Proof.Machine
end

