-- ==== Sys2Proof/Laws/Ops.lean ====
section
/-!
SUPPORT. What the operations that every meaning is written with can do: the check of a
command, the reset that holds the device, events whose condition fails, searches, and bytes.
-/
namespace Sys2Proof.Machine

/-! ## Meanings -/

/-- A command that passes its check goes on, with its effect. -/
@[simp] theorem need_true (s : State) (f : State → State) : need true s f = .next (f s) := rfl

/-- A command that fails its check stops. -/
@[simp] theorem need_false (s : State) (f : State → State) : need false s f = .fault .noSuchUnit := rfl

theorem need_of {ok : Bool} (h : ok = true) (s : State) (f : State → State) : need ok s f = .next (f s) := if_pos h

/-- Where a command goes on, its check held and its effect is the next state. -/
theorem need_next {ok : Bool} {s t : State} {f : State → State} (h : need ok s f = .next t) : ok = true ∧ t = f s := by
  cases ok with
  | false => simp at h
  | true => simpa [eq_comm] using h

theorem whenUp_up {s : State} (h : s.pw.perst = true) (f : State → State) : whenUp s f = f s := if_pos h

theorem whenUp_down {s : State} (h : s.pw.perst = false) (f : State → State) : whenUp s f = s := by simp [whenUp, h]

@[simp] theorem onlyIf_true (f : State → State) (s : State) : onlyIf true f s = f s := rfl

@[simp] theorem onlyIf_false (f : State → State) (s : State) : onlyIf false f s = s := rfl

/-- What an effect and no effect both keep, an event of the device keeps. -/
theorem whenUp_keeps {p : State → Prop} {s : State} {f : State → State} (h : p s) (hf : p (f s)) : p (whenUp s f) := by
  unfold whenUp; split <;> assumption

theorem onlyIf_keeps {p : State → Prop} {ok : Bool} {s : State} {f : State → State} (h : p s) (hf : p (f s)) :
    p (onlyIf ok f s) := by
  unfold onlyIf; split <;> assumption

/-- What every change keeps, all of them in a row keep. -/
theorem forEach_keeps {α β : Type} {p : α → Prop} {l : List β} {f : β → α → α} {a : α} (h : p a)
    (hf : ∀ b ∈ l, ∀ a, p a → p (f b a)) : p (forEach l f a) := by
  unfold forEach
  induction l generalizing a with
  | nil => exact h
  | cons b t ih => exact ih (hf b (by simp) a h) fun c hc => hf c (by simp [hc])

theorem forN_keeps {α : Type} {p : α → Prop} {n : Nat} {f : Nat → α → α} {a : α} (h : p a)
    (hf : ∀ i, i < n → ∀ a, p a → p (f i a)) : p (forN n f a) := by
  induction n with
  | zero => exact h
  | succ n ih => exact hf n (by omega) _ (ih fun i hi => hf i (by omega))

/-! ## Lists -/

theorem nth_eq_getElem? {α : Type} (l : List α) (n : Nat) : nth l n = l[n]? := by
  induction l generalizing n with
  | nil => rfl
  | cons a t ih => cases n <;> simp [nth, ih]

theorem firstIf_eq_find? {α : Type} (p : α → Bool) (l : List α) : firstIf p l = l.find? p := by
  induction l with
  | nil => rfl
  | cons a t ih => simp only [firstIf, List.find?_cons, ih]; cases p a <;> rfl

/-- What is found is in the list and passes the test. -/
theorem firstIf_some {α : Type} {p : α → Bool} {l : List α} {a : α} (h : firstIf p l = some a) : a ∈ l ∧ p a = true := by
  rw [firstIf_eq_find?] at h
  exact ⟨List.mem_of_find?_eq_some h, List.find?_some h⟩

@[simp] theorem length_mapIf {α : Type} (p : α → Bool) (f : α → α) (l : List α) : (mapIf p f l).length = l.length := by
  simp [mapIf]

theorem mem_eraseFirst {α : Type} {p : α → Bool} {l : List α} {a : α} (h : a ∈ eraseFirst p l) : a ∈ l := by
  induction l with
  | nil => simp [eraseFirst] at h
  | cons b t ih =>
    unfold eraseFirst at h
    split at h
    · simp [h]
    · rcases List.mem_cons.1 h with h | h
      · simp [h]
      · simp [ih h]

/-! ## Bytes -/

@[simp] theorem length_toBytes (n x : Nat) : (toBytes n x).length = n := by
  induction n generalizing x with
  | zero => rfl
  | succ n ih => simp [toBytes, ih]

/-- A number is the number of its bytes, up to their width. -/
theorem ofBytes_toBytes (n x : Nat) : ofBytes (toBytes n x) = x % 256 ^ n := by
  induction n generalizing x with
  | zero => simp [toBytes, ofBytes, Nat.mod_one]
  | succ n ih =>
    simp only [toBytes, ofBytes, ih, BitVec.toNat_ofNat]
    rw [show (256 : Nat) ^ (n + 1) = 256 * 256 ^ n from Nat.pow_succ', Nat.mod_mul]

end Sys2Proof.Machine
end

