-- ==== Sys2Proof/Laws/Canonical.lean ====
section
/-!
SUPPORT. Every operation over the state keeps the canonical form of the memory: one lemma
for each.
-/
namespace Sys2Proof.Machine

/-! ## Results that hold a state -/

/-- The states that an answer holds have a canonical memory. -/
structure OptWf (o : Option State) : Prop where
  all : ∀ t, o = some t → t.mem.wf = true

theorem OptWf.none : OptWf .none := ⟨fun _ h => nomatch h⟩

theorem OptWf.some {s : State} (h : s.mem.wf = true) : OptWf (.some s) :=
  ⟨fun _ e => Option.some.inj e ▸ h⟩

theorem OptWf.use {o : Option State} {t : State} (e : o = .some t) (h : OptWf o) : t.mem.wf = true :=
  h.all t e

theorem OptWf.getD {o : Option State} {s : State} (h : OptWf o) (hs : s.mem.wf = true) : (o.getD s).mem.wf = true := by
  cases o with
  | none => exact hs
  | some t => exact h.all t rfl

theorem OptWf.map {o : Option State} {f : State → State} (h : OptWf o)
    (hf : ∀ t, t.mem.wf = true → (f t).mem.wf = true) : OptWf (o.map f) := by
  cases o with
  | none => exact OptWf.none
  | some t => exact OptWf.some (hf t (h.all t rfl))

theorem OptWf.bind {o : Option State} {f : State → Option State} (h : OptWf o)
    (hf : ∀ t, t.mem.wf = true → OptWf (f t)) : OptWf (o.bind f) := by
  cases o with
  | none => exact OptWf.none
  | some t => exact hf t (h.all t rfl)

theorem OptWf.setOf {α : Type} {o : Option α} {f : α → State} (hf : ∀ a, (f a).mem.wf = true) : OptWf (o.map f) := by
  cases o with
  | none => exact OptWf.none
  | some a => exact OptWf.some (hf a)

theorem OptWf.foldl {β : Type} {l : List β} {f : Option State → β → Option State} {o : Option State}
    (hf : ∀ r b, OptWf r → OptWf (f r b)) (h : OptWf o) : OptWf (l.foldl f o) := by
  induction l generalizing o with
  | nil => exact h
  | cons b t ih => exact ih (hf o b h)

/-- The same of an answer with a result beside the state. -/
structure OptWfFst {α : Type} (o : Option (State × α)) : Prop where
  all : ∀ t, o = some t → t.1.mem.wf = true

theorem OptWfFst.none {α : Type} : OptWfFst (α := α) .none := ⟨fun _ h => nomatch h⟩

theorem OptWfFst.some {α : Type} {p : State × α} (h : p.1.mem.wf = true) : OptWfFst (.some p) :=
  ⟨fun _ e => Option.some.inj e ▸ h⟩

theorem OptWfFst.use {α : Type} {o : Option (State × α)} {t : State × α} (e : o = .some t) (h : OptWfFst o) :
    t.1.mem.wf = true := h.all t e

/-- The same of the writes of a bundle. -/
structure OptWfW (o : Option Writing) : Prop where
  all : ∀ w, o = some w → w.s.mem.wf = true

theorem OptWfW.none : OptWfW .none := ⟨fun _ h => nomatch h⟩

theorem OptWfW.some {w : Writing} (h : w.s.mem.wf = true) : OptWfW (.some w) :=
  ⟨fun _ e => Option.some.inj e ▸ h⟩

theorem OptWfW.use {o : Option Writing} {w : Writing} (e : o = .some w) (h : OptWfW o) : w.s.mem.wf = true :=
  h.all w e

theorem OptWfW.foldl {β : Type} {l : List β} {f : Option Writing → β → Option Writing} {o : Option Writing}
    (hf : ∀ r b, OptWfW r → OptWfW (f r b)) (h : OptWfW o) : OptWfW (l.foldl f o) := by
  induction l generalizing o with
  | nil => exact h
  | cons b t ih => exact ih (hf o b h)

/-- The same of a fired trigger. -/
structure Fired.Wf (r : Fired) : Prop where
  all : ∀ s, (r = .ok s ∨ ∃ op, r = .partly s op) → s.mem.wf = true

theorem Fired.Wf.of_ok {s : State} (h : s.mem.wf = true) : (Fired.ok s).Wf := by
  constructor; rintro t (e | ⟨_, e⟩) <;> cases e; exact h

theorem Fired.Wf.of_partly {s : State} {op : Nat} (h : s.mem.wf = true) : (Fired.partly s op).Wf := by
  constructor; rintro t (e | ⟨_, e⟩) <;> cases e; exact h

theorem Fired.Wf.of_wait : Fired.wait.Wf := by
  constructor; rintro t (e | ⟨_, e⟩) <;> cases e

theorem Fired.Wf.of_fault {code addr : Nat} : (Fired.fault code addr).Wf := by
  constructor; rintro t (e | ⟨_, e⟩) <;> cases e

theorem Fired.Wf.ok {r : Fired} {s : State} (e : r = .ok s) (h : r.Wf) : s.mem.wf = true := h.all s (.inl e)

theorem Fired.Wf.partly {r : Fired} {s : State} {op : Nat} (e : r = .partly s op) (h : r.Wf) : s.mem.wf = true :=
  h.all s (.inr ⟨op, e⟩)

/-- The same of a return from an exception or interrupt. -/
structure RetiEnd.Wf (r : RetiEnd) : Prop where
  all : ∀ s, (r = .done s ∨ r = .chained s ∨ r = .halted s) → s.mem.wf = true

theorem RetiEnd.Wf.of_done {s : State} (h : s.mem.wf = true) : (RetiEnd.done s).Wf := by
  constructor; rintro t (e | e | e) <;> cases e; exact h

theorem RetiEnd.Wf.of_chained {s : State} (h : s.mem.wf = true) : (RetiEnd.chained s).Wf := by
  constructor; rintro t (e | e | e) <;> cases e; exact h

theorem RetiEnd.Wf.of_halted {s : State} (h : s.mem.wf = true) : (RetiEnd.halted s).Wf := by
  constructor; rintro t (e | e | e) <;> cases e; exact h

theorem RetiEnd.Wf.of_wait : RetiEnd.wait.Wf := by
  constructor; rintro t (e | e | e) <;> cases e

theorem RetiEnd.Wf.of_stackFault : RetiEnd.stackFault.Wf := by
  constructor; rintro t (e | e | e) <;> cases e

theorem RetiEnd.Wf.done {r : RetiEnd} {s : State} (e : r = .done s) (h : r.Wf) : s.mem.wf = true := h.all s (.inl e)

theorem RetiEnd.Wf.chained {r : RetiEnd} {s : State} (e : r = .chained s) (h : r.Wf) : s.mem.wf = true :=
  h.all s (.inr (.inl e))

theorem RetiEnd.Wf.halted {r : RetiEnd} {s : State} (e : r = .halted s) (h : r.Wf) : s.mem.wf = true :=
  h.all s (.inr (.inr e))

/-- The same of an attempt at a bundle. -/
structure Attempt.Wf (r : Attempt) : Prop where
  all : ∀ s, (∃ p n, r = .done s p n) ∨ r = .halted s ∨ (∃ op, r = .partly s op) → s.mem.wf = true

theorem Attempt.Wf.of_done {s : State} {p : List Pend} {n : Option (BitVec 11)} (h : s.mem.wf = true) :
    (Attempt.done s p n).Wf := by
  constructor; rintro t (⟨_, _, e⟩ | e | ⟨_, e⟩) <;> cases e; exact h

theorem Attempt.Wf.of_halted {s : State} (h : s.mem.wf = true) : (Attempt.halted s).Wf := by
  constructor; rintro t (⟨_, _, e⟩ | e | ⟨_, e⟩) <;> cases e; exact h

theorem Attempt.Wf.of_partly {s : State} {op : Nat} (h : s.mem.wf = true) : (Attempt.partly s op).Wf := by
  constructor; rintro t (⟨_, _, e⟩ | e | ⟨_, e⟩) <;> cases e; exact h

theorem Attempt.Wf.of_wait : Attempt.wait.Wf := by
  constructor; rintro t (⟨_, _, e⟩ | e | ⟨_, e⟩) <;> cases e

theorem Attempt.Wf.of_fault {a b c : Nat} {d : Bool} : (Attempt.fault a b c d).Wf := by
  constructor; rintro t (⟨_, _, e⟩ | e | ⟨_, e⟩) <;> cases e

theorem Attempt.Wf.done {r : Attempt} {s : State} {p : List Pend} {n : Option (BitVec 11)} (e : r = .done s p n)
    (h : r.Wf) : s.mem.wf = true := h.all s (.inl ⟨p, n, e⟩)

theorem Attempt.Wf.halted {r : Attempt} {s : State} (e : r = .halted s) (h : r.Wf) : s.mem.wf = true :=
  h.all s (.inr (.inl e))

theorem Attempt.Wf.partly {r : Attempt} {s : State} {op : Nat} (e : r = .partly s op) (h : r.Wf) : s.mem.wf = true :=
  h.all s (.inr (.inr ⟨op, e⟩))

/-- The same of a state with a result beside it. -/
structure FstWf {α : Type} (p : State × α) : Prop where
  fst : p.1.mem.wf = true

theorem FstWf.of {α : Type} {s : State} {x : α} (h : s.mem.wf = true) : FstWf (s, x) := ⟨h⟩

/-! ## Loops -/

/-- A tuple with a state in front. -/
theorem wf_mk {α : Type} {s : State} {x : α} (h : s.mem.wf = true) : (s, x).1.mem.wf = true := h

theorem wf_of_fst {β : Type} {p : State × β} {a : State} {b : β} (e : p = (a, b)) (h : p.1.mem.wf = true) :
    a.mem.wf = true := by subst e; exact h

theorem wf_forEach {β : Type} {l : List β} {f : β → State → State} {s : State}
    (hf : ∀ b t, t.mem.wf = true → (f b t).mem.wf = true) (h : s.mem.wf = true) : (forEach l f s).mem.wf = true :=
  forEach_keeps (p := fun s : State => s.mem.wf = true) h fun b _ t => hf b t

theorem wf_forN {n : Nat} {f : Nat → State → State} {s : State}
    (hf : ∀ i t, t.mem.wf = true → (f i t).mem.wf = true) (h : s.mem.wf = true) : (forN n f s).mem.wf = true :=
  forN_keeps (p := fun s : State => s.mem.wf = true) h fun i _ t => hf i t

theorem wf_foldl {β : Type} {l : List β} {f : State → β → State} {s : State}
    (hf : ∀ t b, t.mem.wf = true → (f t b).mem.wf = true) (h : s.mem.wf = true) : (l.foldl f s).mem.wf = true := by
  induction l generalizing s with
  | nil => exact h
  | cons b t ih => exact ih (hf s b h)

theorem wf_foldl1 {α β : Type} {l : List β} {f : State × α → β → State × α} {p : State × α}
    (hf : ∀ t b, t.1.mem.wf = true → (f t b).1.mem.wf = true) (h : p.1.mem.wf = true) :
    (l.foldl f p).1.mem.wf = true := by
  induction l generalizing p with
  | nil => exact h
  | cons b t ih => exact ih (hf p b h)

/-! ## Operations -/

theorem State.reset_wf : State.reset.mem.wf = true := rfl

theorem State.setQueue_wf (s : State) (q : Nat) (k : Queue) (hs : s.mem.wf = true) :
    (State.setQueue s q k).mem.wf = true := by
  unfold State.setQueue
  repeat' first
    | with_reducible assumption

theorem State.fresh_wf (s : State) (hs : s.mem.wf = true) :
    (State.fresh s).2.mem.wf = true := by
  unfold State.fresh
  repeat' first
    | with_reducible assumption

theorem State.setCore_wf (s : State) (c : Nat) (k : Core) (hs : s.mem.wf = true) :
    (State.setCore s c k).mem.wf = true := by
  unfold State.setCore
  repeat' first
    | with_reducible assumption

theorem State.setSem_wf (s : State) (i : Nat) (m : Sem) (hs : s.mem.wf = true) :
    (State.setSem s i m).mem.wf = true := by
  unfold State.setSem
  repeat' first
    | with_reducible assumption

theorem State.modCore_wf (s : State) (c : Nat) (f : Core → Core) (hs : s.mem.wf = true) :
    (State.modCore s c f).mem.wf = true := by
  unfold State.modCore
  repeat' first
    | with_reducible assumption
    | intro _
    | with_reducible apply State.setCore_wf

theorem State.emit_wf (s : State) (o : Output) (hs : s.mem.wf = true) :
    (State.emit s o).mem.wf = true := by
  unfold State.emit
  repeat' first
    | with_reducible assumption

theorem State.setPort_wf (s : State) (p : Nat) (k : Port) (hs : s.mem.wf = true) :
    (State.setPort s p k).mem.wf = true := by
  unfold State.setPort
  repeat' first
    | with_reducible assumption

theorem onlyIf_wf {ok : Bool} {f : State → State} {s : State} (h : s.mem.wf = true)
    (hf : ∀ t : State, t.mem.wf = true → (f t).mem.wf = true) : (onlyIf ok f s).mem.wf = true :=
  onlyIf_keeps (p := fun s : State => s.mem.wf = true) h (hf s h)

theorem State.setRegion_wf (s : State) (r : Nat) (g : Region) (hs : s.mem.wf = true) :
    (State.setRegion s r g).mem.wf = true := by
  unfold State.setRegion
  repeat' first
    | with_reducible assumption

theorem State.modRegion_wf (s : State) (r : Nat) (f : Region → Region) (hs : s.mem.wf = true) :
    (State.modRegion s r f).mem.wf = true := by
  unfold State.modRegion
  repeat' first
    | with_reducible assumption
    | intro _
    | with_reducible apply State.setRegion_wf

theorem State.setSemDie_wf (s : State) (d : Nat) (m : SemDie) (hs : s.mem.wf = true) :
    (State.setSemDie s d m).mem.wf = true := by
  unfold State.setSemDie
  repeat' first
    | with_reducible assumption

theorem State.modPort_wf (s : State) (p : Nat) (f : Port → Port) (hs : s.mem.wf = true) :
    (State.modPort s p f).mem.wf = true := by
  unfold State.modPort
  repeat' first
    | with_reducible assumption
    | intro _
    | with_reducible apply State.setPort_wf

theorem whenUp_wf {s : State} {f : State → State} (h : s.mem.wf = true)
    (hf : ∀ t : State, t.mem.wf = true → (f t).mem.wf = true) : (whenUp s f).mem.wf = true :=
  whenUp_keeps (p := fun s : State => s.mem.wf = true) h (hf s h)

theorem State.yardWriteWord_wf (s : State) (w : Nat) (lane : List (Option Byte)) (hs : s.mem.wf = true) :
    (State.yardWriteWord s w lane).1.mem.wf = true := by
  unfold State.yardWriteWord
  repeat' first
    | with_reducible assumption
    | intro _
    | with_reducible apply Memory.writeN_wf
    | (with_reducible refine wf_of_fst (by assumption) ?_)
    | dsimp only
    | split

theorem State.yardWrite_wf (s : State) (a : Nat) (bs : List (Option Byte)) (hs : s.mem.wf = true) :
    (State.yardWrite s a bs).1.mem.wf = true := by
  unfold State.yardWrite
  repeat' first
    | with_reducible assumption
    | intro _
    | with_reducible apply State.yardWriteWord_wf
    | (with_reducible refine wf_of_fst (by assumption) ?_)
    | with_reducible apply wf_foldl
    | with_reducible apply wf_foldl1

theorem State.yardStore_wf (s : State) (a : Nat) (n : Nat) (x : Nat) (hs : s.mem.wf = true) :
    (State.yardStore s a n x).1.mem.wf = true := by
  unfold State.yardStore
  repeat' first
    | with_reducible assumption
    | intro _
    | with_reducible apply State.yardWrite_wf

theorem State.alertLine_wf (s : State) (hs : s.mem.wf = true) :
    (State.alertLine s).mem.wf = true := by
  unfold State.alertLine
  repeat' first
    | with_reducible assumption

theorem State.alert_wf (s : State) (i : Nat) (hs : s.mem.wf = true) :
    (State.alert s i).mem.wf = true := by
  unfold State.alert
  repeat' first
    | with_reducible assumption
    | intro _
    | with_reducible apply State.alertLine_wf

theorem State.sendMsix_wf (s : State) (v : Nat) (hs : s.mem.wf = true) :
    (State.sendMsix s v).mem.wf = true := by
  unfold State.sendMsix
  repeat' first
    | with_reducible assumption
    | intro _
    | with_reducible apply State.emit_wf
    | dsimp only
    | split

theorem State.hostEvent_wf (s : State) (e : Nat) (hs : s.mem.wf = true) :
    (State.hostEvent s e).mem.wf = true := by
  unfold State.hostEvent
  repeat' first
    | with_reducible assumption
    | intro _
    | with_reducible apply State.sendMsix_wf
    | dsimp only
    | split

theorem State.notifyLog_wf (s : State) (sev : Nat) (hs : s.mem.wf = true) :
    (State.notifyLog s sev).mem.wf = true := by
  unfold State.notifyLog
  repeat' first
    | with_reducible assumption
    | intro _
    | with_reducible apply State.hostEvent_wf
    | dsimp only
    | split

theorem State.writeLog_wf (s : State) (e : LogEntry) (hs : s.mem.wf = true) :
    (State.writeLog s e).mem.wf = true := by
  unfold State.writeLog
  repeat' first
    | with_reducible assumption
    | intro _
    | with_reducible apply State.notifyLog_wf
    | dsimp only
    | split

theorem State.log_wf (s : State) (kind : Nat) (die : Nat) (region : Option Nat) (src : Source) (addr : Nat) (detail : Nat) (hs : s.mem.wf = true) :
    (State.log s kind die region src addr detail).mem.wf = true := by
  unfold State.log
  repeat' first
    | with_reducible assumption
    | intro _
    | with_reducible apply State.writeLog_wf

theorem State.hostFailure_wf (s : State) (read : Bool) (kind : Nat) (addr : Nat) (bar : Nat) (hs : s.mem.wf = true) :
    (State.hostFailure s read kind addr bar).mem.wf = true := by
  unfold State.hostFailure
  repeat' first
    | with_reducible assumption
    | intro _
    | with_reducible apply State.log_wf
    | with_reducible apply State.emit_wf
    | dsimp only
    | split

theorem State.corrected_wf (s : State) (i : Nat) (hs : s.mem.wf = true) :
    (State.corrected s i).mem.wf = true := by
  unfold State.corrected
  repeat' first
    | with_reducible assumption

theorem State.hostWrite_wf (s : State) (bus : Nat) (bs : List Byte) (poisoned : Bool) (hs : s.mem.wf = true) :
    (State.hostWrite s bus bs poisoned).mem.wf = true := by
  unfold State.hostWrite
  repeat' first
    | with_reducible assumption
    | intro _
    | with_reducible apply State.emit_wf
    | dsimp only
    | split

theorem State.enqueue_wf (s : State) (p : Nat) (cls : Bool) (k : Packet) (hs : s.mem.wf = true) :
    (State.enqueue s p cls k).mem.wf = true := by
  unfold State.enqueue
  repeat' first
    | with_reducible assumption
    | intro _
    | with_reducible apply State.modPort_wf

theorem State.launch_wf (s : State) (vc : Nat) (dest : Nat) (ptype : Nat) (op : LinkOp) (addr : Nat) (id : Nat) (carry : Bool) (payload : List Byte) (hs : s.mem.wf = true) :
    OptWf (State.launch s vc dest ptype op addr id carry payload) := by
  unfold State.launch
  repeat' first
    | with_reducible assumption
    | intro _
    | with_reducible apply State.enqueue_wf
    | with_reducible apply OptWf.some
    | with_reducible exact OptWf.none
    | with_reducible apply OptWf.map
    | with_reducible apply OptWf.setOf
    | with_reducible apply OptWf.bind
    | (with_reducible refine OptWf.use (by assumption) ?_)
    | with_reducible apply OptWf.getD
    | dsimp only
    | split

theorem State.request_wf (s : State) (vc dest : Nat) (op : LinkOp) (addr : Nat) (carry : Bool) (payload : List Byte)
    (w : Pending) (hw : s.mem.wf = true) : OptWf (s.request vc dest op addr carry payload w) := by
  unfold State.request
  dsimp -proj only
  split
  · next t e =>
    have h1 : t.mem.wf = true := OptWf.use e (State.launch_wf _ _ _ _ _ _ _ _ _ (State.fresh_wf s hw))
    exact OptWf.some h1
  · exact OptWf.none

theorem State.dropPacket_wf (s : State) (dest : Nat) (hs : s.mem.wf = true) :
    (State.dropPacket s dest).mem.wf = true := by
  unfold State.dropPacket
  repeat' first
    | with_reducible assumption
    | intro _
    | with_reducible apply State.log_wf

theorem State.answer_wf (s : State) (dest : Nat) (addr : Nat) (id : Nat) (st : RespStatus) (payload : List Byte) (hs : s.mem.wf = true) :
    (State.answer s dest addr id st payload).mem.wf = true := by
  unfold State.answer
  repeat' first
    | with_reducible assumption
    | intro _
    | with_reducible apply State.dropPacket_wf
    | with_reducible apply State.launch_wf
    | with_reducible apply OptWf.some
    | with_reducible exact OptWf.none
    | with_reducible apply OptWf.map
    | with_reducible apply OptWf.setOf
    | with_reducible apply OptWf.bind
    | (with_reducible refine OptWf.use (by assumption) ?_)
    | with_reducible apply OptWf.getD
    | dsimp only
    | split

theorem State.countNoRoute_wf (s : State) (hs : s.mem.wf = true) :
    (State.countNoRoute s).mem.wf = true := by
  unfold State.countNoRoute
  repeat' first
    | with_reducible assumption

theorem State.semDone_wf (s : State) (sem : Nat) (status : Nat) (hs : s.mem.wf = true) :
    (State.semDone s sem status).1.mem.wf = true := by
  unfold State.semDone
  repeat' first
    | with_reducible assumption

theorem State.semRelease_wf (s : State) (sem : Nat) (caller : Source) (pkg : Option Nat) (hs : s.mem.wf = true) :
    (State.semRelease s sem caller pkg).1.mem.wf = true := by
  unfold State.semRelease
  repeat' first
    | with_reducible assumption
    | intro _
    | with_reducible apply State.setSem_wf
    | with_reducible apply State.semDone_wf
    | (with_reducible refine wf_of_fst (by assumption) ?_)
    | dsimp only
    | split

theorem State.semClaim_wf (s : State) (sem : Nat) (caller : Source) (pkg : Option Nat) (hs : s.mem.wf = true) :
    (State.semClaim s sem caller pkg).1.mem.wf = true := by
  unfold State.semClaim
  repeat' first
    | with_reducible assumption
    | intro _
    | with_reducible apply State.setSem_wf
    | with_reducible apply State.semDone_wf
    | (with_reducible refine wf_of_fst (by assumption) ?_)
    | dsimp only
    | split

theorem State.wake_wf (s : State) (sem : Nat) (w : Waiter) (result : W64) (hs : s.mem.wf = true) :
    (State.wake s sem w result).mem.wf = true := by
  unfold State.wake
  repeat' first
    | with_reducible assumption
    | intro _
    | with_reducible apply State.modCore_wf
    | with_reducible apply State.answer_wf
    | dsimp only
    | split

theorem State.semServe_wf (s : State) (sem : Nat) (hs : s.mem.wf = true) :
    (State.semServe s sem).mem.wf = true := by
  unfold State.semServe
  repeat' first
    | with_reducible assumption
    | intro _
    | with_reducible apply State.setSem_wf
    | with_reducible apply State.wake_wf
    | with_reducible apply wf_forEach

theorem State.semTimeoutAt_wf (s : State) (sem : Nat) (d : W64) (hs : s.mem.wf = true) :
    (State.semTimeoutAt s sem d).mem.wf = true := by
  unfold State.semTimeoutAt
  repeat' first
    | with_reducible assumption
    | intro _
    | with_reducible apply State.setSem_wf
    | with_reducible apply State.wake_wf
    | with_reducible apply State.semServe_wf
    | with_reducible apply wf_forEach

theorem State.semExpireN_wf (n sem : Nat) (s : State) (hw : s.mem.wf = true) :
    (State.semExpireN n sem s).mem.wf = true := by
  induction n generalizing s with
  | zero => exact hw
  | succ n ih =>
    unfold State.semExpireN
    split
    · exact ih _ (State.semTimeoutAt_wf _ _ _ hw)
    · exact hw

theorem State.semExpire_wf (s : State) (sem : Nat) (hs : s.mem.wf = true) :
    (State.semExpire s sem).mem.wf = true := by
  unfold State.semExpire
  repeat' first
    | with_reducible assumption
    | intro _
    | with_reducible apply State.semExpireN_wf

theorem State.semNotify_wf (s : State) (sem : Nat) (hs : s.mem.wf = true) :
    (State.semNotify s sem).mem.wf = true := by
  unfold State.semNotify
  repeat' first
    | with_reducible assumption
    | intro _
    | with_reducible apply State.hostWrite_wf
    | with_reducible apply State.sendMsix_wf
    | with_reducible apply State.setSem_wf
    | dsimp only
    | split

theorem State.semCount_wf (s : State) (sem : Nat) (v : W32) (hs : s.mem.wf = true) :
    (State.semCount s sem v).mem.wf = true := by
  unfold State.semCount
  repeat' first
    | with_reducible assumption
    | intro _
    | with_reducible apply State.setSem_wf
    | with_reducible apply State.semNotify_wf
    | with_reducible apply State.semServe_wf
    | dsimp only
    | split

theorem State.semRevive_wf (s : State) (sem : Nat) (v : W32) (hs : s.mem.wf = true) :
    (State.semRevive s sem v).1.mem.wf = true := by
  unfold State.semRevive
  repeat' first
    | with_reducible assumption
    | intro _
    | with_reducible apply State.setSem_wf
    | with_reducible apply State.semCount_wf
    | with_reducible apply State.semExpire_wf
    | with_reducible apply State.semDone_wf

theorem State.reviveRange_wf (s : State) (r : Nat) (d : Decl) (hs : s.mem.wf = true) :
    (State.reviveRange s r d).mem.wf = true := by
  unfold State.reviveRange
  repeat' first
    | with_reducible assumption
    | intro _
    | with_reducible apply State.semRevive_wf
    | (with_reducible refine wf_of_fst (by assumption) ?_)
    | with_reducible apply wf_forEach
    | dsimp only
    | split

theorem State.semSignal_wf (s : State) (sem : Nat) (caller : Source) (n : Nat) (hs : s.mem.wf = true) :
    (State.semSignal s sem caller n).1.mem.wf = true := by
  unfold State.semSignal
  repeat' first
    | with_reducible assumption
    | intro _
    | with_reducible apply State.setSem_wf
    | with_reducible apply State.semCount_wf
    | with_reducible apply State.semExpire_wf
    | with_reducible apply State.semDone_wf
    | (with_reducible refine wf_of_fst (by assumption) ?_)
    | dsimp only
    | split

theorem State.semTake_wf (s : State) (sem : Nat) (n : Nat) (hs : s.mem.wf = true) :
    OptWfFst (State.semTake s sem n) := by
  unfold State.semTake
  repeat' first
    | with_reducible assumption
    | intro _
    | with_reducible apply State.setSem_wf
    | with_reducible apply State.semDone_wf
    | (with_reducible refine wf_of_fst (by assumption) ?_)
    | with_reducible exact OptWfFst.none
    | with_reducible apply OptWfFst.some
    | (with_reducible refine OptWfFst.use (by assumption) ?_)
    | dsimp only
    | split

theorem State.semTry_wf (s : State) (sem : Nat) (n : Nat) (hs : s.mem.wf = true) :
    (State.semTry s sem n).1.mem.wf = true := by
  unfold State.semTry
  repeat' first
    | with_reducible assumption
    | intro _
    | with_reducible apply State.semExpire_wf
    | with_reducible apply State.semDone_wf
    | with_reducible apply State.semTake_wf
    | (with_reducible refine wf_of_fst (by assumption) ?_)
    | with_reducible exact OptWfFst.none
    | with_reducible apply OptWfFst.some
    | (with_reducible refine OptWfFst.use (by assumption) ?_)
    | dsimp only
    | split

theorem State.semAbandon_wf (s : State) (sem : Nat) (hs : s.mem.wf = true) :
    (State.semAbandon s sem).mem.wf = true := by
  unfold State.semAbandon
  repeat' first
    | with_reducible assumption
    | intro _
    | with_reducible apply State.setSem_wf
    | with_reducible apply State.wake_wf
    | with_reducible apply State.semNotify_wf
    | with_reducible apply State.semExpire_wf
    | with_reducible apply wf_forEach
    | dsimp only
    | split

theorem State.semWithdraw_wf (s : State) (sem : Nat) (c : Nat) (id : Nat) (hs : s.mem.wf = true) :
    (State.semWithdraw s sem c id).1.mem.wf = true := by
  unfold State.semWithdraw
  repeat' first
    | with_reducible assumption
    | intro _
    | with_reducible apply State.setSem_wf
    | with_reducible apply State.semServe_wf
    | with_reducible apply State.semExpire_wf
    | (with_reducible refine wf_of_fst (by assumption) ?_)
    | dsimp only
    | split

theorem State.abandonOwned_wf (s : State) (r : Nat) (hs : s.mem.wf = true) :
    (State.abandonOwned s r).mem.wf = true := by
  unfold State.abandonOwned
  repeat' first
    | with_reducible assumption
    | intro _
    | with_reducible apply State.semAbandon_wf
    | with_reducible apply wf_forEach
    | dsimp only
    | split

theorem State.withdrawRemote_wf (s : State) (r : Nat) (hs : s.mem.wf = true) :
    (State.withdrawRemote s r).mem.wf = true := by
  unfold State.withdrawRemote
  repeat' first
    | with_reducible assumption
    | intro _
    | with_reducible apply State.launch_wf
    | with_reducible apply OptWf.some
    | with_reducible exact OptWf.none
    | with_reducible apply OptWf.map
    | with_reducible apply OptWf.setOf
    | with_reducible apply OptWf.bind
    | (with_reducible refine OptWf.use (by assumption) ?_)
    | with_reducible apply OptWf.getD
    | with_reducible apply wf_forEach

theorem State.dropWaiters_wf (s : State) (r : Nat) (hs : s.mem.wf = true) :
    (State.dropWaiters s r).mem.wf = true := by
  unfold State.dropWaiters
  repeat' first
    | with_reducible assumption
    | intro _
    | with_reducible apply State.setSem_wf
    | with_reducible apply State.semServe_wf
    | with_reducible apply State.semExpire_wf
    | with_reducible apply State.withdrawRemote_wf
    | with_reducible apply wf_forEach
    | dsimp only
    | split

theorem State.semWait_wf (s : State) (sem : Nat) (w : Waiter) (hs : s.mem.wf = true) :
    (State.semWait s sem w).1.mem.wf = true := by
  unfold State.semWait
  repeat' first
    | with_reducible assumption
    | intro _
    | with_reducible apply State.setSem_wf
    | with_reducible apply State.setSemDie_wf
    | with_reducible apply State.semExpire_wf
    | with_reducible apply State.semDone_wf
    | with_reducible apply State.semTake_wf
    | (with_reducible refine wf_of_fst (by assumption) ?_)
    | with_reducible exact OptWfFst.none
    | with_reducible apply OptWfFst.some
    | (with_reducible refine OptWfFst.use (by assumption) ?_)
    | dsimp only
    | split

theorem State.semInit_wf (s : State) (sem : Nat) (v : W32) (hs : s.mem.wf = true) :
    (State.semInit s sem v).1.mem.wf = true := by
  unfold State.semInit
  repeat' first
    | with_reducible assumption
    | intro _
    | with_reducible apply State.semCount_wf
    | with_reducible apply State.semExpire_wf
    | with_reducible apply State.semDone_wf

theorem State.semOperate_wf (s : State) (sem : Nat) (port : Nat) (w : Waiter) (v : W64) (hs : s.mem.wf = true) :
    (State.semOperate s sem port w v).1.mem.wf = true := by
  unfold State.semOperate
  repeat' first
    | with_reducible assumption
    | intro _
    | with_reducible apply State.semExpire_wf
    | with_reducible apply State.semSignal_wf
    | with_reducible apply State.semWait_wf
    | with_reducible apply State.semTry_wf
    | with_reducible apply State.semClaim_wf
    | with_reducible apply State.semRelease_wf
    | with_reducible apply State.semRevive_wf
    | with_reducible apply State.semInit_wf
    | (with_reducible refine wf_of_fst (by assumption) ?_)
    | dsimp only
    | split

theorem State.setHolders_wf (s : State) (line : Nat) (h : List (Nat × LineSt)) (hs : s.mem.wf = true) :
    (State.setHolders s line h).mem.wf = true := by
  unfold State.setHolders
  repeat' first
    | with_reducible assumption

theorem State.dropDieL1_wf (s : State) (die : Nat) (line : Nat) (hs : s.mem.wf = true) :
    (State.dropDieL1 s die line).mem.wf = true := by
  unfold State.dropDieL1
  repeat' first
    | with_reducible assumption

theorem State.markPoison_wf (s : State) (line : Nat) (bad : Bool) (hs : s.mem.wf = true) :
    (State.markPoison s line bad).mem.wf = true := by
  unfold State.markPoison
  repeat' first
    | with_reducible assumption

theorem State.hbmWriteLine_wf (s : State) (line : Nat) (d : LineData) (bad : Bool) (hs : s.mem.wf = true) :
    (State.hbmWriteLine s line d bad).mem.wf = true := by
  unfold State.hbmWriteLine
  repeat' first
    | with_reducible assumption
    | intro _
    | with_reducible apply State.markPoison_wf
    | with_reducible apply Memory.writeN_wf

theorem State.setSiding_wf (s : State) (slice : Nat) (l : List Siding) (hs : s.mem.wf = true) :
    (State.setSiding s slice l).mem.wf = true := by
  unfold State.setSiding
  repeat' first
    | with_reducible assumption

theorem State.setLine_wf (s : State) (key : Nat) (l : Line) (hs : s.mem.wf = true) :
    (State.setLine s key l).mem.wf = true := by
  unfold State.setLine
  repeat' first
    | with_reducible assumption

theorem State.dropLine_wf (s : State) (key : Nat) (hs : s.mem.wf = true) :
    (State.dropLine s key).mem.wf = true := by
  unfold State.dropLine
  repeat' first
    | with_reducible assumption

theorem State.holdAs_wf (s : State) (slice : Nat) (line : Nat) (st : LineSt) (hs : s.mem.wf = true) :
    (State.holdAs s slice line st).mem.wf = true := by
  unfold State.holdAs
  repeat' first
    | with_reducible assumption
    | intro _
    | with_reducible apply State.setHolders_wf

theorem State.holdNot_wf (s : State) (slice : Nat) (line : Nat) (hs : s.mem.wf = true) :
    (State.holdNot s slice line).mem.wf = true := by
  unfold State.holdNot
  repeat' first
    | with_reducible assumption
    | intro _
    | with_reducible apply State.setHolders_wf

theorem State.retireEntry_wf (s : State) (slice : Nat) (line : Nat) (hs : s.mem.wf = true) :
    (State.retireEntry s slice line).mem.wf = true := by
  unfold State.retireEntry
  repeat' first
    | with_reducible assumption
    | intro _
    | with_reducible apply State.setSiding_wf

theorem State.yieldLine_wf (s : State) (slice : Nat) (line : Nat) (m : ProbeMode) (hs : s.mem.wf = true) :
    (State.yieldLine s slice line m).1.mem.wf = true := by
  unfold State.yieldLine
  repeat' first
    | with_reducible assumption
    | intro _
    | with_reducible apply State.setLine_wf
    | with_reducible apply State.dropLine_wf
    | with_reducible apply State.setSiding_wf
    | with_reducible apply State.dropDieL1_wf
    | with_reducible apply State.holdAs_wf
    | with_reducible apply State.holdNot_wf
    | with_reducible apply State.retireEntry_wf
    | (with_reducible refine wf_of_fst (by assumption) ?_)
    | dsimp only
    | split

theorem State.notePeak_wf (s : State) (agent : Nat) (n : Nat) (hs : s.mem.wf = true) :
    (State.notePeak s agent n).mem.wf = true := by
  unfold State.notePeak
  repeat' first
    | with_reducible assumption
    | intro _
    | dsimp only
    | split

theorem State.countProbes_wf (s : State) (agent : Nat) (n : Nat) (hs : s.mem.wf = true) :
    (State.countProbes s agent n).mem.wf = true := by
  unfold State.countProbes
  repeat' first
    | with_reducible assumption
    | intro _
    | dsimp only
    | split

theorem State.recallLine_wf (s : State) (line : Nat) (remove : Bool) (hs : s.mem.wf = true) :
    (State.recallLine s line remove).1.mem.wf = true := by
  unfold State.recallLine
  repeat' first
    | with_reducible assumption
    | intro _
    | with_reducible apply State.hbmWriteLine_wf
    | with_reducible apply State.yieldLine_wf
    | with_reducible apply State.notePeak_wf
    | with_reducible apply State.countProbes_wf
    | (with_reducible refine wf_of_fst (by assumption) ?_)
    | with_reducible apply wf_forEach
    | dsimp only
    | split

theorem State.bypassReadLine_wf (s : State) (line : Nat) (hs : s.mem.wf = true) :
    (State.bypassReadLine s line).1.mem.wf = true := by
  unfold State.bypassReadLine
  repeat' first
    | with_reducible assumption
    | intro _
    | with_reducible apply State.recallLine_wf

theorem State.bypassRead_wf (s : State) (a : Nat) (n : Nat) (hs : s.mem.wf = true) :
    (State.bypassRead s a n).1.mem.wf = true := by
  unfold State.bypassRead
  repeat' first
    | with_reducible assumption
    | intro _
    | with_reducible apply State.bypassReadLine_wf
    | (with_reducible refine wf_of_fst (by assumption) ?_)
    | with_reducible apply wf_foldl
    | with_reducible apply wf_foldl1

theorem State.dropL1_wf (s : State) (line : Nat) (keep : Option Nat) (hs : s.mem.wf = true) :
    (State.dropL1 s line keep).mem.wf = true := by
  unfold State.dropL1
  repeat' first
    | with_reducible assumption

theorem State.bypassWriteLine_wf (s : State) (line : Nat) (d : LineData) (mark : Bool) (hs : s.mem.wf = true) :
    (State.bypassWriteLine s line d mark).mem.wf = true := by
  unfold State.bypassWriteLine
  repeat' first
    | with_reducible assumption
    | intro _
    | with_reducible apply State.hbmWriteLine_wf
    | with_reducible apply State.dropL1_wf
    | with_reducible apply State.recallLine_wf

theorem State.bypassWrite_wf (s : State) (a : Nat) (bs : List (Option Byte)) (mark : Bool) (hs : s.mem.wf = true) :
    (State.bypassWrite s a bs mark).mem.wf = true := by
  unfold State.bypassWrite
  repeat' first
    | with_reducible assumption
    | intro _
    | with_reducible apply State.bypassWriteLine_wf
    | with_reducible apply wf_forEach

theorem State.readEntry_wf (s : State) (a : Nat) (hs : s.mem.wf = true) :
    (State.readEntry s a).1.mem.wf = true := by
  unfold State.readEntry
  repeat' first
    | with_reducible assumption
    | intro _
    | with_reducible apply State.bypassRead_wf

theorem State.depotClear_wf (s : State) (hs : s.mem.wf = true) :
    (State.depotClear s).mem.wf = true := by
  unfold State.depotClear
  repeat' first
    | with_reducible assumption
    | intro _
    | with_reducible apply Memory.clear_wf
    | with_reducible apply wf_forN

theorem State.nsRefresh_wf (s : State) (hs : s.mem.wf = true) :
    (State.nsRefresh s).mem.wf = true := by
  unfold State.nsRefresh
  repeat' first
    | with_reducible assumption

theorem State.writeEntry_wf (s : State) (a : Nat) (e : DxEntry) (hs : s.mem.wf = true) :
    (State.writeEntry s a e).mem.wf = true := by
  unfold State.writeEntry
  repeat' first
    | with_reducible assumption
    | intro _
    | with_reducible apply State.bypassWrite_wf

theorem State.refuseDoorbells_wf (s : State) (r : Nat) (hs : s.mem.wf = true) :
    (State.refuseDoorbells s r).mem.wf = true := by
  unfold State.refuseDoorbells
  repeat' first
    | with_reducible assumption
    | intro _
    | with_reducible apply State.modCore_wf
    | with_reducible apply wf_forEach

theorem State.mapCores_wf (s : State) (p : Nat → Bool) (f : Nat → Core → Core) (hs : s.mem.wf = true) :
    (State.mapCores s p f).mem.wf = true := by
  unfold State.mapCores
  repeat' first
    | with_reducible assumption

theorem State.isolateEffects_wf (s : State) (r : Nat) (parked : Bool) (hs : s.mem.wf = true) :
    (State.isolateEffects s r parked).mem.wf = true := by
  unfold State.isolateEffects
  repeat' first
    | with_reducible assumption
    | intro _
    | with_reducible apply State.mapCores_wf
    | with_reducible apply State.refuseDoorbells_wf
    | with_reducible apply State.abandonOwned_wf
    | with_reducible apply State.dropWaiters_wf
    | dsimp only
    | split

theorem State.isolateRegion_wf (s : State) (r : Nat) (hs : s.mem.wf = true) :
    (State.isolateRegion s r).mem.wf = true := by
  unfold State.isolateRegion
  repeat' first
    | with_reducible assumption
    | intro _
    | with_reducible apply State.setRegion_wf
    | with_reducible apply State.isolateEffects_wf
    | dsimp only
    | split

theorem State.parkDone_wf (s : State) (r : Nat) (hs : s.mem.wf = true) :
    (State.parkDone s r).mem.wf = true := by
  unfold State.parkDone
  repeat' first
    | with_reducible assumption
    | intro _
    | with_reducible apply State.setRegion_wf
    | with_reducible apply State.isolateRegion_wf
    | dsimp only
    | split

theorem State.haltRegion_wf (s : State) (r : Nat) (hs : s.mem.wf = true) :
    (State.haltRegion s r).mem.wf = true := by
  unfold State.haltRegion
  repeat' first
    | with_reducible assumption
    | intro _
    | with_reducible apply State.log_wf
    | with_reducible apply State.mapCores_wf
    | with_reducible apply State.withdrawRemote_wf
    | with_reducible apply wf_forEach

theorem State.unloadRegion_wf (s : State) (r : Nat) (hs : s.mem.wf = true) :
    (State.unloadRegion s r).mem.wf = true := by
  unfold State.unloadRegion
  repeat' first
    | with_reducible assumption
    | intro _
    | with_reducible apply State.nsRefresh_wf
    | with_reducible apply State.modRegion_wf

theorem State.mendYards_wf (s : State) (r : Nat) (hs : s.mem.wf = true) :
    (State.mendYards s r).mem.wf = true := by
  unfold State.mendYards
  repeat' first
    | with_reducible assumption
    | intro _
    | with_reducible apply Memory.writeN_wf
    | with_reducible apply wf_forEach

theorem State.resetRegion_wf (s : State) (r : Nat) (src : Source) (hs : s.mem.wf = true) :
    (State.resetRegion s r src).mem.wf = true := by
  unfold State.resetRegion
  repeat' first
    | with_reducible assumption
    | intro _
    | with_reducible apply State.modRegion_wf
    | with_reducible apply State.haltRegion_wf
    | with_reducible apply State.isolateEffects_wf
    | with_reducible apply State.mendYards_wf
    | with_reducible apply State.unloadRegion_wf
    | dsimp only
    | split

theorem State.rgnWriter_wf (s : State) (r : Nat) (src : Source) (hs : s.mem.wf = true) :
    (State.rgnWriter s r src).mem.wf = true := by
  unfold State.rgnWriter
  repeat' first
    | with_reducible assumption
    | intro _
    | with_reducible apply State.modRegion_wf

theorem State.clearRedFlag_wf (s : State) (r : Nat) (hs : s.mem.wf = true) :
    (State.clearRedFlag s r).mem.wf = true := by
  unfold State.clearRedFlag
  repeat' first
    | with_reducible assumption
    | intro _
    | with_reducible apply State.mendYards_wf
    | with_reducible apply State.unloadRegion_wf
    | dsimp only
    | split

theorem State.ctrlClearRed_wf (s : State) (r : Nat) (src : Source) (hs : s.mem.wf = true) :
    (State.ctrlClearRed s r src).mem.wf = true := by
  unfold State.ctrlClearRed
  repeat' first
    | with_reducible assumption
    | intro _
    | with_reducible apply State.modRegion_wf
    | with_reducible apply State.clearRedFlag_wf
    | with_reducible apply State.rgnWriter_wf
    | dsimp only
    | split

theorem State.regionError_wf (s : State) (hs : s.mem.wf = true) :
    (State.regionError s).mem.wf = true := by
  unfold State.regionError
  repeat' first
    | with_reducible assumption
    | intro _
    | with_reducible apply State.mapCores_wf

theorem State.redFlagEffects_wf (s : State) (r : Nat) (hs : s.mem.wf = true) :
    (State.redFlagEffects s r).mem.wf = true := by
  unfold State.redFlagEffects
  repeat' first
    | with_reducible assumption
    | intro _
    | with_reducible apply State.alert_wf
    | with_reducible apply State.modRegion_wf
    | with_reducible apply State.regionError_wf
    | with_reducible apply State.haltRegion_wf
    | with_reducible apply State.isolateEffects_wf

theorem State.ctrlReset_wf (s : State) (r : Nat) (src : Source) (hs : s.mem.wf = true) :
    (State.ctrlReset s r src).mem.wf = true := by
  unfold State.ctrlReset
  repeat' first
    | with_reducible assumption
    | intro _
    | with_reducible apply State.resetRegion_wf
    | with_reducible apply State.rgnWriter_wf

theorem State.parkRegion_wf (s : State) (r : Nat) (hs : s.mem.wf = true) :
    (State.parkRegion s r).mem.wf = true := by
  unfold State.parkRegion
  repeat' first
    | with_reducible assumption
    | intro _
    | with_reducible apply State.modRegion_wf

theorem State.parkHeld_wf (s : State) (r : Nat) (src : Nat) (hs : s.mem.wf = true) :
    (State.parkHeld s r src).mem.wf = true := by
  unfold State.parkHeld
  repeat' first
    | with_reducible assumption
    | intro _
    | with_reducible apply State.modRegion_wf
    | with_reducible apply State.parkRegion_wf

theorem State.ctrlPark_wf (s : State) (r : Nat) (src : Source) (hs : s.mem.wf = true) :
    (State.ctrlPark s r src).mem.wf = true := by
  unfold State.ctrlPark
  repeat' first
    | with_reducible assumption
    | intro _
    | with_reducible apply State.parkRegion_wf
    | with_reducible apply State.parkHeld_wf
    | with_reducible apply State.rgnWriter_wf
    | dsimp only
    | split

theorem State.startCores_wf (s : State) (r : Nat) (d : Decl) (hs : s.mem.wf = true) :
    (State.startCores s r d).mem.wf = true := by
  unfold State.startCores
  repeat' first
    | with_reducible assumption
    | intro _
    | with_reducible apply State.setCore_wf
    | with_reducible apply State.mapCores_wf
    | with_reducible apply wf_forEach

theorem State.runFromEntry_wf (s : State) (r : Nat) (hs : s.mem.wf = true) :
    (State.runFromEntry s r).mem.wf = true := by
  unfold State.runFromEntry
  repeat' first
    | with_reducible assumption
    | intro _
    | with_reducible apply State.setRegion_wf
    | with_reducible apply State.startCores_wf
    | dsimp only
    | split

theorem State.runRegion_wf (s : State) (r : Nat) (hs : s.mem.wf = true) :
    (State.runRegion s r).mem.wf = true := by
  unfold State.runRegion
  repeat' first
    | with_reducible assumption
    | intro _
    | with_reducible apply State.setRegion_wf
    | with_reducible apply State.runFromEntry_wf
    | dsimp only
    | split

theorem State.ctrlRun_wf (s : State) (r : Nat) (src : Source) (hs : s.mem.wf = true) :
    (State.ctrlRun s r src).mem.wf = true := by
  unfold State.ctrlRun
  repeat' first
    | with_reducible assumption
    | intro _
    | with_reducible apply State.runRegion_wf
    | with_reducible apply State.rgnWriter_wf
    | dsimp only
    | split

theorem State.rgnCtrl_wf (s : State) (r : Nat) (v : Nat) (src : Source) (hs : s.mem.wf = true) :
    (State.rgnCtrl s r v src).mem.wf = true := by
  unfold State.rgnCtrl
  repeat' first
    | with_reducible assumption
    | intro _
    | with_reducible apply onlyIf_wf
    | with_reducible apply State.ctrlPark_wf
    | with_reducible apply State.ctrlRun_wf
    | with_reducible apply State.ctrlReset_wf
    | with_reducible apply State.ctrlClearRed_wf

theorem State.clearHolds_wf (s : State) (r : Nat) (park : Bool) (reset : Bool) (hs : s.mem.wf = true) :
    (State.clearHolds s r park reset).mem.wf = true := by
  unfold State.clearHolds
  repeat' first
    | with_reducible assumption
    | intro _
    | with_reducible apply State.setRegion_wf
    | with_reducible apply State.runFromEntry_wf
    | dsimp only
    | split

theorem State.rgnHold_wf (s : State) (r : Nat) (park : Bool) (reset : Bool) (src : Source) (hs : s.mem.wf = true) :
    (State.rgnHold s r park reset src).mem.wf = true := by
  unfold State.rgnHold
  repeat' first
    | with_reducible assumption
    | intro _
    | with_reducible apply State.modRegion_wf
    | with_reducible apply State.clearHolds_wf
    | dsimp only
    | split

theorem State.unisolateRegion_wf (s : State) (r : Nat) (hs : s.mem.wf = true) :
    (State.unisolateRegion s r).mem.wf = true := by
  unfold State.unisolateRegion
  repeat' first
    | with_reducible assumption
    | intro _
    | with_reducible apply State.modRegion_wf

theorem State.startRegion_wf (s : State) (r : Nat) (hs : s.mem.wf = true) :
    (State.startRegion s r).mem.wf = true := by
  unfold State.startRegion
  repeat' first
    | with_reducible assumption
    | intro _
    | with_reducible apply State.setRegion_wf
    | with_reducible apply State.runFromEntry_wf
    | dsimp only
    | split

theorem State.redFlag_wf (s : State) (r : Nat) (kind : Nat) (src : Source) (addr : Nat) (detail : Nat) (hs : s.mem.wf = true) :
    (State.redFlag s r kind src addr detail).mem.wf = true := by
  unfold State.redFlag
  repeat' first
    | with_reducible assumption
    | intro _
    | with_reducible apply State.log_wf
    | with_reducible apply State.redFlagEffects_wf
    | dsimp only
    | split

theorem State.raDrive_wf (s : State) (hs : s.mem.wf = true) :
    (State.raDrive s).mem.wf = true := by
  unfold State.raDrive
  repeat' first
    | with_reducible assumption

theorem State.modLoad_wf (s : State) (f : Load → Load) (hs : s.mem.wf = true) :
    (State.modLoad s f).mem.wf = true := by
  unfold State.modLoad
  repeat' first
    | with_reducible assumption

theorem State.seeFull_wf (s : State) (hs : s.mem.wf = true) :
    (State.seeFull s).mem.wf = true := by
  unfold State.seeFull
  repeat' first
    | with_reducible assumption
    | intro _
    | with_reducible apply State.raDrive_wf
    | with_reducible apply State.modLoad_wf
    | dsimp only
    | split

theorem State.startLoad_wf (s : State) (source : Nat) (hs : s.mem.wf = true) :
    (State.startLoad s source).mem.wf = true := by
  unfold State.startLoad
  repeat' first
    | with_reducible assumption
    | intro _
    | with_reducible apply State.seeFull_wf

theorem State.startSlot_wf (s : State) (slot : Bool) (hs : s.mem.wf = true) :
    (State.startSlot s slot).mem.wf = true := by
  unfold State.startSlot
  repeat' first
    | with_reducible assumption
    | intro _
    | with_reducible apply State.startLoad_wf

theorem State.afterSlot_wf (s : State) (l : Load) (reason : Nat) (hs : s.mem.wf = true) :
    (State.afterSlot s l reason).mem.wf = true := by
  unfold State.afterSlot
  repeat' first
    | with_reducible assumption
    | intro _
    | with_reducible apply State.startSlot_wf
    | dsimp only
    | split

theorem State.uartPut_wf (s : State) (u : Nat) (b : Byte) (hs : s.mem.wf = true) :
    (State.uartPut s u b).mem.wf = true := by
  unfold State.uartPut
  repeat' first
    | with_reducible assumption

theorem State.bootLine_wf (s : State) (hs : s.mem.wf = true) :
    (State.bootLine s).mem.wf = true := by
  unfold State.bootLine
  repeat' first
    | with_reducible assumption
    | intro _
    | with_reducible apply State.uartPut_wf
    | with_reducible apply wf_forEach
    | dsimp only
    | split

theorem State.announceEnd_wf (s : State) (hs : s.mem.wf = true) :
    (State.announceEnd s).mem.wf = true := by
  unfold State.announceEnd
  repeat' first
    | with_reducible assumption
    | intro _
    | with_reducible apply State.hostEvent_wf
    | with_reducible apply State.alert_wf
    | with_reducible apply State.bootLine_wf

theorem State.loadDone_wf (s : State) (hs : s.mem.wf = true) :
    (State.loadDone s).mem.wf = true := by
  unfold State.loadDone
  repeat' first
    | with_reducible assumption
    | intro _
    | with_reducible apply State.announceEnd_wf
    | with_reducible apply State.afterSlot_wf
    | dsimp only
    | split

theorem State.goWrite_wf (s : State) (hs : s.mem.wf = true) :
    (State.goWrite s).mem.wf = true := by
  unfold State.goWrite
  repeat' first
    | with_reducible assumption
    | intro _
    | with_reducible apply State.startLoad_wf
    | dsimp only
    | split

theorem State.raReleaseLine_wf (s : State) (hs : s.mem.wf = true) :
    (State.raReleaseLine s).mem.wf = true := by
  unfold State.raReleaseLine
  repeat' first
    | with_reducible assumption

theorem State.unloadAll_wf (s : State) (hs : s.mem.wf = true) :
    (State.unloadAll s).mem.wf = true := by
  unfold State.unloadAll
  repeat' first
    | with_reducible assumption
    | intro _
    | with_reducible apply State.haltRegion_wf
    | with_reducible apply State.isolateEffects_wf
    | with_reducible apply State.unloadRegion_wf
    | with_reducible apply wf_forEach
    | dsimp only
    | split

theorem State.containRegion_wf (s : State) (r : Nat) (hs : s.mem.wf = true) :
    (State.containRegion s r).mem.wf = true := by
  unfold State.containRegion
  repeat' first
    | with_reducible assumption
    | intro _
    | with_reducible apply State.setRegion_wf
    | with_reducible apply State.parkRegion_wf
    | with_reducible apply State.isolateRegion_wf
    | dsimp only
    | split

theorem State.regionsAfter_wf (s : State) (l : Load) (reason : Nat) (hs : s.mem.wf = true) :
    (State.regionsAfter s l reason).mem.wf = true := by
  unfold State.regionsAfter
  repeat' first
    | with_reducible assumption
    | intro _
    | with_reducible apply State.unloadAll_wf
    | with_reducible apply State.containRegion_wf
    | with_reducible apply wf_forEach
    | dsimp only
    | split

theorem State.endLoad_wf (s : State) (st : Nat) (reason : Nat) (offset : Nat) (hs : s.mem.wf = true) :
    (State.endLoad s st reason offset).mem.wf = true := by
  unfold State.endLoad
  repeat' first
    | with_reducible assumption
    | intro _
    | with_reducible apply State.raDrive_wf
    | with_reducible apply State.announceEnd_wf
    | with_reducible apply State.regionsAfter_wf
    | with_reducible apply State.afterSlot_wf
    | dsimp only
    | split

theorem State.abortWrite_wf (s : State) (hs : s.mem.wf = true) :
    (State.abortWrite s).mem.wf = true := by
  unfold State.abortWrite
  repeat' first
    | with_reducible assumption
    | intro _
    | with_reducible apply State.endLoad_wf
    | dsimp only
    | split

theorem State.loadWrite_wf (s : State) (go : Bool) (abort : Bool) (hs : s.mem.wf = true) :
    (State.loadWrite s go abort).mem.wf = true := by
  unfold State.loadWrite
  repeat' first
    | with_reducible assumption
    | intro _
    | with_reducible apply State.goWrite_wf
    | with_reducible apply State.abortWrite_wf
    | dsimp only
    | split

theorem State.formatAt_wf (s : State) (offset : Nat) (hs : s.mem.wf = true) :
    (State.formatAt s offset).mem.wf = true := by
  unfold State.formatAt
  repeat' first
    | with_reducible assumption
    | intro _
    | with_reducible apply State.endLoad_wf

theorem State.chooseSlot_wf (s : State) (hs : s.mem.wf = true) :
    (State.chooseSlot s).mem.wf = true := by
  unfold State.chooseSlot
  repeat' first
    | with_reducible assumption
    | intro _
    | with_reducible apply State.startSlot_wf
    | with_reducible apply State.announceEnd_wf
    | dsimp only
    | split

theorem State.consume_wf (s : State) (n : Nat) (hs : s.mem.wf = true) :
    (State.consume s n).mem.wf = true := by
  unfold State.consume
  repeat' first
    | with_reducible assumption

theorem State.takeWords_wf (s : State) (n : Nat) (hs : s.mem.wf = true) :
    (State.takeWords s n).mem.wf = true := by
  unfold State.takeWords
  repeat' first
    | with_reducible assumption
    | intro _
    | with_reducible apply State.consume_wf
    | dsimp only
    | split

theorem State.bootScan_wf (s : State) (hs : s.mem.wf = true) :
    (State.bootScan s).mem.wf = true := by
  unfold State.bootScan
  repeat' first
    | with_reducible assumption
    | intro _
    | with_reducible apply State.chooseSlot_wf
    | dsimp only
    | split

theorem State.clearRefLost_wf (s : State) (hs : s.mem.wf = true) :
    (State.clearRefLost s).mem.wf = true := by
  unfold State.clearRefLost
  repeat' first
    | with_reducible assumption
    | intro _
    | dsimp only
    | split

theorem State.resetAll_wf (s : State) (hs : s.mem.wf = true) :
    (State.resetAll s).mem.wf = true := by
  unfold State.resetAll
  repeat' first
    | with_reducible assumption
    | intro _
    | with_reducible apply State.reset_wf

theorem State.loseRef_wf (s : State) (hs : s.mem.wf = true) :
    (State.loseRef s).mem.wf = true := by
  unfold State.loseRef
  repeat' first
    | with_reducible assumption
    | intro _
    | with_reducible apply State.log_wf

theorem State.afterPerst_wf (s : State) (bootsel : BitVec 2) (pwrceil : BitVec 2) (refclk : Bool) (store : Option Flash) (hs : s.mem.wf = true) :
    (State.afterPerst s bootsel pwrceil refclk store).mem.wf = true := by
  unfold State.afterPerst
  repeat' first
    | with_reducible assumption
    | intro _
    | with_reducible apply State.loseRef_wf
    | with_reducible apply State.resetAll_wf
    | dsimp only
    | split

theorem State.forgetContents_wf (s : State) : s.forgetContents.mem.wf = true := rfl

theorem State.railLoss_wf (s : State) (hs : s.mem.wf = true) :
    (State.railLoss s).mem.wf = true := by
  unfold State.railLoss
  repeat' first
    | with_reducible assumption
    | intro _
    | with_reducible apply State.fresh_wf
    | with_reducible apply State.forgetContents_wf
    | with_reducible apply State.mapCores_wf
    | dsimp only
    | split

theorem State.sbWrite_wf (s : State) (f : SbForce) (hs : s.mem.wf = true) :
    (State.sbWrite s f).mem.wf = true := by
  unfold State.sbWrite
  repeat' first
    | with_reducible assumption

theorem State.takeWrites_wf (s : State) (te : Nat) (hs : s.mem.wf = true) :
    (State.takeWrites s te).mem.wf = true := by
  unfold State.takeWrites
  repeat' first
    | with_reducible assumption

theorem State.brakeChange_wf (s : State) (r : Nat) (f : Region → Region) (hs : s.mem.wf = true) :
    (State.brakeChange s r f).mem.wf = true := by
  unfold State.brakeChange
  repeat' first
    | with_reducible assumption
    | intro _
    | with_reducible apply State.modRegion_wf

theorem State.vcore_wf (s : State) (r : Nat) (hs : s.mem.wf = true) :
    (State.vcore s r).2.mem.wf = true := by
  unfold State.vcore
  repeat' first
    | with_reducible assumption
    | intro _
    | with_reducible apply State.fresh_wf

theorem State.applyShare_wf (s : State) (k : Snap) (e : Nat) (x : Share) (hs : s.mem.wf = true) :
    (State.applyShare s k e x).mem.wf = true := by
  unfold State.applyShare
  repeat' first
    | with_reducible assumption
    | intro _
    | with_reducible apply State.brakeChange_wf
    | with_reducible apply State.vcore_wf

theorem State.applyIdle_wf (s : State) (k : Snap) (e : Nat) (r : Nat) (hs : s.mem.wf = true) :
    (State.applyIdle s k e r).mem.wf = true := by
  unfold State.applyIdle
  repeat' first
    | with_reducible assumption
    | intro _
    | with_reducible apply State.modRegion_wf

theorem State.budgetPark_wf (s : State) (e : Nat) (r : Nat) (hs : s.mem.wf = true) :
    (State.budgetPark s e r).mem.wf = true := by
  unfold State.budgetPark
  repeat' first
    | with_reducible assumption
    | intro _
    | with_reducible apply State.modRegion_wf
    | with_reducible apply State.ctrlPark_wf

theorem State.capBrakes_wf (s : State) (hs : s.mem.wf = true) :
    (State.capBrakes s).mem.wf = true := by
  unfold State.capBrakes
  repeat' first
    | with_reducible assumption
    | intro _
    | with_reducible apply State.brakeChange_wf
    | with_reducible apply wf_forN
    | dsimp only
    | split

theorem State.grantEpoch_wf (s : State) (e : Nat) (k : Snap) (hs : s.mem.wf = true) :
    (State.grantEpoch s e k).mem.wf = true := by
  unfold State.grantEpoch
  repeat' first
    | with_reducible assumption
    | intro _
    | with_reducible apply State.hostEvent_wf
    | with_reducible apply State.alert_wf
    | with_reducible apply State.capBrakes_wf
    | with_reducible apply State.takeWrites_wf
    | with_reducible apply State.applyShare_wf
    | with_reducible apply State.applyIdle_wf
    | with_reducible apply State.budgetPark_wf
    | with_reducible apply wf_forEach
    | dsimp only
    | split

theorem State.vtargetWrite_wf (s : State) (r : Nat) (v : Nat) (hs : s.mem.wf = true) :
    (State.vtargetWrite s r v).mem.wf = true := by
  unfold State.vtargetWrite
  repeat' first
    | with_reducible assumption
    | intro _
    | with_reducible apply State.modRegion_wf

theorem State.boardCeilWrite_wf (s : State) (src : Source) (v : Nat) (hs : s.mem.wf = true) :
    (State.boardCeilWrite s src v).mem.wf = true := by
  unfold State.boardCeilWrite
  repeat' first
    | with_reducible assumption
    | intro _
    | dsimp only
    | split

theorem State.dropOld_wf (s : State) (p : W64) (hs : s.mem.wf = true) :
    (State.dropOld s p).mem.wf = true := by
  unfold State.dropOld
  repeat' first
    | with_reducible assumption

theorem State.fuseCells_wf (s : State) (hs : s.mem.wf = true) :
    (State.fuseCells s).mem.wf = true := by
  unfold State.fuseCells
  repeat' first
    | with_reducible assumption

theorem State.takePicture_wf (s : State) (p : W64) (hs : s.mem.wf = true) :
    (State.takePicture s p).mem.wf = true := by
  unfold State.takePicture
  repeat' first
    | with_reducible assumption
    | intro _
    | with_reducible apply State.fuseCells_wf
    | with_reducible apply State.dropOld_wf

theorem State.thermtrip_wf (s : State) (hs : s.mem.wf = true) :
    (State.thermtrip s).mem.wf = true := by
  unfold State.thermtrip
  repeat' first
    | with_reducible assumption
    | intro _
    | with_reducible apply State.hostEvent_wf
    | with_reducible apply State.alert_wf
    | with_reducible apply State.modRegion_wf
    | with_reducible apply State.ctrlPark_wf
    | with_reducible apply wf_forN
    | dsimp only
    | split

theorem State.clearTrip_wf (s : State) (hs : s.mem.wf = true) :
    (State.clearTrip s).mem.wf = true := by
  unfold State.clearTrip
  repeat' first
    | with_reducible assumption
    | intro _
    | dsimp only
    | split

theorem State.uncorrYard_wf (s : State) (c : Nat) (w : Nat) (hs : s.mem.wf = true) :
    (State.uncorrYard s c w).mem.wf = true := by
  unfold State.uncorrYard
  repeat' first
    | with_reducible assumption
    | intro _
    | with_reducible apply State.redFlag_wf

theorem State.readPiece_wf (s : State) (a : Nat) (n : Nat) (hs : s.mem.wf = true) :
    (State.readPiece s a n).1.mem.wf = true := by
  unfold State.readPiece
  repeat' first
    | with_reducible assumption
    | intro _
    | with_reducible apply State.bypassRead_wf
    | with_reducible apply State.uncorrYard_wf
    | (with_reducible refine wf_of_fst (by assumption) ?_)
    | dsimp only
    | split

theorem State.readRange_wf (s : State) (a : Nat) (n : Nat) (hs : s.mem.wf = true) :
    (State.readRange s a n).1.mem.wf = true := by
  unfold State.readRange
  repeat' first
    | with_reducible assumption
    | intro _
    | with_reducible apply State.readPiece_wf
    | (with_reducible refine wf_of_fst (by assumption) ?_)
    | with_reducible apply wf_foldl
    | with_reducible apply wf_foldl1
    | dsimp only
    | split

theorem State.yardEcc_wf (s : State) (a : Nat) (e : Ecc) (hw : s.mem.wf = true) : (s.yardEcc a e).mem.wf = true := by
  cases e
  · exact hw
  · exact State.corrected_wf _ _ hw
  · exact hw

theorem State.writePiece_wf (s : State) (a : Nat) (bs : List (Option Byte)) (mark : Bool) (hs : s.mem.wf = true) :
    (State.writePiece s a bs mark).1.mem.wf = true := by
  unfold State.writePiece
  repeat' first
    | with_reducible assumption
    | intro _
    | with_reducible apply State.bypassWrite_wf
    | with_reducible apply State.uncorrYard_wf
    | with_reducible apply State.yardWrite_wf
    | (with_reducible refine wf_of_fst (by assumption) ?_)
    | dsimp only
    | split

theorem State.writeRange_wf (s : State) (a : Nat) (bs : List (Option Byte)) (mark : Bool) (hs : s.mem.wf = true) :
    (State.writeRange s a bs mark).1.mem.wf = true := by
  unfold State.writeRange
  repeat' first
    | with_reducible assumption
    | intro _
    | with_reducible apply State.writePiece_wf
    | (with_reducible refine wf_of_fst (by assumption) ?_)
    | with_reducible apply wf_foldl
    | with_reducible apply wf_foldl1

theorem State.countDma_wf (s : State) (q : Nat) (status : Nat) (hs : s.mem.wf = true) :
    (State.countDma s q status).mem.wf = true := by
  unfold State.countDma
  repeat' first
    | with_reducible assumption
    | intro _
    | with_reducible apply State.hostEvent_wf
    | with_reducible apply State.setQueue_wf
    | dsimp only
    | split

theorem State.completionWord_wf (s : State) (j : DmaJob) (status : Nat) (done : Nat) (hs : s.mem.wf = true) :
    (State.completionWord s j status done).mem.wf = true := by
  unfold State.completionWord
  repeat' first
    | with_reducible assumption
    | intro _
    | with_reducible apply State.writeRange_wf
    | with_reducible apply State.hostWrite_wf
    | (with_reducible refine wf_of_fst (by assumption) ?_)
    | dsimp only
    | split

theorem State.retireDma_wf (s : State) (q : Nat) (hs : s.mem.wf = true) :
    (State.retireDma s q).mem.wf = true := by
  unfold State.retireDma
  repeat' first
    | with_reducible assumption
    | intro _
    | with_reducible apply State.setQueue_wf

theorem State.endDma_wf (s : State) (q : Nat) (j : DmaJob) (status : Nat) (done : Nat) (hs : s.mem.wf = true) :
    (State.endDma s q j status done).mem.wf = true := by
  unfold State.endDma
  repeat' first
    | with_reducible assumption
    | intro _
    | with_reducible apply State.completionWord_wf
    | with_reducible apply State.countDma_wf
    | with_reducible apply State.retireDma_wf
    | with_reducible apply State.setQueue_wf
    | dsimp only
    | split

theorem State.hostWriteGaps_wf (s : State) (bus : Nat) (bs : List (Option Byte)) (poisoned : Bool) (hs : s.mem.wf = true) :
    (State.hostWriteGaps s bus bs poisoned).mem.wf = true := by
  unfold State.hostWriteGaps
  repeat' first
    | with_reducible assumption
    | intro _
    | with_reducible apply State.hostWrite_wf
    | with_reducible apply wf_forEach

theorem State.dmaRequests_wf (s : State) (q : Nat) (a : Nat) (n : Nat) (op : LinkOp) (payload : Nat → Nat → List Byte) (hs : s.mem.wf = true) :
    (State.dmaRequests s q a n op payload).1.mem.wf = true := by
  unfold State.dmaRequests
  repeat' first
    | with_reducible assumption
    | intro _
    | with_reducible apply State.request_wf
    | with_reducible apply State.countNoRoute_wf
    | (with_reducible refine wf_of_fst (by assumption) ?_)
    | with_reducible apply OptWf.some
    | with_reducible exact OptWf.none
    | with_reducible apply OptWf.map
    | with_reducible apply OptWf.setOf
    | with_reducible apply OptWf.bind
    | (with_reducible refine OptWf.use (by assumption) ?_)
    | with_reducible apply OptWf.getD
    | with_reducible apply wf_foldl
    | with_reducible apply wf_foldl1
    | dsimp only
    | split

theorem State.timerWrite_wf (s : State) (c : Nat) (v : W64) (hs : s.mem.wf = true) :
    (State.timerWrite s c v).mem.wf = true := by
  unfold State.timerWrite
  repeat' first
    | with_reducible assumption
    | intro _
    | with_reducible apply State.modCore_wf

theorem State.cpWrite_wf (s : State) (c : Nat) (p : Nat) (v : W64) (m : W64) (own : Bool) (hs : s.mem.wf = true) :
    (State.cpWrite s c p v m own).mem.wf = true := by
  unfold State.cpWrite
  repeat' first
    | with_reducible assumption
    | intro _
    | with_reducible apply State.timerWrite_wf
    | with_reducible apply State.setCore_wf
    | with_reducible apply State.modRegion_wf
    | dsimp only
    | split

theorem State.semOpWrite_wf (s : State) (sem : Nat) (port : Nat) (caller : Source) (v : W64) (hs : s.mem.wf = true) :
    (State.semOpWrite s sem port caller v).mem.wf = true := by
  unfold State.semOpWrite
  repeat' first
    | with_reducible assumption
    | intro _
    | with_reducible apply State.setSem_wf
    | with_reducible apply State.semOperate_wf

theorem State.hostSignal_wf (s : State) (sem : Nat) (n : Nat) (hs : s.mem.wf = true) :
    (State.hostSignal s sem n).mem.wf = true := by
  unfold State.hostSignal
  repeat' first
    | with_reducible assumption
    | intro _
    | with_reducible apply State.semSignal_wf
    | (with_reducible refine wf_of_fst (by assumption) ?_)
    | dsimp only
    | split

theorem State.semDirect_wf (s : State) (sem : Nat) (port : Nat) (caller : Source) (v : W64) (hs : s.mem.wf = true) :
    (State.semDirect s sem port caller v).mem.wf = true := by
  unfold State.semDirect
  repeat' first
    | with_reducible assumption
    | intro _
    | with_reducible apply State.emit_wf
    | with_reducible apply State.semOpWrite_wf
    | with_reducible apply State.semExpire_wf
    | with_reducible apply State.semSignal_wf
    | with_reducible apply State.semTry_wf
    | with_reducible apply State.hostSignal_wf
    | (with_reducible refine wf_of_fst (by assumption) ?_)
    | dsimp only
    | split

theorem State.semRegWrite_wf (s : State) (i : Nat) (off : Nat) (v : W64) (src : Source) (hs : s.mem.wf = true) :
    (State.semRegWrite s i off v src).mem.wf = true := by
  unfold State.semRegWrite
  repeat' first
    | with_reducible assumption
    | intro _
    | with_reducible apply State.setSem_wf
    | with_reducible apply State.semDirect_wf
    | dsimp only
    | split

theorem State.slotTrigger_wf (s : State) (n : Nat) (port : Nat) (v : W64) (src : Source) (hs : s.mem.wf = true) :
    (State.slotTrigger s n port v src).mem.wf = true := by
  unfold State.slotTrigger
  repeat' first
    | with_reducible assumption
    | intro _
    | dsimp only
    | split

theorem State.writeDepot_wf (s : State) (o : Nat) (v : W64) (m : W64) (src : Source) (hs : s.mem.wf = true) :
    (State.writeDepot s o v m src).mem.wf = true := by
  unfold State.writeDepot
  repeat' first
    | with_reducible assumption
    | intro _
    | with_reducible apply State.slotTrigger_wf
    | dsimp only
    | split

theorem State.flashResult_wf (s : State) (r : Nat) (hs : s.mem.wf = true) :
    (State.flashResult s r).mem.wf = true := by
  unfold State.flashResult
  repeat' first
    | with_reducible assumption

theorem State.setFlash_wf (s : State) (f : Flash) (hs : s.mem.wf = true) :
    (State.setFlash s f).mem.wf = true := by
  unfold State.setFlash
  repeat' first
    | with_reducible assumption

theorem State.beginBlock_wf (s : State) (f : Flash) (d : Descriptor) (slot : Bool) (b : Nat) (hs : s.mem.wf = true) :
    (State.beginBlock s f d slot b).mem.wf = true := by
  unfold State.beginBlock
  repeat' first
    | with_reducible assumption
    | intro _
    | with_reducible apply State.setFlash_wf

theorem State.beginErase_wf (s : State) (slot : Bool) (hs : s.mem.wf = true) :
    (State.beginErase s slot).mem.wf = true := by
  unfold State.beginErase
  repeat' first
    | with_reducible assumption
    | intro _
    | with_reducible apply State.setFlash_wf
    | with_reducible apply State.flashResult_wf
    | with_reducible apply State.beginBlock_wf
    | dsimp only
    | split

theorem State.beginProgram_wf (s : State) (hs : s.mem.wf = true) :
    (State.beginProgram s).mem.wf = true := by
  unfold State.beginProgram
  repeat' first
    | with_reducible assumption
    | intro _
    | with_reducible apply State.setFlash_wf
    | dsimp only
    | split

theorem State.flashCommand_wf (s : State) (code : Nat) (slot : Bool) (len : BitVec 9) (src : Source) (hs : s.mem.wf = true) :
    (State.flashCommand s code slot len src).mem.wf = true := by
  unfold State.flashCommand
  repeat' first
    | with_reducible assumption
    | intro _
    | with_reducible apply State.beginErase_wf
    | with_reducible apply State.beginProgram_wf
    | dsimp only
    | split

theorem State.setUart_wf (s : State) (u : Nat) (k : Uart) (hs : s.mem.wf = true) :
    (State.setUart s u k).mem.wf = true := by
  unfold State.setUart
  repeat' first
    | with_reducible assumption

theorem State.losePin_wf (s : State) (p : Nat) (old : Nat) (hs : s.mem.wf = true) :
    (State.losePin s p old).mem.wf = true := by
  unfold State.losePin
  repeat' first
    | with_reducible assumption
    | intro _
    | with_reducible apply State.setUart_wf
    | dsimp only
    | split

theorem State.setGpio_wf (s : State) (p : Nat) (k : Gpio) (hs : s.mem.wf = true) :
    (State.setGpio s p k).mem.wf = true := by
  unfold State.setGpio
  repeat' first
    | with_reducible assumption

theorem State.gpioFunc_wf (s : State) (p : Nat) (func : BitVec 3) (src : Source) (hs : s.mem.wf = true) :
    (State.gpioFunc s p func src).mem.wf = true := by
  unfold State.gpioFunc
  repeat' first
    | with_reducible assumption
    | intro _
    | with_reducible apply State.setGpio_wf
    | with_reducible apply State.losePin_wf
    | dsimp only
    | split

theorem State.setLevel_wf (s : State) (p : Nat) (v : Bool) (hs : s.mem.wf = true) :
    (State.setLevel s p v).mem.wf = true := by
  unfold State.setLevel
  repeat' first
    | with_reducible assumption

theorem State.sampleDriven_wf (s : State) (p : Nat) (hs : s.mem.wf = true) :
    (State.sampleDriven s p).mem.wf = true := by
  unfold State.sampleDriven
  repeat' first
    | with_reducible assumption
    | intro _
    | with_reducible apply State.setLevel_wf
    | dsimp only
    | split

theorem State.gpioOut_wf (s : State) (oe : W16) (val : W16) (hs : s.mem.wf = true) :
    (State.gpioOut s oe val).mem.wf = true := by
  unfold State.gpioOut
  repeat' first
    | with_reducible assumption
    | intro _
    | with_reducible apply State.sampleDriven_wf
    | with_reducible apply wf_forN

theorem State.writeAlert_wf (s : State) (v : W64) (m : W64) (hs : s.mem.wf = true) :
    (State.writeAlert s v m).mem.wf = true := by
  unfold State.writeAlert
  repeat' first
    | with_reducible assumption
    | intro _
    | with_reducible apply State.alertLine_wf

theorem State.writeTpo_wf (s : State) (n : Nat) (o : Nat) (v : W64) (m : W64) (hs : s.mem.wf = true) :
    (State.writeTpo s n o v m).mem.wf = true := by
  unfold State.writeTpo
  repeat' first
    | with_reducible assumption
    | intro _
    | dsimp only
    | split

theorem State.writeUart_wf (s : State) (u : Nat) (o : Nat) (v : W64) (m : W64) (hs : s.mem.wf = true) :
    (State.writeUart s u o v m).mem.wf = true := by
  unfold State.writeUart
  repeat' first
    | with_reducible assumption
    | intro _
    | with_reducible apply State.uartPut_wf
    | with_reducible apply State.setUart_wf
    | dsimp only
    | split

theorem State.writeSd_wf (s : State) (o : Nat) (v : W64) (m : W64) (src : Source) (hs : s.mem.wf = true) :
    (State.writeSd s o v m src).mem.wf = true := by
  unfold State.writeSd
  repeat' first
    | with_reducible assumption
    | intro _
    | with_reducible apply State.flashCommand_wf
    | with_reducible apply State.gpioFunc_wf
    | with_reducible apply State.gpioOut_wf
    | with_reducible apply State.writeUart_wf
    | with_reducible apply State.writeTpo_wf
    | with_reducible apply State.writeAlert_wf
    | with_reducible apply wf_foldl
    | with_reducible apply wf_foldl1
    | dsimp only
    | split

theorem State.refuseOwn_wf (s : State) (k : Packet) (hs : s.mem.wf = true) :
    (State.refuseOwn s k).mem.wf = true := by
  unfold State.refuseOwn
  repeat' first
    | with_reducible assumption
    | intro _
    | with_reducible apply State.countNoRoute_wf

theorem State.unroutable_wf (s : State) (k : Packet) (hs : s.mem.wf = true) :
    (State.unroutable s k).mem.wf = true := by
  unfold State.unroutable
  repeat' first
    | with_reducible assumption
    | intro _
    | with_reducible apply State.refuseOwn_wf
    | with_reducible apply State.dropPacket_wf
    | with_reducible apply State.answer_wf
    | dsimp only
    | split

theorem State.enqueueFront_wf (s : State) (p : Nat) (cls : Bool) (k : Packet) (hs : s.mem.wf = true) :
    (State.enqueueFront s p cls k).mem.wf = true := by
  unfold State.enqueueFront
  repeat' first
    | with_reducible assumption
    | intro _
    | with_reducible apply State.modPort_wf

theorem State.reroute_wf (s : State) (k : Packet) (hs : s.mem.wf = true) :
    (State.reroute s k).mem.wf = true := by
  unfold State.reroute
  repeat' first
    | with_reducible assumption
    | intro _
    | with_reducible apply State.enqueueFront_wf
    | with_reducible apply State.unroutable_wf
    | dsimp only
    | split

theorem State.leaveUp_wf (s : State) (p : Nat) (st : PortSt) (hs : s.mem.wf = true) :
    (State.leaveUp s p st).mem.wf = true := by
  unfold State.leaveUp
  repeat' first
    | with_reducible assumption
    | intro _
    | with_reducible apply State.hostEvent_wf
    | with_reducible apply State.reroute_wf
    | with_reducible apply State.modPort_wf
    | with_reducible apply wf_forEach

theorem State.portTo_wf (s : State) (p : Nat) (st : PortSt) (hs : s.mem.wf = true) :
    (State.portTo s p st).mem.wf = true := by
  unfold State.portTo
  repeat' first
    | with_reducible assumption
    | intro _
    | with_reducible apply State.hostEvent_wf
    | with_reducible apply State.modPort_wf
    | dsimp only
    | split

theorem State.portDown_wf (s : State) (p : Nat) (st : PortSt) (hs : s.mem.wf = true) :
    (State.portDown s p st).mem.wf = true := by
  unfold State.portDown
  repeat' first
    | with_reducible assumption
    | intro _
    | with_reducible apply State.leaveUp_wf
    | with_reducible apply State.portTo_wf
    | dsimp only
    | split

theorem State.portRetrain_wf (s : State) (p : Nat) (src : Source) (hs : s.mem.wf = true) :
    (State.portRetrain s p src).mem.wf = true := by
  unfold State.portRetrain
  repeat' first
    | with_reducible assumption
    | intro _
    | with_reducible apply State.portDown_wf
    | with_reducible apply State.modPort_wf
    | dsimp only
    | split

theorem State.portEnable_wf (s : State) (p : Nat) (enable : Bool) (src : Source) (hs : s.mem.wf = true) :
    (State.portEnable s p enable src).mem.wf = true := by
  unfold State.portEnable
  repeat' first
    | with_reducible assumption
    | intro _
    | with_reducible apply State.portTo_wf
    | with_reducible apply State.portDown_wf
    | with_reducible apply State.modPort_wf
    | dsimp only
    | split

theorem State.rwpRefused_wf (s : State) (hs : s.mem.wf = true) :
    (State.rwpRefused s).mem.wf = true := by
  unfold State.rwpRefused
  repeat' first
    | with_reducible assumption

theorem State.writeMl_wf (s : State) (o : Nat) (v : W64) (m : W64) (src : Source) (rwp : Bool) (hs : s.mem.wf = true) :
    (State.writeMl s o v m src rwp).mem.wf = true := by
  unfold State.writeMl
  repeat' first
    | with_reducible assumption
    | intro _
    | with_reducible apply State.portEnable_wf
    | with_reducible apply State.portRetrain_wf
    | with_reducible apply State.rwpRefused_wf
    | dsimp only
    | split

theorem State.writeId_wf (s : State) (o : Nat) (v : W64) (m : W64) (rwp : Bool) (hs : s.mem.wf = true) :
    (State.writeId s o v m rwp).mem.wf = true := by
  unfold State.writeId
  repeat' first
    | with_reducible assumption
    | intro _
    | with_reducible apply State.rwpRefused_wf
    | dsimp only
    | split

theorem State.winProduced_wf (s : State) (v : W32) (hs : s.mem.wf = true) :
    (State.winProduced s v).mem.wf = true := by
  unfold State.winProduced
  repeat' first
    | with_reducible assumption
    | intro _
    | with_reducible apply State.seeFull_wf

theorem State.writeCc_wf (s : State) (o : Nat) (v : W64) (m : W64) (hs : s.mem.wf = true) :
    (State.writeCc s o v m).mem.wf = true := by
  unfold State.writeCc
  repeat' first
    | with_reducible assumption
    | intro _
    | with_reducible apply State.loadWrite_wf
    | with_reducible apply State.winProduced_wf
    | dsimp only
    | split

theorem State.writeSb_wf (s : State) (o : Nat) (v : W64) (m : W64) (src : Source) (hs : s.mem.wf = true) :
    (State.writeSb s o v m src).mem.wf = true := by
  unfold State.writeSb
  repeat' first
    | with_reducible assumption
    | intro _
    | with_reducible apply State.boardCeilWrite_wf
    | with_reducible apply State.sbWrite_wf
    | with_reducible apply State.clearTrip_wf
    | dsimp only
    | split

theorem State.writeTf_wf (s : State) (o : Nat) (v : W64) (m : W64) (rwp : Bool) (hs : s.mem.wf = true) :
    (State.writeTf s o v m rwp).mem.wf = true := by
  unfold State.writeTf
  repeat' first
    | with_reducible assumption
    | intro _
    | with_reducible apply State.rwpRefused_wf
    | dsimp only
    | split

theorem State.coreDoorbell_wf (s : State) (c : Nat) (hs : s.mem.wf = true) :
    (State.coreDoorbell s c).mem.wf = true := by
  unfold State.coreDoorbell
  repeat' first
    | with_reducible assumption
    | intro _
    | with_reducible apply State.modCore_wf
    | dsimp only
    | split

theorem State.resetDma_wf (s : State) (q : Nat) (hs : s.mem.wf = true) :
    (State.resetDma s q).mem.wf = true := by
  unfold State.resetDma
  repeat' first
    | with_reducible assumption
    | intro _
    | with_reducible apply State.completionWord_wf
    | with_reducible apply State.countDma_wf
    | with_reducible apply State.setQueue_wf
    | dsimp only
    | split

theorem State.queueTail_wf (s : State) (q : Nat) (v : W32) (src : Source) (hs : s.mem.wf = true) :
    (State.queueTail s q v src).mem.wf = true := by
  unfold State.queueTail
  repeat' first
    | with_reducible assumption
    | intro _
    | with_reducible apply State.setQueue_wf

theorem State.writeQueue_wf (s : State) (q : Nat) (o : Nat) (v : W64) (m : W64) (src : Source) (hs : s.mem.wf = true) :
    (State.writeQueue s q o v m src).mem.wf = true := by
  unfold State.writeQueue
  repeat' first
    | with_reducible assumption
    | intro _
    | with_reducible apply State.queueTail_wf
    | with_reducible apply State.resetDma_wf
    | with_reducible apply State.setQueue_wf
    | dsimp only
    | split

theorem State.writeHi_wf (s : State) (o : Nat) (v : W64) (m : W64) (src : Source) (hs : s.mem.wf = true) :
    (State.writeHi s o v m src).mem.wf = true := by
  unfold State.writeHi
  repeat' first
    | with_reducible assumption
    | intro _
    | with_reducible apply State.coreDoorbell_wf
    | with_reducible apply State.writeQueue_wf
    | dsimp only
    | split

theorem State.predClear_wf (s : State) (src : Source) (hs : s.mem.wf = true) :
    (State.predClear s src).mem.wf = true := by
  unfold State.predClear
  repeat' first
    | with_reducible assumption

theorem State.writeHb_wf (s : State) (o : Nat) (v : W64) (m : W64) (src : Source) (rwp : Bool) (hs : s.mem.wf = true) :
    (State.writeHb s o v m src rwp).mem.wf = true := by
  unfold State.writeHb
  repeat' first
    | with_reducible assumption
    | intro _
    | with_reducible apply State.rwpRefused_wf
    | with_reducible apply State.predClear_wf
    | dsimp only
    | split

theorem State.awAttr_wf (s : State) (n : Nat) (v : W64) (src : Source) (hs : s.mem.wf = true) :
    (State.awAttr s n v src).mem.wf = true := by
  unfold State.awAttr
  repeat' first
    | with_reducible assumption

theorem State.awRange_wf (s : State) (n : Nat) (v : W64) (m : W64) (src : Source) (hs : s.mem.wf = true) :
    (State.awRange s n v m src).mem.wf = true := by
  unfold State.awRange
  repeat' first
    | with_reducible assumption
    | intro _
    | dsimp only
    | split

theorem State.writeAw_wf (s : State) (o : Nat) (v : W64) (m : W64) (src : Source) (hs : s.mem.wf = true) :
    (State.writeAw s o v m src).mem.wf = true := by
  unfold State.writeAw
  repeat' first
    | with_reducible assumption
    | intro _
    | with_reducible apply State.awRange_wf
    | with_reducible apply State.awAttr_wf
    | dsimp only
    | split

theorem State.ecHead_wf (s : State) (v : W32) (hs : s.mem.wf = true) :
    (State.ecHead s v).mem.wf = true := by
  unfold State.ecHead
  repeat' first
    | with_reducible assumption
    | intro _
    | dsimp only
    | split

theorem State.writeEc_wf (s : State) (o : Nat) (v : W64) (m : W64) (hs : s.mem.wf = true) :
    (State.writeEc s o v m).mem.wf = true := by
  unfold State.writeEc
  repeat' first
    | with_reducible assumption
    | intro _
    | with_reducible apply State.ecHead_wf
    | dsimp only
    | split

theorem State.rgnPower_wf (s : State) (r : Nat) (v : W64) (src : Source) (hs : s.mem.wf = true) :
    (State.rgnPower s r v src).mem.wf = true := by
  unfold State.rgnPower
  repeat' first
    | with_reducible assumption
    | intro _
    | with_reducible apply State.brakeChange_wf
    | with_reducible apply State.vtargetWrite_wf

theorem State.writeRgn_wf (s : State) (o : Nat) (v : W64) (m : W64) (src : Source) (hs : s.mem.wf = true) :
    (State.writeRgn s o v m src).mem.wf = true := by
  unfold State.writeRgn
  repeat' first
    | with_reducible assumption
    | intro _
    | with_reducible apply State.rgnCtrl_wf
    | with_reducible apply State.rgnHold_wf
    | with_reducible apply State.rgnPower_wf
    | dsimp only
    | split

theorem State.writeTb_wf (s : State) (o : Nat) (v : W64) (m : W64) (hs : s.mem.wf = true) :
    (State.writeTb s o v m).mem.wf = true := by
  unfold State.writeTb
  repeat' first
    | with_reducible assumption
    | intro _
    | with_reducible apply State.clearRefLost_wf
    | dsimp only
    | split

theorem State.sysWrite_wf (s : State) (off : Nat) (v : W64) (m : W64) (src : Source) (rwp : Bool) (hs : s.mem.wf = true) :
    (State.sysWrite s off v m src rwp).mem.wf = true := by
  unfold State.sysWrite
  repeat' first
    | with_reducible assumption
    | intro _
    | with_reducible apply State.writeId_wf
    | with_reducible apply State.writeCc_wf
    | with_reducible apply State.writeSb_wf
    | with_reducible apply State.writeTf_wf
    | with_reducible apply State.writeHi_wf
    | with_reducible apply State.writeMl_wf
    | with_reducible apply State.writeHb_wf
    | with_reducible apply State.writeAw_wf
    | with_reducible apply State.writeEc_wf
    | with_reducible apply State.writeSd_wf
    | with_reducible apply State.writeRgn_wf
    | with_reducible apply State.writeTb_wf
    | dsimp only
    | split

theorem State.regWrite_wf (s : State) (l : Loc) (n : Nat) (v : W64) (src : Source) (hs : s.mem.wf = true) :
    (State.regWrite s l n v src).1.mem.wf = true := by
  unfold State.regWrite
  repeat' first
    | with_reducible assumption
    | intro _
    | with_reducible apply State.cpWrite_wf
    | with_reducible apply State.semRegWrite_wf
    | with_reducible apply State.writeDepot_wf
    | with_reducible apply State.sysWrite_wf
    | (with_reducible refine wf_of_fst (by assumption) ?_)
    | dsimp only
    | split

theorem State.dmaWritePiece_wf (s : State) (a : Nat) (bs : List (Option Byte)) (mark : Bool) (hs : s.mem.wf = true) :
    (State.dmaWritePiece s a bs mark).1.mem.wf = true := by
  unfold State.dmaWritePiece
  repeat' first
    | with_reducible assumption
    | intro _
    | with_reducible apply State.writeRange_wf
    | with_reducible apply State.regWrite_wf
    | (with_reducible refine wf_of_fst (by assumption) ?_)
    | with_reducible apply wf_foldl
    | with_reducible apply wf_foldl1
    | dsimp only
    | split

theorem State.dmaWriteRange_wf (s : State) (a : Nat) (bs : List (Option Byte)) (mark : Bool) (hs : s.mem.wf = true) :
    (State.dmaWriteRange s a bs mark).1.mem.wf = true := by
  unfold State.dmaWriteRange
  repeat' first
    | with_reducible assumption
    | intro _
    | with_reducible apply State.dmaWritePiece_wf
    | (with_reducible refine wf_of_fst (by assumption) ?_)
    | with_reducible apply wf_foldl
    | with_reducible apply wf_foldl1

theorem State.mergeEcc_wf (s : State) (a : Nat) (bs : List (Option Byte)) (ecc : Ecc) (hs : s.mem.wf = true) :
    (State.mergeEcc s a bs ecc).mem.wf = true := by
  unfold State.mergeEcc
  repeat' first
    | with_reducible assumption
    | intro _
    | with_reducible apply State.yardEcc_wf
    | dsimp only
    | split

theorem State.writeEcc_wf (s : State) (a : Nat) (bs : List (Option Byte)) (ecc : Ecc) (hs : s.mem.wf = true) :
    (State.writeEcc s a bs ecc).mem.wf = true := by
  unfold State.writeEcc
  repeat' first
    | with_reducible assumption
    | intro _
    | with_reducible apply State.mergeEcc_wf
    | dsimp only
    | split

theorem State.dmaWrite_wf (s : State) (q : Nat) (j : DmaJob) (bytes : List (Option Byte)) (bad : Option (Nat × Nat)) (poison : Option Nat) (ecc : Ecc) (hs : s.mem.wf = true) :
    (State.dmaWrite s q j bytes bad poison ecc).mem.wf = true := by
  unfold State.dmaWrite
  repeat' first
    | with_reducible assumption
    | intro _
    | with_reducible apply State.writeEcc_wf
    | with_reducible apply State.endDma_wf
    | with_reducible apply State.dmaRequests_wf
    | with_reducible apply State.hostWriteGaps_wf
    | with_reducible apply State.dmaWriteRange_wf
    | with_reducible apply State.log_wf
    | with_reducible apply State.setQueue_wf
    | with_reducible apply State.fresh_wf
    | (with_reducible refine wf_of_fst (by assumption) ?_)
    | dsimp only
    | split

theorem State.uncorrConfig_wf (s : State) (c : Nat) (key : Nat) (detail : Nat) (hs : s.mem.wf = true) :
    (State.uncorrConfig s c key detail).mem.wf = true := by
  unfold State.uncorrConfig
  repeat' first
    | with_reducible assumption
    | intro _
    | with_reducible apply State.modCore_wf
    | with_reducible apply State.redFlag_wf

theorem State.cpReadEffect_wf (s : State) (c : Nat) (p : Nat) (m : W64) (hs : s.mem.wf = true) :
    (State.cpReadEffect s c p m).mem.wf = true := by
  unfold State.cpReadEffect
  repeat' first
    | with_reducible assumption
    | intro _
    | with_reducible apply State.uncorrConfig_wf
    | with_reducible apply State.setCore_wf
    | dsimp only
    | split

theorem State.semRegRead_wf (s : State) (i : Nat) (off : Nat) (hs : s.mem.wf = true) :
    (State.semRegRead s i off).1.mem.wf = true := by
  unfold State.semRegRead
  repeat' first
    | with_reducible assumption
    | intro _
    | with_reducible apply State.semExpire_wf
    | with_reducible apply State.semTry_wf
    | (with_reducible refine wf_of_fst (by assumption) ?_)
    | dsimp only
    | split

theorem State.clearCc_wf (s : State) (o : Nat) (m : W64) (hs : s.mem.wf = true) :
    (State.clearCc s o m).mem.wf = true := by
  unfold State.clearCc
  repeat' first
    | with_reducible assumption
    | intro _
    | dsimp only
    | split

theorem State.clearSb_wf (s : State) (o : Nat) (m : W64) (hs : s.mem.wf = true) :
    (State.clearSb s o m).mem.wf = true := by
  unfold State.clearSb
  repeat' first
    | with_reducible assumption
    | intro _
    | dsimp only
    | split

theorem State.clearHi_wf (s : State) (o : Nat) (m : W64) (hs : s.mem.wf = true) :
    (State.clearHi s o m).mem.wf = true := by
  unfold State.clearHi
  repeat' first
    | with_reducible assumption
    | intro _
    | with_reducible apply State.setQueue_wf
    | with_reducible apply wf_foldl
    | with_reducible apply wf_foldl1
    | dsimp only
    | split

theorem State.clearMl_wf (s : State) (o : Nat) (m : W64) (hs : s.mem.wf = true) :
    (State.clearMl s o m).mem.wf = true := by
  unfold State.clearMl
  repeat' first
    | with_reducible assumption
    | intro _
    | with_reducible apply State.modPort_wf
    | dsimp only
    | split

theorem State.clearHb_wf (s : State) (o : Nat) (m : W64) (hs : s.mem.wf = true) :
    (State.clearHb s o m).mem.wf = true := by
  unfold State.clearHb
  repeat' first
    | with_reducible assumption
    | intro _
    | dsimp only
    | split

theorem State.clearAw_wf (s : State) (o : Nat) (m : W64) (hs : s.mem.wf = true) :
    (State.clearAw s o m).mem.wf = true := by
  unfold State.clearAw
  repeat' first
    | with_reducible assumption
    | intro _
    | dsimp only
    | split

theorem State.clearEc_wf (s : State) (o : Nat) (m : W64) (hs : s.mem.wf = true) :
    (State.clearEc s o m).mem.wf = true := by
  unfold State.clearEc
  repeat' first
    | with_reducible assumption
    | intro _
    | dsimp only
    | split

theorem State.uartTake_wf (s : State) (u : Nat) (hs : s.mem.wf = true) :
    (State.uartTake s u).1.mem.wf = true := by
  unfold State.uartTake
  repeat' first
    | with_reducible assumption
    | intro _
    | with_reducible apply State.setUart_wf
    | (with_reducible refine wf_of_fst (by assumption) ?_)
    | dsimp only
    | split

theorem State.clearSd_wf (s : State) (o : Nat) (m : W64) (hs : s.mem.wf = true) :
    (State.clearSd s o m).mem.wf = true := by
  unfold State.clearSd
  repeat' first
    | with_reducible assumption
    | intro _
    | with_reducible apply State.setUart_wf
    | with_reducible apply State.uartTake_wf
    | (with_reducible refine wf_of_fst (by assumption) ?_)
    | dsimp only
    | split

theorem State.clearRgn_wf (s : State) (o : Nat) (m : W64) (hs : s.mem.wf = true) :
    (State.clearRgn s o m).mem.wf = true := by
  unfold State.clearRgn
  repeat' first
    | with_reducible assumption
    | intro _
    | with_reducible apply State.setSemDie_wf
    | dsimp only
    | split

theorem State.sysReadEffect_wf (s : State) (off : Nat) (m : W64) (hs : s.mem.wf = true) :
    (State.sysReadEffect s off m).mem.wf = true := by
  unfold State.sysReadEffect
  repeat' first
    | with_reducible assumption
    | intro _
    | with_reducible apply State.clearCc_wf
    | with_reducible apply State.clearSb_wf
    | with_reducible apply State.clearHi_wf
    | with_reducible apply State.clearMl_wf
    | with_reducible apply State.clearHb_wf
    | with_reducible apply State.clearAw_wf
    | with_reducible apply State.clearEc_wf
    | with_reducible apply State.clearSd_wf
    | with_reducible apply State.clearRgn_wf
    | dsimp only
    | split

theorem State.clearDepot_wf (s : State) (o : Nat) (m : W64) (hs : s.mem.wf = true) :
    (State.clearDepot s o m).mem.wf = true := by
  unfold State.clearDepot
  repeat' first
    | with_reducible assumption
    | intro _
    | dsimp only
    | split

theorem State.regRead_wf (s : State) (l : Loc) (n : Nat) (hs : s.mem.wf = true) :
    (State.regRead s l n).1.mem.wf = true := by
  unfold State.regRead
  repeat' first
    | with_reducible assumption
    | intro _
    | with_reducible apply State.cpReadEffect_wf
    | with_reducible apply State.semRegRead_wf
    | with_reducible apply State.clearDepot_wf
    | with_reducible apply State.sysReadEffect_wf
    | (with_reducible refine wf_of_fst (by assumption) ?_)
    | dsimp only
    | split

theorem State.dmaReadPiece_wf (s : State) (a : Nat) (n : Nat) (hs : s.mem.wf = true) :
    (State.dmaReadPiece s a n).1.mem.wf = true := by
  unfold State.dmaReadPiece
  repeat' first
    | with_reducible assumption
    | intro _
    | with_reducible apply State.readRange_wf
    | with_reducible apply State.regRead_wf
    | (with_reducible refine wf_of_fst (by assumption) ?_)
    | with_reducible apply wf_foldl
    | with_reducible apply wf_foldl1
    | dsimp only
    | split

theorem State.dmaReadRange_wf (s : State) (a : Nat) (n : Nat) (hs : s.mem.wf = true) :
    (State.dmaReadRange s a n).1.mem.wf = true := by
  unfold State.dmaReadRange
  repeat' first
    | with_reducible assumption
    | intro _
    | with_reducible apply State.dmaReadPiece_wf
    | (with_reducible refine wf_of_fst (by assumption) ?_)
    | with_reducible apply wf_foldl
    | with_reducible apply wf_foldl1

theorem State.poisonHbm_wf (s : State) (line : Nat) (hs : s.mem.wf = true) :
    (State.poisonHbm s line).mem.wf = true := by
  unfold State.poisonHbm
  repeat' first
    | with_reducible assumption
    | intro _
    | with_reducible apply State.markPoison_wf
    | with_reducible apply State.log_wf
    | dsimp only
    | split

theorem State.hbmEcc_wf (s : State) (line : Nat) (e : Ecc) (hw : s.mem.wf = true) : (s.hbmEcc line e).mem.wf = true := by
  cases e
  · exact hw
  · exact State.corrected_wf _ _ hw
  · exact State.poisonHbm_wf _ _ hw

theorem State.logPoison_wf (s : State) (slice : Nat) (line : Nat) (detail : Nat) (hs : s.mem.wf = true) :
    (State.logPoison s slice line detail).mem.wf = true := by
  unfold State.logPoison
  repeat' first
    | with_reducible assumption
    | intro _
    | with_reducible apply State.log_wf

theorem State.sliceEcc_wf (s : State) (slice : Nat) (line : Nat) (ecc : Ecc) (hs : s.mem.wf = true) :
    (State.sliceEcc s slice line ecc).mem.wf = true := by
  unfold State.sliceEcc
  repeat' first
    | with_reducible assumption
    | intro _
    | with_reducible apply State.setLine_wf
    | with_reducible apply State.setSiding_wf
    | with_reducible apply State.hbmEcc_wf
    | with_reducible apply State.logPoison_wf
    | with_reducible apply State.corrected_wf
    | dsimp only
    | split

theorem State.lineEcc_wf (s : State) (line : Nat) (ecc : Ecc) (hs : s.mem.wf = true) :
    (State.lineEcc s line ecc).mem.wf = true := by
  unfold State.lineEcc
  repeat' first
    | with_reducible assumption
    | intro _
    | with_reducible apply State.hbmEcc_wf
    | with_reducible apply State.sliceEcc_wf
    | dsimp only
    | split

theorem State.readEcc_wf (s : State) (a : Nat) (n : Nat) (ecc : Ecc) (hs : s.mem.wf = true) :
    (State.readEcc s a n ecc).mem.wf = true := by
  unfold State.readEcc
  repeat' first
    | with_reducible assumption
    | intro _
    | with_reducible apply State.yardEcc_wf
    | with_reducible apply State.lineEcc_wf
    | dsimp only
    | split

theorem State.dmaSource_wf (s : State) (j : DmaJob) (host : HostAnswer) (ecc : Ecc) (hs : s.mem.wf = true) :
    (State.dmaSource s j host ecc).1.mem.wf = true := by
  unfold State.dmaSource
  repeat' first
    | with_reducible assumption
    | intro _
    | with_reducible apply State.readEcc_wf
    | with_reducible apply State.dmaReadRange_wf
    | (with_reducible refine wf_of_fst (by assumption) ?_)
    | dsimp only
    | split

theorem State.dmaAnswer_wf (s : State) (q : Nat) (w : Pending) (st : RespStatus) (payload : List Byte) (hs : s.mem.wf = true) :
    (State.dmaAnswer s q w st payload).mem.wf = true := by
  unfold State.dmaAnswer
  repeat' first
    | with_reducible assumption
    | intro _
    | with_reducible apply State.retireDma_wf
    | with_reducible apply State.setQueue_wf
    | with_reducible apply wf_foldl
    | with_reducible apply wf_foldl1
    | dsimp only
    | split

theorem State.dmaRefused_wf (s : State) (q : Nat) (hs : s.mem.wf = true) :
    (State.dmaRefused s q).2.mem.wf = true := by
  unfold State.dmaRefused
  repeat' first
    | with_reducible assumption

theorem State.completeDma_wf (s : State) (q : Nat) (host : HostAnswer) (ecc : Ecc) (hs : s.mem.wf = true) :
    (State.completeDma s q host ecc).mem.wf = true := by
  unfold State.completeDma
  repeat' first
    | with_reducible assumption
    | intro _
    | with_reducible apply State.completionWord_wf
    | with_reducible apply State.endDma_wf
    | with_reducible apply State.dmaSource_wf
    | with_reducible apply State.dmaWrite_wf
    | with_reducible apply State.dmaRefused_wf
    | with_reducible apply State.setQueue_wf
    | (with_reducible refine wf_of_fst (by assumption) ?_)
    | dsimp only
    | split

theorem State.fetchSlot_wf (s : State) (k : Queue) (slot : Nat) (ring : HostAnswer) (ecc : Ecc) (hs : s.mem.wf = true) :
    (State.fetchSlot s k slot ring ecc).1.mem.wf = true := by
  unfold State.fetchSlot
  repeat' first
    | with_reducible assumption
    | intro _
    | with_reducible apply State.readEcc_wf
    | with_reducible apply State.readRange_wf
    | (with_reducible refine wf_of_fst (by assumption) ?_)
    | dsimp only
    | split

theorem State.startDma_wf (s : State) (q : Nat) (ring : HostAnswer) (ecc : Ecc) (hs : s.mem.wf = true) :
    (State.startDma s q ring ecc).mem.wf = true := by
  unfold State.startDma
  repeat' first
    | with_reducible assumption
    | intro _
    | with_reducible apply State.endDma_wf
    | with_reducible apply State.dmaRequests_wf
    | with_reducible apply State.fetchSlot_wf
    | with_reducible apply State.setQueue_wf
    | with_reducible apply State.emit_wf
    | (with_reducible refine wf_of_fst (by assumption) ?_)
    | dsimp only
    | split

theorem State.dmaSignal_wf (s : State) (q : Nat) (hs : s.mem.wf = true) :
    (State.dmaSignal s q).mem.wf = true := by
  unfold State.dmaSignal
  repeat' first
    | with_reducible assumption
    | intro _
    | with_reducible apply State.retireDma_wf
    | with_reducible apply State.setQueue_wf
    | with_reducible apply State.request_wf
    | with_reducible apply State.countNoRoute_wf
    | with_reducible apply State.semSignal_wf
    | (with_reducible refine wf_of_fst (by assumption) ?_)
    | with_reducible apply OptWf.some
    | with_reducible exact OptWf.none
    | with_reducible apply OptWf.map
    | with_reducible apply OptWf.setOf
    | with_reducible apply OptWf.bind
    | (with_reducible refine OptWf.use (by assumption) ?_)
    | with_reducible apply OptWf.getD
    | dsimp only
    | split

theorem State.readResult_wf (s : State) (a : Nat) (hs : s.mem.wf = true) :
    (State.readResult s a).1.mem.wf = true := by
  unfold State.readResult
  repeat' first
    | with_reducible assumption
    | intro _
    | (with_reducible refine wf_of_fst (by assumption) ?_)
    | with_reducible apply wf_foldl
    | with_reducible apply wf_foldl1
    | dsimp only
    | split

theorem State.commitResult_wf (s : State) (hs : s.mem.wf = true) :
    (State.commitResult s).1.mem.wf = true := by
  unfold State.commitResult
  repeat' first
    | with_reducible assumption
    | intro _
    | with_reducible apply State.setFlash_wf
    | (with_reducible refine wf_of_fst (by assumption) ?_)
    | dsimp only
    | split

theorem State.programResult_wf (s : State) (a : Nat) (hs : s.mem.wf = true) :
    (State.programResult s a).1.mem.wf = true := by
  unfold State.programResult
  repeat' first
    | with_reducible assumption
    | intro _
    | with_reducible apply State.setFlash_wf
    | (with_reducible refine wf_of_fst (by assumption) ?_)
    | dsimp only
    | split

theorem State.blockErased_wf (s : State) (hs : s.mem.wf = true) :
    (State.blockErased s).mem.wf = true := by
  unfold State.blockErased
  repeat' first
    | with_reducible assumption
    | intro _
    | with_reducible apply State.setFlash_wf
    | with_reducible apply State.flashResult_wf
    | with_reducible apply State.beginBlock_wf
    | with_reducible apply State.chooseSlot_wf
    | dsimp only
    | split

theorem State.flashDone_wf (s : State) (hs : s.mem.wf = true) :
    (State.flashDone s).mem.wf = true := by
  unfold State.flashDone
  repeat' first
    | with_reducible assumption
    | intro _
    | with_reducible apply State.setFlash_wf
    | with_reducible apply State.flashResult_wf
    | with_reducible apply State.readResult_wf
    | with_reducible apply State.programResult_wf
    | with_reducible apply State.commitResult_wf
    | (with_reducible refine wf_of_fst (by assumption) ?_)
    | dsimp only
    | split

theorem State.jtag_wf (s : State) (code : BitVec 5) (hs : s.mem.wf = true) :
    (State.jtag s code).mem.wf = true := by
  unfold State.jtag
  repeat' first
    | with_reducible assumption

theorem State.jtagDrive_wf (s : State) (code : BitVec 5) (drive : Option (BitVec 37)) (hs : s.mem.wf = true) :
    (State.jtagDrive s code drive).mem.wf = true := by
  unfold State.jtagDrive
  repeat' first
    | with_reducible assumption
    | intro _
    | with_reducible apply State.emit_wf
    | with_reducible apply State.jtag_wf
    | dsimp only
    | split

theorem State.sendControl_wf (s : State) (p : Nat) (key : Nat) (hs : s.mem.wf = true) :
    (State.sendControl s p key).mem.wf = true := by
  unfold State.sendControl
  repeat' first
    | with_reducible assumption
    | intro _
    | with_reducible apply State.emit_wf

theorem State.exchange_wf (s : State) (off : Int) (parentSynced : Bool) (hs : s.mem.wf = true) :
    (State.exchange s off parentSynced).mem.wf = true := by
  unfold State.exchange
  repeat' first
    | with_reducible assumption
    | intro _
    | dsimp only
    | split

theorem State.takeAck_wf (s : State) (p : Nat) (ack : W16) (hs : s.mem.wf = true) :
    (State.takeAck s p ack).mem.wf = true := by
  unfold State.takeAck
  repeat' first
    | with_reducible assumption
    | intro _
    | with_reducible apply State.setPort_wf
    | dsimp only
    | split

theorem State.resend_wf (s : State) (p : Nat) (hs : s.mem.wf = true) :
    (State.resend s p).mem.wf = true := by
  unfold State.resend
  repeat' first
    | with_reducible assumption
    | intro _
    | with_reducible apply State.leaveUp_wf
    | with_reducible apply State.setPort_wf
    | with_reducible apply State.emit_wf
    | with_reducible apply wf_forEach
    | dsimp only
    | split

theorem State.badCrc_wf (s : State) (p : Nat) (key : Nat) (hs : s.mem.wf = true) :
    (State.badCrc s p key).mem.wf = true := by
  unfold State.badCrc
  repeat' first
    | with_reducible assumption
    | intro _
    | with_reducible apply State.sendControl_wf
    | with_reducible apply State.modPort_wf

theorem State.linkControlAt_wf (s : State) (p : Nat) (hs : s.mem.wf = true) :
    (State.linkControlAt s p).mem.wf = true := by
  unfold State.linkControlAt
  repeat' first
    | with_reducible assumption
    | intro _
    | with_reducible apply State.resend_wf
    | with_reducible apply State.takeAck_wf
    | with_reducible apply State.badCrc_wf
    | with_reducible apply State.setPort_wf
    | with_reducible apply State.modPort_wf
    | dsimp only
    | split

theorem State.sendFront_wf (s : State) (p : Nat) (vc : Nat) (hs : s.mem.wf = true) :
    (State.sendFront s p vc).mem.wf = true := by
  unfold State.sendFront
  repeat' first
    | with_reducible assumption
    | intro _
    | with_reducible apply State.setPort_wf
    | with_reducible apply State.emit_wf
    | dsimp only
    | split

theorem State.patrolFixed_wf (s : State) (hs : s.mem.wf = true) :
    (State.patrolFixed s).mem.wf = true := by
  unfold State.patrolFixed
  repeat' first
    | with_reducible assumption

theorem State.uncorrRoute_wf (s : State) (p : Nat) (hs : s.mem.wf = true) :
    (State.uncorrRoute s p).mem.wf = true := by
  unfold State.uncorrRoute
  repeat' first
    | with_reducible assumption
    | intro _
    | with_reducible apply State.log_wf
    | with_reducible apply State.portDown_wf
    | with_reducible apply State.modPort_wf

theorem State.patrolAt_wf (s : State) (t : PatrolTarget) (ecc : Ecc) (hs : s.mem.wf = true) :
    (State.patrolAt s t ecc).mem.wf = true := by
  unfold State.patrolAt
  repeat' first
    | with_reducible assumption
    | intro _
    | with_reducible apply State.uncorrConfig_wf
    | with_reducible apply State.uncorrRoute_wf
    | with_reducible apply State.patrolFixed_wf
    | dsimp only
    | split

theorem State.semCancel_wf (s : State) (sem : Nat) (c : Nat) (id : Nat) (hs : s.mem.wf = true) :
    (State.semCancel s sem c id).mem.wf = true := by
  unfold State.semCancel
  repeat' first
    | with_reducible assumption
    | intro _
    | with_reducible apply State.modCore_wf
    | with_reducible apply State.semWithdraw_wf
    | (with_reducible refine wf_of_fst (by assumption) ?_)
    | dsimp only
    | split

theorem State.semApply_wf (s : State) (c : Nat) (o : Op) (sem : Nat) (hs : s.mem.wf = true) :
    (State.semApply s c o sem).mem.wf = true := by
  unfold State.semApply
  repeat' first
    | with_reducible assumption
    | intro _
    | with_reducible apply State.modCore_wf
    | with_reducible apply State.semCancel_wf
    | with_reducible apply State.semOperate_wf
    | (with_reducible refine wf_of_fst (by assumption) ?_)
    | dsimp only
    | split

theorem State.semResult_wf (s : State) (c : Nat) (id : Nat) (hs : s.mem.wf = true) :
    (State.semResult s c id).mem.wf = true := by
  unfold State.semResult
  repeat' first
    | with_reducible assumption
    | intro _
    | with_reducible apply State.modCore_wf
    | with_reducible apply State.countNoRoute_wf
    | dsimp only
    | split

theorem State.semRow_wf (s : State) (q : SemReq) (ports : List Nat) (hs : s.mem.wf = true) :
    (State.semRow s q ports).mem.wf = true := by
  unfold State.semRow
  repeat' first
    | with_reducible assumption
    | intro _
    | with_reducible apply State.semApply_wf
    | with_reducible apply State.semDirect_wf
    | dsimp only
    | split

theorem State.countCollision_wf (s : State) (hs : s.mem.wf = true) :
    (State.countCollision s).mem.wf = true := by
  unfold State.countCollision
  repeat' first
    | with_reducible assumption

theorem State.evictFor_wf (s : State) (e : DxEntry) (l : List (Nat × DxEntry)) (hs : s.mem.wf = true) :
    (State.evictFor s e l).1.mem.wf = true := by
  unfold State.evictFor
  repeat' first
    | with_reducible assumption
    | intro _
    | with_reducible apply State.writeEntry_wf
    | with_reducible apply State.nsRefresh_wf
    | (with_reducible refine wf_of_fst (by assumption) ?_)
    | dsimp only
    | split

theorem State.insertNew_wf (s : State) (e : DxEntry) (ways : List (Nat × DxEntry)) (hs : s.mem.wf = true) :
    (State.insertNew s e ways).1.mem.wf = true := by
  unfold State.insertNew
  repeat' first
    | with_reducible assumption
    | intro _
    | with_reducible apply State.evictFor_wf
    | with_reducible apply State.writeEntry_wf
    | (with_reducible refine wf_of_fst (by assumption) ?_)
    | dsimp only
    | split

theorem State.listBytes_wf (s : State) (a : Nat) (n : Nat) (hs : s.mem.wf = true) :
    (State.listBytes s a n).1.mem.wf = true := by
  unfold State.listBytes
  repeat' first
    | with_reducible assumption
    | intro _
    | with_reducible apply State.readRange_wf
    | (with_reducible refine wf_of_fst (by assumption) ?_)
    | dsimp only
    | split

theorem State.walkStart_wf (s : State) (a : DxArgs) (hs : s.mem.wf = true) :
    (State.walkStart s a).1.mem.wf = true := by
  unfold State.walkStart
  repeat' first
    | with_reducible assumption
    | intro _
    | with_reducible apply State.listBytes_wf

theorem State.insertHeld_wf (s : State) (e : DxEntry) (p : Nat × DxEntry) (hs : s.mem.wf = true) :
    (State.insertHeld s e p).1.mem.wf = true := by
  unfold State.insertHeld
  repeat' first
    | with_reducible assumption
    | intro _
    | with_reducible apply State.countCollision_wf
    | with_reducible apply State.writeEntry_wf
    | (with_reducible refine wf_of_fst (by assumption) ?_)
    | dsimp only
    | split

theorem State.insertInto_wf (e : DxEntry) (r : State × List (Nat × DxEntry)) (hr : r.1.mem.wf = true) :
    (State.insertInto e r).1.mem.wf = true := by
  unfold State.insertInto
  repeat' first
    | with_reducible assumption
    | intro _
    | with_reducible apply State.insertHeld_wf
    | with_reducible apply State.insertNew_wf
    | (with_reducible refine wf_of_fst (by assumption) ?_)
    | dsimp only
    | split

theorem State.bucket_wf (s : State) (digest : W64) (hw : s.mem.wf = true) : (s.bucket digest).1.mem.wf = true := by
  unfold State.bucket
  exact wf_foldl1 (fun _ _ h => wf_mk (State.readEntry_wf _ _ h)) hw

theorem State.insertEntry_wf (s : State) (e : DxEntry) (hs : s.mem.wf = true) :
    (State.insertEntry s e).1.mem.wf = true := by
  unfold State.insertEntry
  repeat' first
    | with_reducible assumption
    | intro _
    | with_reducible apply State.bucket_wf
    | with_reducible apply State.insertInto_wf

theorem State.dxInsert_wf (s : State) (a : DxArgs) (hs : s.mem.wf = true) :
    (State.dxInsert s a).1.mem.wf = true := by
  unfold State.dxInsert
  repeat' first
    | with_reducible assumption
    | intro _
    | with_reducible apply State.insertEntry_wf
    | (with_reducible refine wf_of_fst (by assumption) ?_)
    | dsimp only
    | split

theorem State.pinIn_wf (a : DxArgs) (slot : Nat) (r : State × List (Nat × DxEntry)) (hr : r.1.mem.wf = true) :
    (State.pinIn a slot r).1.mem.wf = true := by
  unfold State.pinIn
  repeat' first
    | with_reducible assumption
    | intro _
    | with_reducible apply State.writeEntry_wf
    | (with_reducible refine wf_of_fst (by assumption) ?_)
    | dsimp only
    | split

theorem State.dxPin_wf (s : State) (a : DxArgs) (hs : s.mem.wf = true) :
    (State.dxPin s a).1.mem.wf = true := by
  unfold State.dxPin
  repeat' first
    | with_reducible assumption
    | intro _
    | with_reducible apply State.bucket_wf
    | with_reducible apply State.pinIn_wf
    | (with_reducible refine wf_of_fst (by assumption) ?_)
    | dsimp only
    | split

theorem State.releaseIn_wf (digest : W64) (page : Nat) (r : State × List (Nat × DxEntry)) (hr : r.1.mem.wf = true) :
    (State.releaseIn digest page r).1.mem.wf = true := by
  unfold State.releaseIn
  repeat' first
    | with_reducible assumption
    | intro _
    | with_reducible apply State.writeEntry_wf
    | (with_reducible refine wf_of_fst (by assumption) ?_)
    | dsimp only
    | split

theorem State.releaseOne_wf (s : State) (rec : List Byte) (hs : s.mem.wf = true) :
    (State.releaseOne s rec).1.mem.wf = true := by
  unfold State.releaseOne
  repeat' first
    | with_reducible assumption
    | intro _
    | with_reducible apply State.bucket_wf
    | with_reducible apply State.releaseIn_wf
    | (with_reducible refine wf_of_fst (by assumption) ?_)
    | dsimp only
    | split

theorem State.dxRelease_wf (s : State) (a : DxArgs) (hs : s.mem.wf = true) :
    (State.dxRelease s a).1.mem.wf = true := by
  unfold State.dxRelease
  repeat' first
    | with_reducible assumption
    | intro _
    | with_reducible apply State.listBytes_wf
    | with_reducible apply State.releaseOne_wf
    | (with_reducible refine wf_of_fst (by assumption) ?_)
    | with_reducible apply wf_foldl
    | with_reducible apply wf_foldl1
    | dsimp only
    | split

theorem State.listWrite_wf (s : State) (a : Nat) (bs : List Byte) (hs : s.mem.wf = true) :
    (State.listWrite s a bs).mem.wf = true := by
  unfold State.listWrite
  repeat' first
    | with_reducible assumption
    | intro _
    | with_reducible apply State.writeRange_wf
    | (with_reducible refine wf_of_fst (by assumption) ?_)
    | dsimp only
    | split

theorem State.scanOne_wf (a : DxArgs) (slot : Option Nat) (p : State × Nat × Bool) (x : Nat) (hp : p.1.mem.wf = true) :
    (State.scanOne a slot p x).1.mem.wf = true := by
  unfold State.scanOne
  repeat' first
    | with_reducible assumption
    | intro _
    | with_reducible apply State.listWrite_wf
    | with_reducible apply State.readEntry_wf
    | with_reducible apply State.writeEntry_wf
    | (with_reducible refine wf_of_fst (by assumption) ?_)
    | dsimp only
    | split

theorem State.dxScan_wf (s : State) (a : DxArgs) (hs : s.mem.wf = true) :
    (State.dxScan s a).1.mem.wf = true := by
  unfold State.dxScan
  repeat' first
    | with_reducible assumption
    | intro _
    | with_reducible apply State.scanOne_wf
    | with_reducible apply State.nsRefresh_wf
    | (with_reducible refine wf_of_fst (by assumption) ?_)
    | with_reducible apply wf_foldl
    | with_reducible apply wf_foldl1
    | dsimp only
    | split

theorem State.dxCommand_wf (s : State) (port : Nat) (a : DxArgs) (hs : s.mem.wf = true) :
    (State.dxCommand s port a).1.mem.wf = true := by
  unfold State.dxCommand
  repeat' first
    | with_reducible assumption
    | intro _
    | with_reducible apply State.dxInsert_wf
    | with_reducible apply State.dxPin_wf
    | with_reducible apply State.dxRelease_wf
    | with_reducible apply State.dxScan_wf
    | (with_reducible refine wf_of_fst (by assumption) ?_)
    | dsimp only
    | split

theorem State.dxResult_wf (s : State) (q : DxReq) (w : W64) (page : Option W64) (hs : s.mem.wf = true) :
    (State.dxResult s q w page).mem.wf = true := by
  unfold State.dxResult
  repeat' first
    | with_reducible assumption
    | intro _
    | with_reducible apply State.modCore_wf
    | dsimp only
    | split

theorem State.dxServe_wf (s : State) (q : DxReq) (port : Nat) (hs : s.mem.wf = true) :
    (State.dxServe s q port).mem.wf = true := by
  unfold State.dxServe
  repeat' first
    | with_reducible assumption
    | intro _
    | with_reducible apply State.dxCommand_wf
    | with_reducible apply State.dxResult_wf
    | (with_reducible refine wf_of_fst (by assumption) ?_)
    | dsimp only
    | split

theorem State.modDx_wf (s : State) (q : DxReq) (f : Option DxWalk) (hs : s.mem.wf = true) :
    (State.modDx s q f).mem.wf = true := by
  unfold State.modDx
  repeat' first
    | with_reducible assumption
    | intro _
    | with_reducible apply State.modCore_wf
    | dsimp only
    | split

theorem State.dxWalkTo_wf (s : State) (q : DxReq) (w : DxWalk) (hs : s.mem.wf = true) :
    (State.dxWalkTo s q w).mem.wf = true := by
  unfold State.dxWalkTo
  repeat' first
    | with_reducible assumption
    | intro _
    | with_reducible apply State.modDx_wf
    | with_reducible apply State.dxResult_wf
    | dsimp only
    | split

theorem State.trailerMatches_wf (s : State) (page : Nat) (toks : List W32) (hs : s.mem.wf = true) :
    (State.trailerMatches s page toks).1.mem.wf = true := by
  unfold State.trailerMatches
  repeat' first
    | with_reducible assumption
    | intro _
    | with_reducible apply State.readRange_wf
    | (with_reducible refine wf_of_fst (by assumption) ?_)
    | dsimp only
    | split

theorem State.verified_wf (a : DxArgs) (toks : List W32) (s : State) (l : List (Nat × DxEntry)) (hs : s.mem.wf = true) :
    (State.verified a toks s l).1.mem.wf = true := by
  induction l generalizing s with
  | nil => exact hs
  | cons p t ih =>
    have h := State.trailerMatches_wf s p.2.page toks hs
    unfold State.verified
    dsimp only
    split <;> split
    · exact h
    · exact ih _ h
    · exact hs
    · exact ih _ hs

theorem State.hitIn_wf (a : DxArgs) (slot : Option Nat) (digest : W64) (toks : List W32) (r : State × List (Nat × DxEntry)) (hr : r.1.mem.wf = true) :
    (State.hitIn a slot digest toks r).1.mem.wf = true := by
  unfold State.hitIn
  repeat' first
    | with_reducible assumption
    | intro _
    | with_reducible apply State.countCollision_wf
    | with_reducible apply State.verified_wf
    | with_reducible apply State.writeEntry_wf
    | (with_reducible refine wf_of_fst (by assumption) ?_)
    | dsimp only
    | split

theorem State.blockHit_wf (s : State) (a : DxArgs) (digest : W64) (toks : List W32) (hs : s.mem.wf = true) :
    (State.blockHit s a digest toks).1.mem.wf = true := by
  unfold State.blockHit
  repeat' first
    | with_reducible assumption
    | intro _
    | with_reducible apply State.bucket_wf
    | with_reducible apply State.hitIn_wf

theorem State.lookupStart_wf (s : State) (q : DxReq) (hs : s.mem.wf = true) :
    (State.lookupStart s q).mem.wf = true := by
  unfold State.lookupStart
  repeat' first
    | with_reducible assumption
    | intro _
    | with_reducible apply State.walkStart_wf
    | with_reducible apply State.dxResult_wf
    | with_reducible apply State.dxWalkTo_wf
    | (with_reducible refine wf_of_fst (by assumption) ?_)
    | dsimp only
    | split

theorem State.walkBlock_wf (s : State) (a : DxArgs) (w : DxWalk) (hs : s.mem.wf = true) :
    (State.walkBlock s a w).1.mem.wf = true := by
  unfold State.walkBlock
  repeat' first
    | with_reducible assumption
    | intro _
    | with_reducible apply State.listWrite_wf
    | with_reducible apply State.blockHit_wf
    | (with_reducible refine wf_of_fst (by assumption) ?_)
    | dsimp only
    | split

theorem State.lookupBlock_wf (s : State) (q : DxReq) (hs : s.mem.wf = true) :
    (State.lookupBlock s q).mem.wf = true := by
  unfold State.lookupBlock
  repeat' first
    | with_reducible assumption
    | intro _
    | with_reducible apply State.walkBlock_wf
    | with_reducible apply State.dxWalkTo_wf
    | (with_reducible refine wf_of_fst (by assumption) ?_)
    | dsimp only
    | split

theorem State.msixFlush_wf (s : State) (v : Nat) (hs : s.mem.wf = true) :
    (State.msixFlush s v).mem.wf = true := by
  unfold State.msixFlush
  repeat' first
    | with_reducible assumption
    | intro _
    | with_reducible apply State.sendMsix_wf
    | dsimp only
    | split

theorem State.writeMsix_wf (s : State) (o : Nat) (v : W64) (m : W64) (hs : s.mem.wf = true) :
    (State.writeMsix s o v m).mem.wf = true := by
  unfold State.writeMsix
  repeat' first
    | with_reducible assumption
    | intro _
    | with_reducible apply State.msixFlush_wf

theorem State.refuseHost_wf (s : State) (read : Bool) (kind : Nat) (t : RegTarget) (src : Source) (hs : s.mem.wf = true) :
    (State.refuseHost s read kind t src).mem.wf = true := by
  unfold State.refuseHost
  repeat' first
    | with_reducible assumption
    | intro _
    | with_reducible apply State.hostFailure_wf
    | dsimp only
    | split

theorem State.hostRequest_wf (s : State) (read : Bool) (a : Nat) (n : Nat) (v : W64) (t : RegTarget) (src : Source) (hs : s.mem.wf = true) :
    (State.hostRequest s read a n v t src).mem.wf = true := by
  unfold State.hostRequest
  repeat' first
    | with_reducible assumption
    | intro _
    | with_reducible apply State.refuseHost_wf
    | with_reducible apply State.request_wf
    | with_reducible apply State.countNoRoute_wf
    | with_reducible apply OptWf.some
    | with_reducible exact OptWf.none
    | with_reducible apply OptWf.map
    | with_reducible apply OptWf.setOf
    | with_reducible apply OptWf.bind
    | (with_reducible refine OptWf.use (by assumption) ?_)
    | with_reducible apply OptWf.getD
    | dsimp only
    | split

theorem State.readReply_wf (s : State) (src : Source) (n : Nat) (v : W64) (hs : s.mem.wf = true) :
    (State.readReply s src n v).mem.wf = true := by
  unfold State.readReply
  repeat' first
    | with_reducible assumption
    | intro _
    | with_reducible apply State.emit_wf
    | dsimp only
    | split

theorem State.msixFlushAll_wf (s : State) (hs : s.mem.wf = true) :
    (State.msixFlushAll s).mem.wf = true := by
  unfold State.msixFlushAll
  repeat' first
    | with_reducible assumption
    | intro _
    | with_reducible apply State.msixFlush_wf
    | with_reducible apply wf_forEach

theorem State.registerRead_wf (s : State) (src : Source) (t : RegTarget) (n : Nat) (hs : s.mem.wf = true) :
    (State.registerRead s src t n).mem.wf = true := by
  unfold State.registerRead
  repeat' first
    | with_reducible assumption
    | intro _
    | with_reducible apply State.regRead_wf
    | with_reducible apply State.refuseHost_wf
    | with_reducible apply State.readReply_wf
    | with_reducible apply State.hostRequest_wf
    | (with_reducible refine wf_of_fst (by assumption) ?_)
    | dsimp only
    | split

theorem State.writeRing_wf (s : State) (k : Nat) (v : W64) (m : W64) (hs : s.mem.wf = true) :
    (State.writeRing s k v m).mem.wf = true := by
  unfold State.writeRing
  repeat' first
    | with_reducible assumption

theorem State.registerWrite_wf (s : State) (src : Source) (t : RegTarget) (n : Nat) (v : W64) (hs : s.mem.wf = true) :
    (State.registerWrite s src t n v).mem.wf = true := by
  unfold State.registerWrite
  repeat' first
    | with_reducible assumption
    | intro _
    | with_reducible apply State.regWrite_wf
    | with_reducible apply State.writeMsix_wf
    | with_reducible apply State.writeRing_wf
    | with_reducible apply State.refuseHost_wf
    | with_reducible apply State.hostRequest_wf
    | (with_reducible refine wf_of_fst (by assumption) ?_)
    | dsimp only
    | split

theorem State.deliverAcc_wf (s : State) (c : Nat) (a : Access) (hs : s.mem.wf = true) :
    (State.deliverAcc s c a).mem.wf = true := by
  unfold State.deliverAcc
  repeat' first
    | with_reducible assumption
    | intro _
    | with_reducible apply State.setCore_wf
    | with_reducible apply State.redFlag_wf
    | dsimp only
    | split

theorem State.deliverId_wf (s : State) (c : Nat) (id : Nat) (hs : s.mem.wf = true) :
    (State.deliverId s c id).mem.wf = true := by
  unfold State.deliverId
  repeat' first
    | with_reducible assumption
    | intro _
    | with_reducible apply State.deliverAcc_wf
    | dsimp only
    | split

theorem State.yardAccess_wf (s : State) (c : Nat) (d : Nat) (a : Access) (ecc : Ecc) (hs : s.mem.wf = true) :
    (State.yardAccess s c d a ecc).mem.wf = true := by
  unfold State.yardAccess
  repeat' first
    | with_reducible assumption
    | intro _
    | with_reducible apply State.uncorrYard_wf
    | with_reducible apply State.yardEcc_wf
    | with_reducible apply State.mergeEcc_wf
    | with_reducible apply State.yardWrite_wf
    | with_reducible apply State.yardStore_wf
    | with_reducible apply State.modCore_wf
    | (with_reducible refine wf_of_fst (by assumption) ?_)
    | dsimp only
    | split

theorem State.serveRegister_wf (s : State) (c : Nat) (a : Access) (l : Loc) (hs : s.mem.wf = true) :
    (State.serveRegister s c a l).mem.wf = true := by
  unfold State.serveRegister
  repeat' first
    | with_reducible assumption
    | intro _
    | with_reducible apply State.modCore_wf
    | with_reducible apply State.regRead_wf

theorem State.performLocal_wf (s : State) (c : Nat) (a : Access) (host : List Byte) (ecc : Ecc) (hs : s.mem.wf = true) :
    (State.performLocal s c a host ecc).mem.wf = true := by
  unfold State.performLocal
  repeat' first
    | with_reducible assumption
    | intro _
    | with_reducible apply State.yardAccess_wf
    | with_reducible apply State.serveRegister_wf
    | with_reducible apply State.setCore_wf
    | with_reducible apply State.emit_wf
    | dsimp only
    | split

theorem State.memoryResponse_wf (s : State) (c : Nat) (id : Nat) (host : List Byte) (ecc : Ecc) (hs : s.mem.wf = true) :
    (State.memoryResponse s c id host ecc).mem.wf = true := by
  unfold State.memoryResponse
  repeat' first
    | with_reducible assumption
    | intro _
    | with_reducible apply State.deliverAcc_wf
    | with_reducible apply State.deliverId_wf
    | with_reducible apply State.performLocal_wf
    | with_reducible apply State.modCore_wf
    | with_reducible apply State.countNoRoute_wf
    | dsimp only
    | split

theorem State.hostReadFailure_wf (s : State) (c : Nat) (id : Nat) (hs : s.mem.wf = true) :
    (State.hostReadFailure s c id).mem.wf = true := by
  unfold State.hostReadFailure
  repeat' first
    | with_reducible assumption
    | intro _
    | with_reducible apply State.deliverId_wf
    | with_reducible apply State.modCore_wf
    | with_reducible apply State.emit_wf
    | dsimp only
    | split

theorem State.remoteYard_wf (s : State) (c : Nat) (id : Nat) (ecc : Ecc) (hs : s.mem.wf = true) :
    (State.remoteYard s c id ecc).mem.wf = true := by
  unfold State.remoteYard
  repeat' first
    | with_reducible assumption
    | intro _
    | with_reducible apply State.yardAccess_wf
    | with_reducible apply State.modCore_wf
    | dsimp only
    | split

theorem State.settleStore_wf (s : State) (c : Nat) (id : Nat) (hs : s.mem.wf = true) :
    (State.settleStore s c id).mem.wf = true := by
  unfold State.settleStore
  repeat' first
    | with_reducible assumption
    | intro _
    | with_reducible apply State.deliverAcc_wf
    | with_reducible apply State.modCore_wf
    | dsimp only
    | split

theorem State.performStore_wf (s : State) (c : Nat) (a : Access) (ecc : Ecc) (hs : s.mem.wf = true) :
    (State.performStore s c a ecc).mem.wf = true := by
  unfold State.performStore
  repeat' first
    | with_reducible assumption
    | intro _
    | with_reducible apply State.yardAccess_wf
    | with_reducible apply State.hostWriteGaps_wf
    | with_reducible apply State.setCore_wf
    | with_reducible apply State.modCore_wf
    | with_reducible apply State.regWrite_wf
    | (with_reducible refine wf_of_fst (by assumption) ?_)
    | dsimp only
    | split

theorem State.storeAccepted_wf (s : State) (c : Nat) (id : Nat) (ecc : Ecc) (hs : s.mem.wf = true) :
    (State.storeAccepted s c id ecc).mem.wf = true := by
  unfold State.storeAccepted
  repeat' first
    | with_reducible assumption
    | intro _
    | with_reducible apply State.performStore_wf
    | with_reducible apply State.settleStore_wf
    | with_reducible apply State.modCore_wf
    | with_reducible apply State.countNoRoute_wf
    | dsimp only
    | split

theorem State.trainRaise_wf (s : State) (c : Nat) (b : W64) (hs : s.mem.wf = true) :
    (State.trainRaise s c b).mem.wf = true := by
  unfold State.trainRaise
  repeat' first
    | with_reducible assumption
    | intro _
    | with_reducible apply State.modCore_wf
    | dsimp only
    | split

theorem State.yardPut_wf (s : State) (c : Nat) (ws : List (Nat × Nat × Nat)) (hs : s.mem.wf = true) :
    (State.yardPut s c ws).1.mem.wf = true := by
  unfold State.yardPut
  repeat' first
    | with_reducible assumption
    | intro _
    | with_reducible apply State.yardWriteWord_wf
    | (with_reducible refine wf_of_fst (by assumption) ?_)
    | with_reducible apply wf_foldl
    | with_reducible apply wf_foldl1

theorem State.mxCommit_wf (s : State) (c : Nat) (was : Op) (o : Op) (r : StepOut) (ecc : Ecc) (hs : s.mem.wf = true) :
    (State.mxCommit s c was o r ecc).mem.wf = true := by
  unfold State.mxCommit
  repeat' first
    | with_reducible assumption
    | intro _
    | with_reducible apply State.uncorrYard_wf
    | with_reducible apply State.yardEcc_wf
    | with_reducible apply State.yardPut_wf
    | with_reducible apply State.modCore_wf
    | (with_reducible refine wf_of_fst (by assumption) ?_)
    | dsimp only
    | split

theorem State.positionStep_wf (s : State) (c : Nat) (o : Op) (ecc : Ecc) (hs : s.mem.wf = true) :
    (State.positionStep s c o ecc).mem.wf = true := by
  unfold State.positionStep
  repeat' first
    | with_reducible assumption
    | intro _
    | with_reducible apply State.mxCommit_wf

theorem State.headerFor_wf (s : State) (c : Nat) (isB : Bool) (hs : s.mem.wf = true) :
    (State.headerFor s c isB).mem.wf = true := by
  unfold State.headerFor
  repeat' first
    | with_reducible assumption
    | intro _
    | with_reducible apply State.setCore_wf
    | dsimp only
    | split

theorem State.runPositions_wf (s : State) (c id : Nat) (ecc : Ecc) (n : Nat) (hs : s.mem.wf = true) :
    (s.runPositions c id ecc n).mem.wf = true := by
  induction n generalizing s ecc with
  | zero => exact hs
  | succ n ih =>
    unfold State.runPositions
    split
    · dsimp only
      split
      · exact ih _ _ (State.positionStep_wf _ _ _ _ hs)
      · exact hs
    · exact hs

theorem State.doStep_wf (s : State) (c : Nat) (o : Op) (a : Rows) (b : Rows) (send : Option Nat) (ecc : Ecc) (hs : s.mem.wf = true) :
    (State.doStep s c o a b send ecc).mem.wf = true := by
  unfold State.doStep
  repeat' first
    | with_reducible assumption
    | intro _
    | with_reducible apply State.mxCommit_wf
    | with_reducible apply State.modCore_wf
    | with_reducible apply wf_forEach
    | dsimp only
    | split

theorem State.matrixComplete_wf (s : State) (c : Nat) (ecc : Ecc) (hs : s.mem.wf = true) :
    (State.matrixComplete s c ecc).mem.wf = true := by
  unfold State.matrixComplete
  repeat' first
    | with_reducible assumption
    | intro _
    | with_reducible apply State.runPositions_wf
    | with_reducible apply State.modCore_wf
    | dsimp only
    | split

theorem State.intervalStep_wf (s : State) (c : Nat) (ecc : Ecc) (hs : s.mem.wf = true) :
    (State.intervalStep s c ecc).mem.wf = true := by
  unfold State.intervalStep
  repeat' first
    | with_reducible assumption
    | intro _
    | with_reducible apply State.doStep_wf
    | with_reducible apply State.modCore_wf
    | dsimp only
    | split

theorem State.stepsMore_wf (s : State) (c : Nat) (o : Op) (n : Nat) (hs : s.mem.wf = true) :
    (State.stepsMore s c o n).mem.wf = true := by
  unfold State.stepsMore
  repeat' first
    | with_reducible assumption
    | intro _
    | with_reducible apply State.intervalStep_wf
    | with_reducible apply State.runPositions_wf
    | with_reducible apply wf_forN
    | dsimp only
    | split

theorem State.suspendMx_wf (s : State) (c : Nat) (o : Op) (n : Nat) (hs : s.mem.wf = true) :
    (State.suspendMx s c o n).mem.wf = true := by
  unfold State.suspendMx
  repeat' first
    | with_reducible assumption
    | intro _
    | with_reducible apply State.modCore_wf
    | with_reducible apply State.stepsMore_wf
    | dsimp only
    | split

theorem State.suspendUnit_wf (s : State) (c : Nat) (p : Progress) (n : Nat) (u : LongUnit) (hs : s.mem.wf = true) :
    OptWf (State.suspendUnit s c p n u) := by
  unfold State.suspendUnit
  repeat' first
    | with_reducible assumption
    | intro _
    | with_reducible apply State.setCore_wf
    | with_reducible apply State.suspendMx_wf
    | with_reducible apply OptWf.some
    | with_reducible exact OptWf.none
    | with_reducible apply OptWf.map
    | with_reducible apply OptWf.setOf
    | with_reducible apply OptWf.bind
    | (with_reducible refine OptWf.use (by assumption) ?_)
    | with_reducible apply OptWf.getD
    | dsimp only
    | split

theorem State.suspendAll_wf (s : State) (c : Nat) (p : Progress) (hs : s.mem.wf = true) : OptWf (s.suspendAll c p) :=
  OptWf.map (OptWf.foldl (fun _ _ h => OptWf.bind h fun t ht => State.suspendUnit_wf t _ _ _ _ ht) (OptWf.some hs))
    fun t ht => State.modCore_wf _ _ _ ht

theorem State.putFrame_wf (s : State) (c : Nat) (off : Nat) (ws : List W64) (hs : s.mem.wf = true) :
    (State.putFrame s c off ws).mem.wf = true := by
  unfold State.putFrame
  repeat' first
    | with_reducible assumption
    | intro _
    | with_reducible apply State.yardStore_wf
    | with_reducible apply State.modCore_wf
    | (with_reducible refine wf_of_fst (by assumption) ?_)
    | with_reducible apply wf_forEach
    | dsimp only
    | split

theorem State.enter_wf (s : State) (c : Nat) (t : Trap) (hs : s.mem.wf = true) :
    (State.enter s c t).mem.wf = true := by
  unfold State.enter
  repeat' first
    | with_reducible assumption
    | intro _
    | with_reducible apply State.setCore_wf
    | with_reducible apply State.redFlag_wf
    | with_reducible apply State.putFrame_wf
    | dsimp only
    | split

theorem State.interruptEntry_wf (s : State) (c : Nat) (prog : Progress) (hs : s.mem.wf = true) :
    (State.interruptEntry s c prog).mem.wf = true := by
  unfold State.interruptEntry
  repeat' first
    | with_reducible assumption
    | intro _
    | with_reducible apply State.setCore_wf
    | with_reducible apply State.suspendAll_wf
    | with_reducible apply State.enter_wf
    | with_reducible apply OptWf.some
    | with_reducible exact OptWf.none
    | with_reducible apply OptWf.map
    | with_reducible apply OptWf.setOf
    | with_reducible apply OptWf.bind
    | (with_reducible refine OptWf.use (by assumption) ?_)
    | with_reducible apply OptWf.getD
    | dsimp only
    | split

theorem State.chain_wf (s : State) (c : Nat) (p : Nat × Nat) (ws : List W64) (filled : BitVec 4) (hs : s.mem.wf = true) :
    (State.chain s c p ws filled).mem.wf = true := by
  unfold State.chain
  repeat' first
    | with_reducible assumption
    | intro _
    | with_reducible apply State.setCore_wf
    | with_reducible apply State.putFrame_wf

theorem State.exceptionEntry_wf (s : State) (c : Nat) (hs : s.mem.wf = true) :
    (State.exceptionEntry s c).mem.wf = true := by
  unfold State.exceptionEntry
  repeat' first
    | with_reducible assumption
    | intro _
    | with_reducible apply State.setCore_wf
    | with_reducible apply State.enter_wf
    | dsimp only
    | split

theorem State.unpark_wf (s : State) (c : Nat) (hs : s.mem.wf = true) :
    (State.unpark s c).mem.wf = true := by
  unfold State.unpark
  repeat' first
    | with_reducible assumption
    | intro _
    | with_reducible apply State.setCore_wf
    | dsimp only
    | split

theorem State.reti_wf (s : State) (c : Nat) (hs : s.mem.wf = true) :
    (State.reti s c).Wf := by
  unfold State.reti
  repeat' first
    | with_reducible assumption
    | intro _
    | with_reducible apply State.uncorrYard_wf
    | with_reducible apply State.setCore_wf
    | with_reducible apply State.suspendAll_wf
    | with_reducible apply State.chain_wf
    | with_reducible apply OptWf.some
    | with_reducible exact OptWf.none
    | with_reducible apply OptWf.map
    | with_reducible apply OptWf.setOf
    | with_reducible apply OptWf.bind
    | (with_reducible refine OptWf.use (by assumption) ?_)
    | with_reducible apply OptWf.getD
    | with_reducible exact RetiEnd.Wf.of_wait
    | with_reducible exact RetiEnd.Wf.of_stackFault
    | with_reducible apply RetiEnd.Wf.of_done
    | with_reducible apply RetiEnd.Wf.of_chained
    | with_reducible apply RetiEnd.Wf.of_halted
    | (with_reducible refine RetiEnd.Wf.done (by assumption) ?_)
    | (with_reducible refine RetiEnd.Wf.chained (by assumption) ?_)
    | (with_reducible refine RetiEnd.Wf.halted (by assumption) ?_)
    | dsimp only
    | split

theorem State.guestLower_wf (s : State) (c : Nat) (g : Guest) (hs : s.mem.wf = true) :
    (State.guestLower s c g).mem.wf = true := by
  unfold State.guestLower
  repeat' first
    | with_reducible assumption
    | intro _
    | with_reducible apply State.modCore_wf
    | with_reducible apply State.fresh_wf

theorem State.guestRaise_wf (s : State) (c : Nat) (g : Guest) (hs : s.mem.wf = true) :
    (State.guestRaise s c g).mem.wf = true := by
  unfold State.guestRaise
  repeat' first
    | with_reducible assumption
    | intro _
    | with_reducible apply State.setCore_wf
    | with_reducible apply State.fresh_wf
    | dsimp only
    | split

theorem State.guestAnswer_wf (s : State) (c : Nat) (hs : s.mem.wf = true) :
    (State.guestAnswer s c).mem.wf = true := by
  unfold State.guestAnswer
  repeat' first
    | with_reducible assumption
    | intro _
    | with_reducible apply State.guestRaise_wf
    | with_reducible apply State.guestLower_wf
    | with_reducible apply State.modCore_wf
    | with_reducible apply State.fresh_wf
    | dsimp only
    | split

theorem State.guestExpire_wf (s : State) (c : Nat) (hs : s.mem.wf = true) :
    (State.guestExpire s c).mem.wf = true := by
  unfold State.guestExpire
  repeat' first
    | with_reducible assumption
    | intro _
    | with_reducible apply State.guestLower_wf
    | with_reducible apply State.modCore_wf
    | with_reducible apply State.fresh_wf
    | dsimp only
    | split

theorem State.guestInterrupt_wf (s : State) (c : Nat) (hs : s.mem.wf = true) :
    (State.guestInterrupt s c).mem.wf = true := by
  unfold State.guestInterrupt
  repeat' first
    | with_reducible assumption
    | intro _
    | with_reducible apply State.setCore_wf
    | with_reducible apply State.fresh_wf

theorem State.predDown_wf (s : State) (slice : Nat) (line : Nat) (hs : s.mem.wf = true) :
    (State.predDown s slice line).mem.wf = true := by
  unfold State.predDown
  repeat' first
    | with_reducible assumption

theorem State.predNearDone_wf (s : State) (slice : Nat) (key : Nat) (w : Line) (hs : s.mem.wf = true) :
    (State.predNearDone s slice key w).mem.wf = true := by
  unfold State.predNearDone
  repeat' first
    | with_reducible assumption
    | intro _
    | with_reducible apply State.predDown_wf
    | with_reducible apply State.setLine_wf
    | dsimp only
    | split

theorem State.atomicHit_wf (s : State) (c : Nat) (slice : Nat) (key : Nat) (w : Line) (a : Access) (predicted : Bool) (hs : s.mem.wf = true) :
    (State.atomicHit s c slice key w a predicted).mem.wf = true := by
  unfold State.atomicHit
  repeat' first
    | with_reducible assumption
    | intro _
    | with_reducible apply State.predNearDone_wf
    | with_reducible apply State.setLine_wf
    | with_reducible apply State.dropL1_wf
    | with_reducible apply State.holdAs_wf
    | with_reducible apply State.modCore_wf
    | dsimp only
    | split

theorem State.enterSiding_wf (s : State) (slice : Nat) (key : Nat) (w : Line) (hs : s.mem.wf = true) :
    (State.enterSiding s slice key w).mem.wf = true := by
  unfold State.enterSiding
  repeat' first
    | with_reducible assumption
    | intro _
    | with_reducible apply State.dropLine_wf
    | with_reducible apply State.setSiding_wf
    | with_reducible apply State.dropDieL1_wf

theorem State.sendRequest_wf (s : State) (c : Nat) (a : Access) (slice : Nat) (line : Nat) (kind : HKind) (t : Attr) (predicted : Bool) (hs : s.mem.wf = true) :
    (State.sendRequest s c a slice line kind t predicted).mem.wf = true := by
  unfold State.sendRequest
  repeat' first
    | with_reducible assumption
    | intro _
    | with_reducible apply State.modCore_wf

theorem State.showStore_wf (s : State) (c : Nat) (line : Nat) (a : Access) (hs : s.mem.wf = true) :
    (State.showStore s c line a).mem.wf = true := by
  unfold State.showStore
  repeat' first
    | with_reducible assumption
    | intro _
    | with_reducible apply State.dropL1_wf
    | with_reducible apply State.modCore_wf

theorem State.storeHit_wf (s : State) (c : Nat) (key : Nat) (w : Line) (a : Access) (hs : s.mem.wf = true) :
    (State.storeHit s c key w a).mem.wf = true := by
  unfold State.storeHit
  repeat' first
    | with_reducible assumption
    | intro _
    | with_reducible apply State.showStore_wf
    | with_reducible apply State.setLine_wf
    | with_reducible apply State.holdAs_wf

theorem State.holdNew_wf (s : State) (slice : Nat) (line : Nat) (st : LineSt) (hs : s.mem.wf = true) :
    (State.holdNew s slice line st).mem.wf = true := by
  unfold State.holdNew
  repeat' first
    | with_reducible assumption
    | intro _
    | with_reducible apply State.setHolders_wf

theorem State.ageSet_wf (s : State) (slice : Nat) (set : Nat) (hs : s.mem.wf = true) :
    (State.ageSet s slice set).mem.wf = true := by
  unfold State.ageSet
  repeat' first
    | with_reducible assumption

theorem State.victim_wf (s : State) (slice set n : Nat) (hw : s.mem.wf = true) :
    (s.victim slice set n).1.mem.wf = true := by
  induction n generalizing s with
  | zero => exact hw
  | succ n ih =>
    unfold State.victim
    dsimp only
    split
    · exact hw
    · split
      · exact hw
      · exact ih _ (State.ageSet_wf _ _ _ hw)

theorem State.takeWay_wf (s : State) (slice : Nat) (set : Nat) (req : Nat) (hs : s.mem.wf = true) :
    (State.takeWay s slice set req).1.mem.wf = true := by
  unfold State.takeWay
  repeat' first
    | with_reducible assumption
    | intro _
    | with_reducible apply State.enterSiding_wf
    | with_reducible apply State.victim_wf
    | (with_reducible refine wf_of_fst (by assumption) ?_)
    | dsimp only
    | split

theorem State.waitAtSlice_wf (s : State) (c : Nat) (a : Access) (hs : s.mem.wf = true) :
    (State.waitAtSlice s c a).mem.wf = true := by
  unfold State.waitAtSlice
  repeat' first
    | with_reducible assumption
    | intro _
    | with_reducible apply State.modCore_wf

theorem State.serveLine_wf (s : State) (c : Nat) (a : Access) (line : Nat) (d : LineData) (poison : Bool) (l1 : Bool) (hs : s.mem.wf = true) :
    (State.serveLine s c a line d poison l1).mem.wf = true := by
  unfold State.serveLine
  repeat' first
    | with_reducible assumption
    | intro _
    | with_reducible apply State.modCore_wf

theorem State.predUp_wf (s : State) (slice : Nat) (line : Nat) (hs : s.mem.wf = true) :
    (State.predUp s slice line).mem.wf = true := by
  unfold State.predUp
  repeat' first
    | with_reducible assumption

theorem State.fired_wf (s : State) (c : Nat) (k : Core) (hs : s.mem.wf = true) :
    (State.fired s c k).Wf := by
  unfold State.fired
  repeat' first
    | with_reducible assumption
    | intro _
    | with_reducible apply State.setCore_wf
    | with_reducible exact Fired.Wf.of_wait
    | with_reducible exact Fired.Wf.of_fault
    | with_reducible apply Fired.Wf.of_ok

theorem State.fireScalar_wf (s : State) (c : Nat) (p : Nat) (b : W64) (hs : s.mem.wf = true) :
    (State.fireScalar s c p b).Wf := by
  unfold State.fireScalar
  repeat' first
    | with_reducible assumption
    | intro _
    | with_reducible apply State.fired_wf
    | with_reducible exact Fired.Wf.of_wait
    | with_reducible exact Fired.Wf.of_fault
    | with_reducible apply Fired.Wf.of_ok
    | with_reducible apply Fired.Wf.of_partly
    | (with_reducible refine Fired.Wf.ok (by assumption) ?_)
    | (with_reducible refine Fired.Wf.partly (by assumption) ?_)
    | dsimp only
    | split

theorem State.launched_wf (s : State) (c : Nat) (k : Core) (o : Op) (hs : s.mem.wf = true) :
    (State.launched s c k o).Wf := by
  unfold State.launched
  repeat' first
    | with_reducible assumption
    | intro _
    | with_reducible apply State.fired_wf
    | with_reducible apply State.setCore_wf
    | with_reducible exact Fired.Wf.of_wait
    | with_reducible exact Fired.Wf.of_fault
    | with_reducible apply Fired.Wf.of_ok
    | with_reducible apply Fired.Wf.of_partly
    | (with_reducible refine Fired.Wf.ok (by assumption) ?_)
    | (with_reducible refine Fired.Wf.partly (by assumption) ?_)
    | dsimp only
    | split

theorem State.fireCv_wf (s : State) (c : Nat) (p : Nat) (b : W64) (hs : s.mem.wf = true) :
    (State.fireCv s c p b).Wf := by
  unfold State.fireCv
  repeat' first
    | with_reducible assumption
    | intro _
    | with_reducible apply State.fired_wf
    | with_reducible exact Fired.Wf.of_wait
    | with_reducible exact Fired.Wf.of_fault
    | with_reducible apply Fired.Wf.of_ok
    | with_reducible apply Fired.Wf.of_partly
    | (with_reducible refine Fired.Wf.ok (by assumption) ?_)
    | (with_reducible refine Fired.Wf.partly (by assumption) ?_)
    | dsimp only
    | split

theorem State.fireCancel_wf (s : State) (c : Nat) (t : Nat) (b : W64) (hs : s.mem.wf = true) :
    (State.fireCancel s c t b).mem.wf = true := by
  unfold State.fireCancel
  repeat' first
    | with_reducible assumption
    | intro _
    | with_reducible apply State.setCore_wf
    | with_reducible apply State.semCancel_wf
    | dsimp only
    | split

theorem State.fireDepot_wf (s : State) (c : Nat) (p : Nat) (b : W64) (hs : s.mem.wf = true) :
    (State.fireDepot s c p b).Wf := by
  unfold State.fireDepot
  repeat' first
    | with_reducible assumption
    | intro _
    | with_reducible apply State.fired_wf
    | with_reducible exact Fired.Wf.of_wait
    | with_reducible exact Fired.Wf.of_fault
    | with_reducible apply Fired.Wf.of_ok
    | with_reducible apply Fired.Wf.of_partly
    | (with_reducible refine Fired.Wf.ok (by assumption) ?_)
    | (with_reducible refine Fired.Wf.partly (by assumption) ?_)
    | dsimp only
    | split

theorem State.fireVec_wf (s : State) (c : Nat) (p : Nat) (b : W64) (hs : s.mem.wf = true) :
    (State.fireVec s c p b).Wf := by
  unfold State.fireVec
  repeat' first
    | with_reducible assumption
    | intro _
    | with_reducible apply State.fired_wf
    | with_reducible apply State.launched_wf
    | with_reducible exact Fired.Wf.of_wait
    | with_reducible exact Fired.Wf.of_fault
    | with_reducible apply Fired.Wf.of_ok
    | with_reducible apply Fired.Wf.of_partly
    | (with_reducible refine Fired.Wf.ok (by assumption) ?_)
    | (with_reducible refine Fired.Wf.partly (by assumption) ?_)
    | dsimp only
    | split

theorem State.fireMove_wf (s : State) (c : Nat) (b : W64) (hs : s.mem.wf = true) :
    (State.fireMove s c b).Wf := by
  unfold State.fireMove
  repeat' first
    | with_reducible assumption
    | intro _
    | with_reducible apply State.launched_wf

theorem State.fireMatrix_wf (s : State) (c : Nat) (p : Nat) (b : W64) (hs : s.mem.wf = true) :
    (State.fireMatrix s c p b).Wf := by
  unfold State.fireMatrix
  repeat' first
    | with_reducible assumption
    | intro _
    | with_reducible apply State.fired_wf
    | with_reducible apply State.trainRaise_wf
    | with_reducible exact Fired.Wf.of_wait
    | with_reducible exact Fired.Wf.of_fault
    | with_reducible apply Fired.Wf.of_ok
    | with_reducible apply Fired.Wf.of_partly
    | (with_reducible refine Fired.Wf.ok (by assumption) ?_)
    | (with_reducible refine Fired.Wf.partly (by assumption) ?_)
    | dsimp only
    | split

theorem State.fireSem_wf (s : State) (c : Nat) (p : Nat) (b : W64) (hs : s.mem.wf = true) :
    (State.fireSem s c p b).Wf := by
  unfold State.fireSem
  repeat' first
    | with_reducible assumption
    | intro _
    | with_reducible apply State.fired_wf
    | with_reducible apply State.fireCancel_wf
    | with_reducible exact Fired.Wf.of_wait
    | with_reducible exact Fired.Wf.of_fault
    | with_reducible apply Fired.Wf.of_ok
    | with_reducible apply Fired.Wf.of_partly
    | (with_reducible refine Fired.Wf.ok (by assumption) ?_)
    | (with_reducible refine Fired.Wf.partly (by assumption) ?_)
    | dsimp only
    | split

theorem State.fireCache_wf (s : State) (c : Nat) (p : Nat) (b : W64) (hs : s.mem.wf = true) :
    (State.fireCache s c p b).Wf := by
  unfold State.fireCache
  repeat' first
    | with_reducible assumption
    | intro _
    | with_reducible apply State.fired_wf
    | with_reducible exact Fired.Wf.of_wait
    | with_reducible exact Fired.Wf.of_fault
    | with_reducible apply Fired.Wf.of_ok
    | with_reducible apply Fired.Wf.of_partly
    | (with_reducible refine Fired.Wf.ok (by assumption) ?_)
    | (with_reducible refine Fired.Wf.partly (by assumption) ?_)
    | dsimp only
    | split

theorem State.fireUnit_wf (s : State) (c : Nat) (p : Nat) (b : W64) (hs : s.mem.wf = true) :
    (State.fireUnit s c p b).Wf := by
  unfold State.fireUnit
  repeat' first
    | with_reducible assumption
    | intro _
    | with_reducible apply State.fired_wf
    | with_reducible apply State.fireScalar_wf
    | with_reducible apply State.fireCache_wf
    | with_reducible apply State.fireVec_wf
    | with_reducible apply State.fireCv_wf
    | with_reducible apply State.fireMatrix_wf
    | with_reducible apply State.fireMove_wf
    | with_reducible apply State.fireSem_wf
    | with_reducible apply State.fireDepot_wf
    | with_reducible exact Fired.Wf.of_wait
    | with_reducible exact Fired.Wf.of_fault
    | with_reducible apply Fired.Wf.of_ok
    | with_reducible apply Fired.Wf.of_partly
    | (with_reducible refine Fired.Wf.ok (by assumption) ?_)
    | (with_reducible refine Fired.Wf.partly (by assumption) ?_)
    | dsimp only
    | split

theorem State.fire_wf (s : State) (c : Nat) (p : Nat) (b : W64) (hs : s.mem.wf = true) :
    (State.fire s c p b).Wf := by
  unfold State.fire
  repeat' first
    | with_reducible assumption
    | intro _
    | with_reducible apply State.fireUnit_wf
    | with_reducible exact Fired.Wf.of_wait
    | with_reducible exact Fired.Wf.of_fault
    | with_reducible apply Fired.Wf.of_ok
    | with_reducible apply Fired.Wf.of_partly
    | (with_reducible refine Fired.Wf.ok (by assumption) ?_)
    | (with_reducible refine Fired.Wf.partly (by assumption) ?_)
    | dsimp only
    | split

theorem State.sourceEffect_wf (s : State) (c : Nat) (m : Move) (hs : s.mem.wf = true) :
    (State.sourceEffect s c m).mem.wf = true := by
  unfold State.sourceEffect
  repeat' first
    | with_reducible assumption
    | intro _
    | with_reducible apply State.cpReadEffect_wf
    | with_reducible apply State.uncorrConfig_wf
    | with_reducible apply State.setCore_wf
    | dsimp only
    | split

theorem Writing.put_wf (w : Writing) (c p : Nat) (v : W64) (hw : w.s.mem.wf = true) : OptWfW (w.put c p v) := by
  unfold Writing.put
  dsimp only
  repeat' first
    | exact OptWfW.none
    | split
  all_goals apply OptWfW.some
  all_goals first
    | exact hw
    | exact State.setCore_wf _ _ _ hw
    | exact State.cpWrite_wf _ _ _ _ _ _ hw

theorem State.fireAll_wf (s : State) (c : Nat) (old : Core) (pends : List Pend) (l : List (Nat × Nat × W64))
    (next : Option (BitVec 11)) (hw : s.mem.wf = true) : (s.fireAll c old pends l next).Wf := by
  induction l generalizing s next with
  | nil => exact Attempt.Wf.of_done hw
  | cons x t ih =>
    obtain ⟨slot, p, v⟩ := x
    unfold State.fireAll
    have hr : ∀ z : State, z.mem.wf = true → (z.reti c).Wf := fun z hz => State.reti_wf z c hz
    have hl : ∀ k : Core, (s.setCore c k).mem.wf = true := fun k => State.setCore_wf s c k hw
    have hf := State.fire_wf s c p v hw
    dsimp only
    split
    case h_6 =>
      split
      · next e => exact ih _ _ (RetiEnd.Wf.done e (hr _ (hl _)))
      · next e => exact ih _ _ (State.modCore_wf _ _ _ (RetiEnd.Wf.chained e (hr _ (hl _))))
      · next e => exact Attempt.Wf.of_halted (RetiEnd.Wf.halted e (hr _ (hl _)))
      · exact Attempt.Wf.of_wait
      · exact Attempt.Wf.of_fault
    case h_8 =>
      split
      · next e => exact ih _ _ (Fired.Wf.ok e hf)
      · exact Attempt.Wf.of_wait
      · exact Attempt.Wf.of_fault
      · next e => exact Attempt.Wf.of_partly (Fired.Wf.partly e hf)
    all_goals first
      | exact ih _ _ hw

theorem State.attempt_wf (s : State) (c : Nat) (b : BitVec 128) (moves : List Move) (ctl : NMap W64)
    (guest : List (Nat × W64)) (hw : s.mem.wf = true) : (s.attempt c b moves ctl guest).Wf := by
  unfold State.attempt
  have h1 : (forEach moves (fun m s => s.sourceEffect c m) s).mem.wf = true :=
    wf_forEach (fun _ _ h => State.sourceEffect_wf _ _ _ h) hw
  generalize forEach moves (fun m s => s.sourceEffect c m) s = t at *
  dsimp only
  split
  · exact Attempt.Wf.of_wait
  · split
    · exact Attempt.Wf.of_halted h1
    · split
      · exact Attempt.Wf.of_wait
      · next e =>
        split
        · refine State.fireAll_wf _ _ _ _ _ _ (OptWfW.use e (OptWfW.foldl ?_ (OptWfW.some h1)))
          intro r b hr
          cases r with
          | none => exact OptWfW.none
          | some w => exact Writing.put_wf _ _ _ _ (OptWfW.use rfl hr)
        · exact Attempt.Wf.of_wait

theorem State.tryBundle_wf (s : State) (c : Nat) (b : BitVec 128) (frame : Ecc) (hs : s.mem.wf = true) :
    (State.tryBundle s c b frame).mem.wf = true := by
  unfold State.tryBundle
  repeat' first
    | with_reducible assumption
    | intro _
    | with_reducible apply State.attempt_wf
    | with_reducible apply State.yardEcc_wf
    | with_reducible apply State.guestRaise_wf
    | with_reducible apply State.setCore_wf
    | with_reducible apply State.modCore_wf
    | (with_reducible refine Attempt.Wf.done (by assumption) ?_)
    | (with_reducible refine Attempt.Wf.partly (by assumption) ?_)
    | (with_reducible refine Attempt.Wf.halted (by assumption) ?_)
    | dsimp only
    | split

theorem State.bundleExecute_wf (s : State) (c : Nat) (stale : Bool) (ecc : Ecc) (frame : Ecc) (hs : s.mem.wf = true) :
    (State.bundleExecute s c stale ecc frame).mem.wf = true := by
  unfold State.bundleExecute
  repeat' first
    | with_reducible assumption
    | intro _
    | with_reducible apply State.tryBundle_wf
    | with_reducible apply State.corrected_wf
    | with_reducible apply State.uncorrConfig_wf
    | with_reducible apply State.modCore_wf
    | dsimp only
    | split

theorem State.parkCore_wf (s : State) (c : Nat) (p : Progress) (hw : s.mem.wf = true) : OptWf (s.parkCore c p) := by
  unfold State.parkCore
  dsimp only
  split
  · exact OptWf.none
  · exact OptWf.map (OptWf.foldl (fun _ _ h => OptWf.bind h fun t ht => State.suspendAll_wf t _ _ ht) (OptWf.some hw))
      fun t ht => State.modCore_wf _ _ _ ht

theorem State.regionParked_wf (s : State) (r : Nat) (prog : List (Nat × Progress)) (hw : s.mem.wf = true) :
    (s.regionParked r prog).mem.wf = true := by
  unfold State.regionParked
  repeat' first
    | with_reducible assumption
    | with_reducible apply State.parkDone_wf
    | (refine OptWf.use (by assumption) (OptWf.foldl (fun _ _ h => OptWf.bind h fun t ht => State.parkCore_wf t _ _ ht) (OptWf.some hw)))
    | dsimp only
    | split

theorem State.takeSlots_wf (s : State) (l : Load) (hs : s.mem.wf = true) :
    (State.takeSlots s l).mem.wf = true := by
  unfold State.takeSlots
  repeat' first
    | with_reducible assumption
    | intro _
    | with_reducible apply State.nsRefresh_wf

theorem State.fullAdmitted_wf (s : State) (hw : s.mem.wf = true) : s.fullAdmitted.mem.wf = true := by
  unfold State.fullAdmitted
  have h1 := State.depotClear_wf s hw
  obtain ⟨t, et⟩ : ∃ x, s.depotClear = x := ⟨_, rfl⟩
  rw [et] at h1 ⊢
  dsimp -proj only
  have h2 := State.mapCores_wf t (fun _ => true) (fun _ k => { k with cfg := [], cfgBad := [], ahead := [] }) h1
  obtain ⟨u, eu⟩ : ∃ x, t.mapCores (fun _ => true) (fun _ k => { k with cfg := [], cfgBad := [], ahead := [] }) = x := ⟨_, rfl⟩
  rw [eu] at h2 ⊢
  exact h2

theorem State.reserve_wf (s : State) (l : Load) (hs : s.mem.wf = true) :
    (State.reserve s l).mem.wf = true := by
  unfold State.reserve
  repeat' first
    | with_reducible assumption
    | intro _
    | with_reducible apply State.modRegion_wf
    | with_reducible apply wf_forEach

theorem State.takeAdmitted_wf (s : State) (l : Load) (hs : s.mem.wf = true) :
    (State.takeAdmitted s l).mem.wf = true := by
  unfold State.takeAdmitted
  repeat' first
    | with_reducible assumption
    | intro _
    | with_reducible apply State.reserve_wf
    | with_reducible apply State.takeSlots_wf
    | with_reducible apply State.fullAdmitted_wf
    | with_reducible apply State.modLoad_wf
    | dsimp only
    | split

theorem State.admission_wf (s : State) (hs : s.mem.wf = true) :
    (State.admission s).mem.wf = true := by
  unfold State.admission
  repeat' first
    | with_reducible assumption
    | intro _
    | with_reducible apply State.takeAdmitted_wf
    | with_reducible apply State.endLoad_wf
    | with_reducible apply State.formatAt_wf
    | dsimp only
    | split

theorem State.setAgentReqs_wf (s : State) (agent : Nat) (l : List HReq) (hs : s.mem.wf = true) :
    (State.setAgentReqs s agent l).mem.wf = true := by
  unfold State.setAgentReqs
  repeat' first
    | with_reducible assumption

theorem State.dequeue_wf (s : State) (agent : Nat) (id : Nat) (hs : s.mem.wf = true) :
    (State.dequeue s agent id).mem.wf = true := by
  unfold State.dequeue
  repeat' first
    | with_reducible assumption
    | intro _
    | with_reducible apply State.setAgentReqs_wf

theorem State.settleData_wf (s : State) (q : HReq) (hs : s.mem.wf = true) :
    (State.settleData s q).mem.wf = true := by
  unfold State.settleData
  repeat' first
    | with_reducible assumption
    | intro _
    | with_reducible apply State.hbmWriteLine_wf
    | dsimp only
    | split

theorem State.sendProbes_wf (s : State) (q : HReq) (sent : List (Nat × ProbeMode)) (hs : s.mem.wf = true) :
    (State.sendProbes s q sent).mem.wf = true := by
  unfold State.sendProbes
  repeat' first
    | with_reducible assumption
    | intro _
    | with_reducible apply State.countProbes_wf

theorem State.forward_wf (s : State) (q : HReq) (owner : Nat) (hs : s.mem.wf = true) :
    (State.forward s q owner).mem.wf = true := by
  unfold State.forward
  repeat' first
    | with_reducible assumption
    | intro _
    | with_reducible apply State.setHolders_wf
    | with_reducible apply State.holdNew_wf
    | with_reducible apply State.dequeue_wf
    | with_reducible apply State.sendProbes_wf
    | dsimp only
    | split

theorem State.modReq_wf (s : State) (agent : Nat) (id : Nat) (f : HReq → HReq) (hs : s.mem.wf = true) :
    (State.modReq s agent id f).mem.wf = true := by
  unfold State.modReq
  repeat' first
    | with_reducible assumption
    | intro _
    | with_reducible apply State.setAgentReqs_wf

theorem State.begin_wf (s : State) (q : HReq) (hs : s.mem.wf = true) :
    (State.begin s q).mem.wf = true := by
  unfold State.begin
  repeat' first
    | with_reducible assumption
    | intro _
    | with_reducible apply State.modReq_wf
    | with_reducible apply State.sendProbes_wf
    | with_reducible apply State.forward_wf
    | dsimp only
    | split

theorem State.grant_wf (s : State) (q : HReq) (st : LineSt) (d : LineData × Bool) (hs : s.mem.wf = true) :
    (State.grant s q st d).mem.wf = true := by
  unfold State.grant
  repeat' first
    | with_reducible assumption

theorem State.homeStore_wf (s : State) (c : Nat) (id : Nat) (line : Nat) (old : LineData × Bool) (hs : s.mem.wf = true) :
    (State.homeStore s c id line old).mem.wf = true := by
  unfold State.homeStore
  repeat' first
    | with_reducible assumption
    | intro _
    | with_reducible apply State.showStore_wf
    | with_reducible apply State.hbmWriteLine_wf
    | dsimp only
    | split

theorem State.throughStore_wf (s : State) (slice : Nat) (line : Nat) (c : Nat) (id : Nat) (old : LineData × Bool) (hs : s.mem.wf = true) :
    (State.throughStore s slice line c id old).mem.wf = true := by
  unfold State.throughStore
  repeat' first
    | with_reducible assumption
    | intro _
    | with_reducible apply State.setLine_wf
    | with_reducible apply State.setHolders_wf
    | with_reducible apply State.yieldLine_wf
    | with_reducible apply State.homeStore_wf
    | (with_reducible refine wf_of_fst (by assumption) ?_)
    | dsimp only
    | split

theorem State.complete_wf (s : State) (q : HReq) (hs : s.mem.wf = true) :
    (State.complete s q).mem.wf = true := by
  unfold State.complete
  repeat' first
    | with_reducible assumption
    | intro _
    | with_reducible apply State.setHolders_wf
    | with_reducible apply State.holdNew_wf
    | with_reducible apply State.settleData_wf
    | with_reducible apply State.grant_wf
    | with_reducible apply State.homeStore_wf
    | with_reducible apply State.throughStore_wf
    | dsimp only
    | split

theorem State.agentRun_wf (s : State) (agent line n : Nat) (hw : s.mem.wf = true) :
    (s.agentRun agent line n).mem.wf = true := by
  induction n generalizing s with
  | zero => exact hw
  | succ n ih =>
    unfold State.agentRun
    split
    · exact hw
    · split
      · exact ih _ (State.begin_wf _ _ hw)
      · split
        · exact ih _ (State.dequeue_wf _ _ _ (State.complete_wf _ _ hw))
        · exact hw

theorem State.runLine_wf (s : State) (agent : Nat) (line : Nat) (hs : s.mem.wf = true) :
    (State.runLine s agent line).mem.wf = true := by
  unfold State.runLine
  repeat' first
    | with_reducible assumption
    | intro _
    | with_reducible apply State.agentRun_wf

theorem State.probeResponse_wf (s : State) (i : Nat) (hs : s.mem.wf = true) :
    (State.probeResponse s i).mem.wf = true := by
  unfold State.probeResponse
  repeat' first
    | with_reducible assumption
    | intro _
    | with_reducible apply State.modReq_wf
    | with_reducible apply State.runLine_wf
    | dsimp only
    | split

theorem State.writebackArrival_wf (s : State) (i : Nat) (hs : s.mem.wf = true) :
    (State.writebackArrival s i).mem.wf = true := by
  unfold State.writebackArrival
  repeat' first
    | with_reducible assumption
    | intro _
    | with_reducible apply State.hbmWriteLine_wf
    | with_reducible apply State.holdNot_wf
    | dsimp only
    | split

theorem State.homeRequest_wf (s : State) (i : Nat) (hs : s.mem.wf = true) :
    (State.homeRequest s i).mem.wf = true := by
  unfold State.homeRequest
  repeat' first
    | with_reducible assumption
    | intro _
    | with_reducible apply State.notePeak_wf
    | with_reducible apply State.setAgentReqs_wf
    | with_reducible apply State.runLine_wf
    | dsimp only
    | split

theorem State.countFar_wf (s : State) (agent : Nat) (hs : s.mem.wf = true) :
    (State.countFar s agent).mem.wf = true := by
  unfold State.countFar
  repeat' first
    | with_reducible assumption

theorem State.farAtomic_wf (s : State) (agent : Nat) (hs : s.mem.wf = true) :
    (State.farAtomic s agent).mem.wf = true := by
  unfold State.farAtomic
  repeat' first
    | with_reducible assumption
    | intro _
    | with_reducible apply State.predDown_wf
    | with_reducible apply State.setHolders_wf
    | with_reducible apply State.hbmWriteLine_wf
    | with_reducible apply State.dropL1_wf
    | with_reducible apply State.countFar_wf
    | with_reducible apply State.dequeue_wf
    | with_reducible apply State.settleData_wf
    | with_reducible apply State.runLine_wf
    | with_reducible apply State.modCore_wf
    | dsimp only
    | split

theorem State.sendAccess_wf (s : State) (c : Nat) (a : Access) (hs : s.mem.wf = true) :
    OptWf (State.sendAccess s c a) := by
  unfold State.sendAccess
  repeat' first
    | with_reducible assumption
    | intro _
    | with_reducible apply State.modCore_wf
    | with_reducible apply State.request_wf
    | with_reducible apply OptWf.some
    | with_reducible exact OptWf.none
    | with_reducible apply OptWf.map

theorem State.takeTseq_wf (s : State) (k : Packet) (hs : s.mem.wf = true) :
    (State.takeTseq s k).1.mem.wf = true := by
  unfold State.takeTseq
  repeat' first
    | with_reducible assumption
    | intro _
    | with_reducible apply State.log_wf
    | (with_reducible refine wf_of_fst (by assumption) ?_)
    | dsimp only
    | split

theorem State.hostAnswer_wf (s : State) (w : Pending) (st : RespStatus) (bytes : List Byte) (hs : s.mem.wf = true) :
    (State.hostAnswer s w st bytes).mem.wf = true := by
  unfold State.hostAnswer
  repeat' first
    | with_reducible assumption
    | intro _
    | with_reducible apply State.log_wf
    | with_reducible apply State.hostFailure_wf
    | with_reducible apply State.emit_wf
    | dsimp only
    | split

theorem State.outsideWrite_wf (s : State) (a : Nat) (bs : List (Option Byte)) (src : Source) (hs : s.mem.wf = true) :
    (State.outsideWrite s a bs src).1.mem.wf = true := by
  unfold State.outsideWrite
  repeat' first
    | with_reducible assumption
    | intro _
    | with_reducible apply State.cpWrite_wf
    | with_reducible apply State.writeRange_wf
    | with_reducible apply State.regWrite_wf
    | (with_reducible refine wf_of_fst (by assumption) ?_)
    | dsimp only
    | split

theorem State.semAnswer_wf (s : State) (c : Nat) (id : Nat) (st : RespStatus) (bytes : List Byte) (hs : s.mem.wf = true) :
    (State.semAnswer s c id st bytes).mem.wf = true := by
  unfold State.semAnswer
  repeat' first
    | with_reducible assumption
    | intro _
    | with_reducible apply State.modCore_wf
    | dsimp only
    | split

theorem State.accessAnswer_wf (s : State) (c : Nat) (id : Nat) (st : RespStatus) (bytes : List Byte) (hs : s.mem.wf = true) :
    (State.accessAnswer s c id st bytes).mem.wf = true := by
  unfold State.accessAnswer
  repeat' first
    | with_reducible assumption
    | intro _
    | with_reducible apply State.modCore_wf
    | dsimp only
    | split

theorem State.hostSignals_wf (s : State) (n : Nat) (hs : s.mem.wf = true) : (s.hostSignals n).mem.wf = true := by
  induction n generalizing s with
  | zero => exact hs
  | succ n ih =>
    unfold State.hostSignals
    split
    · exact hs
    · split
      · exact hs
      · exact ih _ (State.semSignal_wf _ _ _ _ hs)

theorem State.answered_wf (s : State) (w : Pending) (st : RespStatus) (bytes : List Byte) (hs : s.mem.wf = true) :
    (State.answered s w st bytes).mem.wf = true := by
  unfold State.answered
  repeat' first
    | with_reducible assumption
    | intro _
    | with_reducible apply State.dmaAnswer_wf
    | with_reducible apply State.accessAnswer_wf
    | with_reducible apply State.semAnswer_wf
    | with_reducible apply State.hostAnswer_wf
    | with_reducible apply State.hostSignals_wf
    | with_reducible apply wf_forEach
    | dsimp only
    | split

theorem State.deliverPacket_wf (s : State) (p : Nat) (k : Packet) (hs : s.mem.wf = true) :
    (State.deliverPacket s p k).mem.wf = true := by
  unfold State.deliverPacket
  repeat' first
    | with_reducible assumption
    | intro _
    | with_reducible apply State.unroutable_wf
    | with_reducible apply State.answered_wf
    | with_reducible apply State.takeTseq_wf
    | with_reducible apply State.enqueue_wf
    | (with_reducible refine wf_of_fst (by assumption) ?_)
    | dsimp only
    | split

theorem State.packetReceive_wf (s : State) (p : Nat) (hs : s.mem.wf = true) :
    (State.packetReceive s p).mem.wf = true := by
  unfold State.packetReceive
  repeat' first
    | with_reducible assumption
    | intro _
    | with_reducible apply State.sendControl_wf
    | with_reducible apply State.takeAck_wf
    | with_reducible apply State.badCrc_wf
    | with_reducible apply State.setPort_wf
    | with_reducible apply State.modPort_wf
    | with_reducible apply State.deliverPacket_wf
    | dsimp only
    | split

theorem State.respTimeout_wf (s : State) (i : Nat) (hs : s.mem.wf = true) :
    (State.respTimeout s i).mem.wf = true := by
  unfold State.respTimeout
  repeat' first
    | with_reducible assumption
    | intro _
    | with_reducible apply State.answered_wf
    | dsimp only
    | split

theorem State.sendSem_wf (s : State) (c : Nat) (o : Op) (hs : s.mem.wf = true) :
    OptWf (State.sendSem s c o) := by
  unfold State.sendSem
  repeat' first
    | with_reducible assumption
    | intro _
    | with_reducible apply State.modCore_wf
    | with_reducible apply State.request_wf
    | with_reducible apply OptWf.some
    | with_reducible exact OptWf.none
    | with_reducible apply OptWf.map

theorem State.sendOne_wf (s : State) (x : Outgoing) (hw : s.mem.wf = true) : OptWf (s.sendOne x) := by
  unfold State.sendOne
  split
  · exact State.sendAccess_wf _ _ _ hw
  · exact State.sendSem_wf _ _ _ hw
  · exact OptWf.map (State.request_wf _ _ _ _ _ _ _ _ hw) fun _ h => State.modCore_wf _ _ _ h

theorem State.outsideRead_wf (s : State) (a : Nat) (n : Nat) (hs : s.mem.wf = true) :
    (State.outsideRead s a n).1.mem.wf = true := by
  unfold State.outsideRead
  repeat' first
    | with_reducible assumption
    | intro _
    | with_reducible apply State.readRange_wf
    | with_reducible apply State.regRead_wf
    | (with_reducible refine wf_of_fst (by assumption) ?_)
    | dsimp only
    | split

theorem State.outsideAtomic_wf (s : State) (a : Nat) (n : Nat) (port : Nat) (b : W64) (c : W64) (hs : s.mem.wf = true) :
    (State.outsideAtomic s a n port b c).1.mem.wf = true := by
  unfold State.outsideAtomic
  repeat' first
    | with_reducible assumption
    | intro _
    | with_reducible apply State.hbmWriteLine_wf
    | with_reducible apply State.dropL1_wf
    | with_reducible apply State.countFar_wf
    | with_reducible apply State.recallLine_wf
    | with_reducible apply State.uncorrYard_wf
    | with_reducible apply State.yardWrite_wf
    | (with_reducible refine wf_of_fst (by assumption) ?_)
    | dsimp only
    | split

theorem State.semCancelRemote_wf (s : State) (sem : Nat) (pkg : Nat) (id : Nat) (hs : s.mem.wf = true) :
    (State.semCancelRemote s sem pkg id).mem.wf = true := by
  unfold State.semCancelRemote
  repeat' first
    | with_reducible assumption
    | intro _
    | with_reducible apply State.setSem_wf
    | with_reducible apply State.wake_wf
    | with_reducible apply State.semServe_wf
    | with_reducible apply State.semExpire_wf
    | dsimp only
    | split

theorem State.semRemote_wf (s : State) (k : Packet) (sem : Nat) (port : Nat) (hs : s.mem.wf = true) :
    (State.semRemote s k sem port).1.mem.wf = true := by
  unfold State.semRemote
  repeat' first
    | with_reducible assumption
    | intro _
    | with_reducible apply State.semCancelRemote_wf
    | with_reducible apply State.semOperate_wf
    | (with_reducible refine wf_of_fst (by assumption) ?_)
    | dsimp only
    | split

theorem State.packetEcc_wf (s : State) (k : Packet) (ecc : Ecc) (hs : s.mem.wf = true) :
    (State.packetEcc s k ecc).mem.wf = true := by
  unfold State.packetEcc
  repeat' first
    | with_reducible assumption
    | intro _
    | with_reducible apply State.readEcc_wf
    | with_reducible apply State.writeEcc_wf
    | dsimp only
    | split

theorem State.performRequest_wf (s : State) (k : Packet) (ecc : Ecc) (hs : s.mem.wf = true) :
    (State.performRequest s k ecc).1.mem.wf = true := by
  unfold State.performRequest
  repeat' first
    | with_reducible assumption
    | intro _
    | with_reducible apply State.outsideAtomic_wf
    | with_reducible apply State.outsideRead_wf
    | with_reducible apply State.outsideWrite_wf
    | with_reducible apply State.semRemote_wf
    | with_reducible apply State.packetEcc_wf
    | (with_reducible refine wf_of_fst (by assumption) ?_)
    | dsimp only
    | split

theorem State.carryCore_wf (s : State) (c : Nat) (hs : s.mem.wf = true) :
    (State.carryCore s c).mem.wf = true := by
  unfold State.carryCore
  repeat' first
    | with_reducible assumption
    | intro _
    | with_reducible apply State.modCore_wf
    | with_reducible apply State.request_wf
    | with_reducible apply State.countNoRoute_wf
    | with_reducible apply State.semSignal_wf
    | (with_reducible refine wf_of_fst (by assumption) ?_)
    | with_reducible apply OptWf.some
    | with_reducible exact OptWf.none
    | with_reducible apply OptWf.map
    | with_reducible apply OptWf.setOf
    | with_reducible apply OptWf.bind
    | (with_reducible refine OptWf.use (by assumption) ?_)
    | with_reducible apply OptWf.getD
    | dsimp only
    | split

theorem State.remoteFront_wf (s : State) (carry : Bool) (ecc : Ecc) (hs : s.mem.wf = true) :
    (State.remoteFront s carry ecc).mem.wf = true := by
  unfold State.remoteFront
  repeat' first
    | with_reducible assumption
    | intro _
    | with_reducible apply State.performRequest_wf
    | with_reducible apply State.answer_wf
    | (with_reducible refine wf_of_fst (by assumption) ?_)
    | dsimp only
    | split

theorem State.meetHold_wf (s : State) (slice : Nat) (key : Nat) (w : Line) (hs : s.mem.wf = true) :
    (State.meetHold s slice key w).mem.wf = true := by
  unfold State.meetHold
  repeat' first
    | with_reducible assumption
    | intro _
    | with_reducible apply State.setLine_wf

theorem State.heldUp_wf (s : State) (lines : List Nat) (hs : s.mem.wf = true) :
    (State.heldUp s lines).mem.wf = true := by
  unfold State.heldUp
  repeat' first
    | with_reducible assumption
    | intro _
    | with_reducible apply State.meetHold_wf
    | with_reducible apply wf_forEach
    | dsimp only
    | split

theorem State.whenServed_wf (f : State → State) (s : State) (hf0 : ∀ (x0 : State), x0.mem.wf = true → (f x0).mem.wf = true) (hs : s.mem.wf = true) :
    (State.whenServed f s).mem.wf = true := by
  unfold State.whenServed
  repeat' first
    | with_reducible assumption
    | intro _
    | with_reducible apply hf0
    | with_reducible apply State.heldUp_wf
    | dsimp only
    | split

theorem State.carriedSignal_wf (s : State) (q : CarryReq) (hs : s.mem.wf = true) :
    (State.carriedSignal s q).mem.wf = true := by
  unfold State.carriedSignal
  repeat' first
    | with_reducible assumption
    | intro _
    | with_reducible apply State.whenServed_wf
    | with_reducible apply State.dmaSignal_wf
    | with_reducible apply State.remoteFront_wf
    | with_reducible apply State.carryCore_wf
    | dsimp only
    | split

theorem State.packetSend_wf (s : State) (p : Nat) (vc : Nat) (hs : s.mem.wf = true) :
    (State.packetSend s p vc).mem.wf = true := by
  unfold State.packetSend
  repeat' first
    | with_reducible assumption
    | intro _
    | with_reducible apply State.sendFront_wf
    | with_reducible apply State.fresh_wf
    | with_reducible apply State.sendOne_wf
    | with_reducible apply OptWf.some
    | with_reducible exact OptWf.none
    | with_reducible apply OptWf.map
    | with_reducible apply OptWf.setOf
    | with_reducible apply OptWf.bind
    | (with_reducible refine OptWf.use (by assumption) ?_)
    | with_reducible apply OptWf.getD
    | dsimp only
    | split

theorem State.bar2Unmapped_wf (s : State) (read : Bool) (offset : Nat) (hs : s.mem.wf = true) :
    (State.bar2Unmapped s read offset).mem.wf = true := by
  unfold State.bar2Unmapped
  repeat' first
    | with_reducible assumption
    | intro _
    | with_reducible apply State.hostFailure_wf

theorem State.bar2Reply_wf (s : State) (a : Nat) (bytes : List Byte) (poison : Bool) (hs : s.mem.wf = true) :
    (State.bar2Reply s a bytes poison).mem.wf = true := by
  unfold State.bar2Reply
  repeat' first
    | with_reducible assumption
    | intro _
    | with_reducible apply State.log_wf
    | with_reducible apply State.emit_wf
    | dsimp only
    | split

theorem State.hostReadsFail_wf (s : State) (c : Nat) (hs : s.mem.wf = true) :
    (State.hostReadsFail s c).mem.wf = true := by
  unfold State.hostReadsFail
  repeat' first
    | with_reducible assumption
    | intro _
    | with_reducible apply State.hostReadFailure_wf
    | with_reducible apply wf_forEach

theorem State.functionLevelReset_wf (s : State) (hs : s.mem.wf = true) :
    (State.functionLevelReset s).mem.wf = true := by
  unfold State.functionLevelReset
  repeat' first
    | with_reducible assumption
    | intro _
    | with_reducible apply State.resetDma_wf
    | with_reducible apply State.hostReadsFail_wf
    | with_reducible apply State.hostSignals_wf
    | with_reducible apply wf_forEach
    | with_reducible apply wf_forN
    | dsimp only
    | split

theorem State.cfgWrite_wf (s : State) (i : Nat) (v : W32) (hs : s.mem.wf = true) :
    (State.cfgWrite s i v).mem.wf = true := by
  unfold State.cfgWrite
  repeat' first
    | with_reducible assumption
    | intro _
    | with_reducible apply State.functionLevelReset_wf
    | with_reducible apply State.msixFlushAll_wf
    | dsimp only
    | split

theorem State.configRequest_wf (s : State) (offset : Nat) (size : Nat) (write : Option W32) (hs : s.mem.wf = true) :
    (State.configRequest s offset size write).mem.wf = true := by
  unfold State.configRequest
  repeat' first
    | with_reducible assumption
    | intro _
    | with_reducible apply State.cfgWrite_wf
    | with_reducible apply State.emit_wf
    | dsimp only
    | split

theorem State.bar2Fails_wf (s : State) (read : Bool) (offset : Nat) (a : Nat) (st : RespStatus) (hs : s.mem.wf = true) :
    (State.bar2Fails s read offset a st).mem.wf = true := by
  unfold State.bar2Fails
  repeat' first
    | with_reducible assumption
    | intro _
    | with_reducible apply State.hostFailure_wf

theorem State.bar2Remote_wf (s : State) (read : Bool) (offset a n : Nat) (data : List Byte) (hw : s.mem.wf = true) :
    (s.bar2Remote read offset a n data).mem.wf = true := by
  unfold State.bar2Remote
  split
  · exact State.bar2Fails_wf _ _ _ _ _ (State.countNoRoute_wf _ hw)
  · exact wf_foldl (fun t b ht => OptWf.getD (State.request_wf _ _ _ _ _ _ _ _ ht) ht) hw

theorem State.bar2Read_wf (s : State) (offset : Nat) (n : Nat) (ecc : Ecc) (hs : s.mem.wf = true) :
    (State.bar2Read s offset n ecc).mem.wf = true := by
  unfold State.bar2Read
  repeat' first
    | with_reducible assumption
    | intro _
    | with_reducible apply State.readEcc_wf
    | with_reducible apply State.readRange_wf
    | with_reducible apply State.bar2Fails_wf
    | with_reducible apply State.bar2Unmapped_wf
    | with_reducible apply State.bar2Reply_wf
    | with_reducible apply State.bar2Remote_wf
    | (with_reducible refine wf_of_fst (by assumption) ?_)
    | dsimp only
    | split

theorem State.bar2Atomic_wf (s : State) (op : AtomicOp) (offset : Nat) (n : Nat) (operand : W64) (compare : W64) (ecc : Ecc) (hs : s.mem.wf = true) :
    (State.bar2Atomic s op offset n operand compare ecc).mem.wf = true := by
  unfold State.bar2Atomic
  repeat' first
    | with_reducible assumption
    | intro _
    | with_reducible apply State.readEcc_wf
    | with_reducible apply State.bar2Fails_wf
    | with_reducible apply State.bar2Unmapped_wf
    | with_reducible apply State.bar2Reply_wf
    | with_reducible apply State.outsideAtomic_wf
    | with_reducible apply State.request_wf
    | with_reducible apply State.countNoRoute_wf
    | (with_reducible refine wf_of_fst (by assumption) ?_)
    | with_reducible apply OptWf.some
    | with_reducible exact OptWf.none
    | with_reducible apply OptWf.map
    | with_reducible apply OptWf.setOf
    | with_reducible apply OptWf.bind
    | (with_reducible refine OptWf.use (by assumption) ?_)
    | with_reducible apply OptWf.getD
    | dsimp only
    | split

theorem State.bar2Write_wf (s : State) (offset : Nat) (bytes : List Byte) (ecc : Ecc) (hs : s.mem.wf = true) :
    (State.bar2Write s offset bytes ecc).mem.wf = true := by
  unfold State.bar2Write
  repeat' first
    | with_reducible assumption
    | intro _
    | with_reducible apply State.writeEcc_wf
    | with_reducible apply State.writeRange_wf
    | with_reducible apply State.bar2Fails_wf
    | with_reducible apply State.bar2Unmapped_wf
    | with_reducible apply State.bar2Remote_wf
    | (with_reducible refine wf_of_fst (by assumption) ?_)
    | dsimp only
    | split

theorem State.offends_wf (s : State) (l : Load) (n : Nat) (hs : s.mem.wf = true) :
    (State.offends s l n).mem.wf = true := by
  unfold State.offends
  repeat' first
    | with_reducible assumption
    | intro _
    | with_reducible apply State.takeWords_wf
    | with_reducible apply State.formatAt_wf

theorem State.inPlace_wf (s : State) (l : Load) (w : W32) (far : W32) (f : State → State) (hs : s.mem.wf = true) (hf4 : ∀ (x0 : State), x0.mem.wf = true → (f x0).mem.wf = true) :
    (State.inPlace s l w far f).mem.wf = true := by
  unfold State.inPlace
  repeat' first
    | with_reducible assumption
    | intro _
    | with_reducible apply hf4
    | with_reducible apply State.offends_wf
    | dsimp only
    | split

theorem State.enterPart_wf (s : State) (l : Load) (p : LoadPart) (hs : s.mem.wf = true) :
    (State.enterPart s l p).mem.wf = true := by
  unfold State.enterPart
  repeat' first
    | with_reducible assumption
    | intro _
    | with_reducible apply State.modLoad_wf
    | with_reducible apply State.modRegion_wf
    | with_reducible apply wf_forEach
    | dsimp only
    | split

theorem State.fullBegins_wf (s : State) (hs : s.mem.wf = true) :
    (State.fullBegins s).mem.wf = true := by
  unfold State.fullBegins
  repeat' first
    | with_reducible assumption

theorem State.headerDone_wf (s : State) (ws : List W32) (hs : s.mem.wf = true) :
    (State.headerDone s ws).mem.wf = true := by
  unfold State.headerDone
  repeat' first
    | with_reducible assumption
    | intro _
    | with_reducible apply State.takeWords_wf
    | with_reducible apply State.modLoad_wf
    | with_reducible apply State.endLoad_wf
    | with_reducible apply State.fullBegins_wf
    | dsimp only
    | split

theorem State.atCommand_wf (s : State) (op : Nat) (f : State → Load → W32 → State) (hs : s.mem.wf = true) (hf2 : ∀ (x0 : State) (x1 : Load) (x2 : W32), x0.mem.wf = true → (f x0 x1 x2).mem.wf = true) :
    (State.atCommand s op f).mem.wf = true := by
  unfold State.atCommand
  repeat' first
    | with_reducible assumption
    | intro _
    | with_reducible apply hf2
    | with_reducible apply State.offends_wf
    | dsimp only
    | split

theorem State.absorb_wf (s : State) (n : Nat) (hs : s.mem.wf = true) :
    (State.absorb s n).mem.wf = true := by
  unfold State.absorb
  repeat' first
    | with_reducible assumption
    | intro _
    | with_reducible apply State.consume_wf
    | dsimp only
    | split

theorem State.syncRow_wf (s : State) (hs : s.mem.wf = true) :
    (State.syncRow s).mem.wf = true := by
  unfold State.syncRow
  repeat' first
    | with_reducible assumption
    | intro _
    | with_reducible apply State.takeWords_wf
    | with_reducible apply State.absorb_wf
    | with_reducible apply State.seeFull_wf
    | with_reducible apply State.endLoad_wf
    | with_reducible apply State.atCommand_wf
    | with_reducible apply State.headerDone_wf
    | dsimp only
    | split

theorem State.putFrameAt_wf (s : State) (f : Nat) (rows : Nat) (cols : Nat) (payload : List W32) (hs : s.mem.wf = true) :
    (State.putFrameAt s f rows cols payload).mem.wf = true := by
  unfold State.putFrameAt
  repeat' first
    | with_reducible assumption
    | intro _
    | with_reducible apply State.modCore_wf
    | with_reducible apply wf_forEach
    | dsimp only
    | split

theorem State.nextFrame_wf (s : State) (l : Load) (bcast : Bool) (hs : s.mem.wf = true) :
    (State.nextFrame s l bcast).mem.wf = true := by
  unfold State.nextFrame
  repeat' first
    | with_reducible assumption
    | intro _
    | with_reducible apply State.takeWords_wf
    | with_reducible apply State.absorb_wf
    | with_reducible apply State.modLoad_wf
    | with_reducible apply State.endLoad_wf
    | with_reducible apply State.formatAt_wf
    | with_reducible apply State.offends_wf
    | with_reducible apply State.putFrameAt_wf
    | dsimp only
    | split

theorem State.clearYard_wf (s : State) (c : Nat) (hs : s.mem.wf = true) :
    (State.clearYard s c).mem.wf = true := by
  unfold State.clearYard
  repeat' first
    | with_reducible assumption
    | intro _
    | with_reducible apply Memory.clear_wf
    | with_reducible apply wf_forN
    | dsimp only
    | split

theorem State.checkPassed_wf (s : State) (l : Load) (hs : s.mem.wf = true) :
    (State.checkPassed s l).mem.wf = true := by
  unfold State.checkPassed
  repeat' first
    | with_reducible assumption
    | intro _
    | with_reducible apply State.clearYard_wf
    | with_reducible apply State.modRegion_wf
    | with_reducible apply wf_forEach
    | dsimp only
    | split

theorem State.cfgStore_wf (s : State) (l : Load) (reg : Nat) (off : Nat) (data : List W32) (hs : s.mem.wf = true) :
    (State.cfgStore s l reg off data).mem.wf = true := by
  unfold State.cfgStore
  repeat' first
    | with_reducible assumption
    | intro _
    | with_reducible apply State.sysWrite_wf
    | with_reducible apply wf_forEach
    | dsimp only
    | split

theorem State.writeCfgRow_wf (s : State) (l : Load) (w : W32) (hs : s.mem.wf = true) :
    (State.writeCfgRow s l w).mem.wf = true := by
  unfold State.writeCfgRow
  repeat' first
    | with_reducible assumption
    | intro _
    | with_reducible apply State.takeWords_wf
    | with_reducible apply State.absorb_wf
    | with_reducible apply State.formatAt_wf
    | with_reducible apply State.enterPart_wf
    | with_reducible apply State.cfgStore_wf
    | dsimp only
    | split

theorem State.setFarRow_wf (s : State) (l : Load) (w : W32) (hs : s.mem.wf = true) :
    (State.setFarRow s l w).mem.wf = true := by
  unfold State.setFarRow
  repeat' first
    | with_reducible assumption
    | intro _
    | with_reducible apply State.takeWords_wf
    | with_reducible apply State.absorb_wf
    | with_reducible apply State.modLoad_wf
    | with_reducible apply State.offends_wf
    | with_reducible apply State.enterPart_wf
    | with_reducible apply State.inPlace_wf
    | dsimp only
    | split

theorem State.wholeCommand_wf (s : State) (l : Load) (n : Nat) (bad : List W32 → Nat → Bool) (f : State → List W32 → State) (hs : s.mem.wf = true) (hf4 : ∀ (x0 : State) (x1 : List W32), x0.mem.wf = true → (f x0 x1).mem.wf = true) :
    (State.wholeCommand s l n bad f).mem.wf = true := by
  unfold State.wholeCommand
  repeat' first
    | with_reducible assumption
    | intro _
    | with_reducible apply hf4
    | with_reducible apply State.takeWords_wf
    | with_reducible apply State.absorb_wf
    | with_reducible apply State.offends_wf
    | dsimp only
    | split

theorem State.checkEndRow_wf (s : State) (l : Load) (hs : s.mem.wf = true) :
    (State.checkEndRow s l).mem.wf = true := by
  unfold State.checkEndRow
  repeat' first
    | with_reducible assumption
    | intro _
    | with_reducible apply State.takeWords_wf
    | with_reducible apply State.endLoad_wf
    | with_reducible apply State.wholeCommand_wf
    | with_reducible apply State.enterPart_wf
    | with_reducible apply State.checkPassed_wf
    | dsimp only
    | split

theorem State.orWait_wf (s : State) (c : Nat) (a : Access) (slice : Nat) (line : Nat) (f : State → State) (hs : s.mem.wf = true) (hf5 : ∀ (x0 : State), x0.mem.wf = true → (f x0).mem.wf = true) :
    (State.orWait s c a slice line f).mem.wf = true := by
  unfold State.orWait
  repeat' first
    | with_reducible assumption
    | intro _
    | with_reducible apply hf5
    | with_reducible apply State.waitAtSlice_wf
    | dsimp only
    | split

theorem State.sliceLoad_wf (s : State) (c : Nat) (slice : Nat) (line : Nat) (a : Access) (t : Attr) (hs : s.mem.wf = true) :
    (State.sliceLoad s c slice line a t).mem.wf = true := by
  unfold State.sliceLoad
  repeat' first
    | with_reducible assumption
    | intro _
    | with_reducible apply State.serveLine_wf
    | with_reducible apply State.waitAtSlice_wf
    | with_reducible apply State.orWait_wf
    | with_reducible apply State.sendRequest_wf
    | with_reducible apply State.setLine_wf
    | with_reducible apply State.modCore_wf
    | dsimp only
    | split

theorem State.mergeSiding_wf (s : State) (c : Nat) (slice : Nat) (line : Nat) (a : Access) (e : Siding) (hs : s.mem.wf = true) :
    (State.mergeSiding s c slice line a e).mem.wf = true := by
  unfold State.mergeSiding
  repeat' first
    | with_reducible assumption
    | intro _
    | with_reducible apply State.showStore_wf
    | with_reducible apply State.setSiding_wf
    | with_reducible apply State.holdAs_wf

theorem State.sliceStore_wf (s : State) (c : Nat) (slice : Nat) (line : Nat) (a : Access) (t : Attr) (hs : s.mem.wf = true) :
    (State.sliceStore s c slice line a t).mem.wf = true := by
  unfold State.sliceStore
  repeat' first
    | with_reducible assumption
    | intro _
    | with_reducible apply State.waitAtSlice_wf
    | with_reducible apply State.orWait_wf
    | with_reducible apply State.sendRequest_wf
    | with_reducible apply State.storeHit_wf
    | with_reducible apply State.mergeSiding_wf
    | dsimp only
    | split

theorem State.sliceAtomic_wf (s : State) (c : Nat) (slice : Nat) (line : Nat) (a : Access) (t : Attr) (hs : s.mem.wf = true) :
    (State.sliceAtomic s c slice line a t).mem.wf = true := by
  unfold State.sliceAtomic
  repeat' first
    | with_reducible assumption
    | intro _
    | with_reducible apply State.waitAtSlice_wf
    | with_reducible apply State.orWait_wf
    | with_reducible apply State.sendRequest_wf
    | with_reducible apply State.atomicHit_wf
    | dsimp only
    | split

theorem State.answerProbe_wf (s : State) (p : Probe) (hs : s.mem.wf = true) :
    (State.answerProbe s p).mem.wf = true := by
  unfold State.answerProbe
  repeat' first
    | with_reducible assumption
    | intro _
    | with_reducible apply State.yieldLine_wf

theorem State.answerForward_wf (s : State) (f : Fwd) (hs : s.mem.wf = true) :
    (State.answerForward s f).mem.wf = true := by
  unfold State.answerForward
  repeat' first
    | with_reducible assumption
    | intro _
    | with_reducible apply State.setHolders_wf
    | with_reducible apply State.yieldLine_wf
    | with_reducible apply State.grant_wf
    | (with_reducible refine wf_of_fst (by assumption) ?_)
    | dsimp only
    | split

theorem State.answerWaiting_wf (s : State) (slice : Nat) (line : Nat) (hs : s.mem.wf = true) :
    (State.answerWaiting s slice line).mem.wf = true := by
  unfold State.answerWaiting
  repeat' first
    | with_reducible assumption
    | intro _
    | with_reducible apply State.answerProbe_wf
    | with_reducible apply State.answerForward_wf
    | with_reducible apply wf_forEach

theorem State.judge_wf (s : State) (slice : Nat) (w : Line) (hs : s.mem.wf = true) :
    (State.judge s slice w).mem.wf = true := by
  unfold State.judge
  repeat' first
    | with_reducible assumption
    | intro _
    | with_reducible apply State.predUp_wf
    | with_reducible apply State.predDown_wf
    | with_reducible apply wf_forN
    | dsimp only
    | split

theorem State.sliceControl_wf (s : State) (c : Nat) (slice : Nat) (line : Nat) (a : Access) (hs : s.mem.wf = true) :
    (State.sliceControl s c slice line a).mem.wf = true := by
  unfold State.sliceControl
  repeat' first
    | with_reducible assumption
    | intro _
    | with_reducible apply State.waitAtSlice_wf
    | with_reducible apply State.setLine_wf
    | with_reducible apply State.dropLine_wf
    | with_reducible apply State.setHolders_wf
    | with_reducible apply State.hbmWriteLine_wf
    | with_reducible apply State.dropDieL1_wf
    | with_reducible apply State.holdAs_wf
    | with_reducible apply State.holdNot_wf
    | with_reducible apply State.modCore_wf
    | with_reducible apply State.answerWaiting_wf
    | with_reducible apply State.judge_wf
    | dsimp only
    | split

theorem State.sliceServe_wf (s : State) (c : Nat) (slice : Nat) (line : Nat) (a : Access) (hs : s.mem.wf = true) :
    (State.sliceServe s c slice line a).mem.wf = true := by
  unfold State.sliceServe
  repeat' first
    | with_reducible assumption
    | intro _
    | with_reducible apply State.sliceLoad_wf
    | with_reducible apply State.sliceStore_wf
    | with_reducible apply State.sliceAtomic_wf
    | with_reducible apply State.sliceControl_wf
    | dsimp only
    | split

theorem State.forwardedRequest_wf (s : State) (i : Nat) (hs : s.mem.wf = true) :
    (State.forwardedRequest s i).mem.wf = true := by
  unfold State.forwardedRequest
  repeat' first
    | with_reducible assumption
    | intro _
    | with_reducible apply State.meetHold_wf
    | with_reducible apply State.answerForward_wf
    | dsimp only
    | split

theorem State.grantServe_wf (s : State) (g : Grant) (key : Nat) (w : Line) (hs : s.mem.wf = true) :
    (State.grantServe s g key w).mem.wf = true := by
  unfold State.grantServe
  repeat' first
    | with_reducible assumption
    | intro _
    | with_reducible apply State.serveLine_wf
    | with_reducible apply State.showStore_wf
    | with_reducible apply State.predNearDone_wf
    | with_reducible apply State.setLine_wf
    | with_reducible apply State.dropL1_wf
    | with_reducible apply State.throughStore_wf
    | with_reducible apply State.modCore_wf
    | dsimp only
    | split

theorem State.sidingIssue_wf (s : State) (slice : Nat) (hs : s.mem.wf = true) :
    (State.sidingIssue s slice).mem.wf = true := by
  unfold State.sidingIssue
  repeat' first
    | with_reducible assumption
    | intro _
    | with_reducible apply State.setSiding_wf
    | dsimp only
    | split

theorem State.sidingRetire_wf (s : State) (i : Nat) (hs : s.mem.wf = true) :
    (State.sidingRetire s i).mem.wf = true := by
  unfold State.sidingRetire
  repeat' first
    | with_reducible assumption
    | intro _
    | with_reducible apply State.retireEntry_wf
    | dsimp only
    | split

theorem State.probeEvent_wf (s : State) (i : Nat) (hs : s.mem.wf = true) :
    (State.probeEvent s i).mem.wf = true := by
  unfold State.probeEvent
  repeat' first
    | with_reducible assumption
    | intro _
    | with_reducible apply State.meetHold_wf
    | with_reducible apply State.answerProbe_wf
    | dsimp only
    | split

theorem State.sliceAccess_wf (s : State) (c : Nat) (id : Nat) (ecc : Ecc) (hs : s.mem.wf = true) :
    (State.sliceAccess s c id ecc).mem.wf = true := by
  unfold State.sliceAccess
  repeat' first
    | with_reducible assumption
    | intro _
    | with_reducible apply State.sliceEcc_wf
    | with_reducible apply State.modCore_wf
    | with_reducible apply State.sliceServe_wf
    | dsimp only
    | split

theorem State.lineGrant_wf (s : State) (i : Nat) (hs : s.mem.wf = true) :
    (State.lineGrant s i).mem.wf = true := by
  unfold State.lineGrant
  repeat' first
    | with_reducible assumption
    | intro _
    | with_reducible apply State.serveLine_wf
    | with_reducible apply State.takeWay_wf
    | with_reducible apply State.setLine_wf
    | with_reducible apply State.grantServe_wf
    | (with_reducible refine wf_of_fst (by assumption) ?_)
    | dsimp only
    | split

theorem State.holdEnds_wf (s : State) (slice : Nat) (line : Nat) (hs : s.mem.wf = true) :
    (State.holdEnds s slice line).mem.wf = true := by
  unfold State.holdEnds
  repeat' first
    | with_reducible assumption
    | intro _
    | with_reducible apply State.setLine_wf
    | with_reducible apply State.answerWaiting_wf
    | with_reducible apply State.judge_wf
    | dsimp only
    | split

theorem State.smbTakes_wf (s : State) (low : Bool) (f : State → State) (hs : s.mem.wf = true) (hf2 : ∀ (x0 : State), x0.mem.wf = true → (f x0).mem.wf = true) :
    (State.smbTakes s low f).mem.wf = true := by
  unfold State.smbTakes
  repeat' first
    | with_reducible assumption
    | intro _
    | with_reducible apply hf2
    | with_reducible apply State.emit_wf
    | dsimp only
    | split

theorem State.smbWrite_wf (s : State) (low : Bool) (pecOk : Bool) (f : State → State) (hs : s.mem.wf = true) (hf3 : ∀ (x0 : State), x0.mem.wf = true → (f x0).mem.wf = true) :
    (State.smbWrite s low pecOk f).mem.wf = true := by
  unfold State.smbWrite
  repeat' first
    | with_reducible assumption
    | intro _
    | with_reducible apply hf3
    | with_reducible apply State.emit_wf
    | with_reducible apply State.smbTakes_wf
    | dsimp only
    | split

theorem State.withFetchWord_wf (s : State) (nbits : Nat) (w : Nat) (hs : s.mem.wf = true) :
    (State.withFetchWord s nbits w).mem.wf = true := by
  unfold State.withFetchWord
  repeat' first
    | with_reducible assumption
    | intro _
    | dsimp only
    | split

theorem State.engineEcc_wf (s : State) (e : Engine) (unit : Nat) (x3 : Ecc) (hs : s.mem.wf = true) :
    (State.engineEcc s e unit x3).mem.wf = true := by
  unfold State.engineEcc
  repeat' first
    | with_reducible assumption
    | intro _
    | with_reducible apply State.log_wf
    | with_reducible apply State.corrected_wf
    | dsimp only
    | split

theorem State.asyncComplete_wf (s : State) (c : Nat) (hs : s.mem.wf = true) :
    (State.asyncComplete s c).mem.wf = true := by
  unfold State.asyncComplete
  repeat' first
    | with_reducible assumption
    | intro _
    | with_reducible apply State.modCore_wf
    | dsimp only
    | split

end Sys2Proof.Machine
end

