-- ==== Sys2Proof/Laws/Events.lean ====
section
/-!
SUPPORT. What notifications, alerts and log entries leave alone, and what a log entry adds
(16 R495, 18 R536, 19 R555).
-/
namespace Sys2Proof.Machine

@[simp] theorem State.sendMsix_pending (s : State) (v : Nat) : (s.sendMsix v).pending = s.pending := by unfold State.sendMsix; simp only; (repeat' split) <;> rfl
@[simp] theorem State.sendMsix_free (s : State) (v : Nat) : (s.sendMsix v).free = s.free := by unfold State.sendMsix; simp only; (repeat' split) <;> rfl
@[simp] theorem State.sendMsix_pw (s : State) (v : Nat) : (s.sendMsix v).pw = s.pw := by unfold State.sendMsix; simp only; (repeat' split) <;> rfl
@[simp] theorem State.sendMsix_mem (s : State) (v : Nat) : (s.sendMsix v).mem = s.mem := by unfold State.sendMsix; simp only; (repeat' split) <;> rfl
@[simp] theorem State.sendMsix_memEpoch (s : State) (v : Nat) : (s.sendMsix v).memEpoch = s.memEpoch := by unfold State.sendMsix; simp only; (repeat' split) <;> rfl
@[simp] theorem State.sendMsix_yardBad (s : State) (v : Nat) : (s.sendMsix v).yardBad = s.yardBad := by unfold State.sendMsix; simp only; (repeat' split) <;> rfl
@[simp] theorem State.sendMsix_poison (s : State) (v : Nat) : (s.sendMsix v).poison = s.poison := by unfold State.sendMsix; simp only; (repeat' split) <;> rfl
@[simp] theorem State.sendMsix_tb (s : State) (v : Nat) : (s.sendMsix v).tb = s.tb := by unfold State.sendMsix; simp only; (repeat' split) <;> rfl
@[simp] theorem State.sendMsix_ra (s : State) (v : Nat) : (s.sendMsix v).ra = s.ra := by unfold State.sendMsix; simp only; (repeat' split) <;> rfl
@[simp] theorem State.sendMsix_cc (s : State) (v : Nat) : (s.sendMsix v).cc = s.cc := by unfold State.sendMsix; simp only; (repeat' split) <;> rfl
@[simp] theorem State.sendMsix_pkg (s : State) (v : Nat) : (s.sendMsix v).pkg = s.pkg := by unfold State.sendMsix; simp only; (repeat' split) <;> rfl
@[simp] theorem State.sendMsix_aliasEn (s : State) (v : Nat) : (s.sendMsix v).aliasEn = s.aliasEn := by unfold State.sendMsix; simp only; (repeat' split) <;> rfl
@[simp] theorem State.sendMsix_regions (s : State) (v : Nat) : (s.sendMsix v).regions = s.regions := by unfold State.sendMsix; simp only; (repeat' split) <;> rfl
@[simp] theorem State.sendMsix_cores (s : State) (v : Nat) : (s.sendMsix v).cores = s.cores := by unfold State.sendMsix; simp only; (repeat' split) <;> rfl
@[simp] theorem State.sendMsix_co (s : State) (v : Nat) : (s.sendMsix v).co = s.co := by unfold State.sendMsix; simp only; (repeat' split) <;> rfl
@[simp] theorem State.sendMsix_sems (s : State) (v : Nat) : (s.sendMsix v).sems = s.sems := by unfold State.sendMsix; simp only; (repeat' split) <;> rfl
@[simp] theorem State.sendMsix_semDies (s : State) (v : Nat) : (s.sendMsix v).semDies = s.semDies := by unfold State.sendMsix; simp only; (repeat' split) <;> rfl
@[simp] theorem State.sendMsix_dx (s : State) (v : Nat) : (s.sendMsix v).dx = s.dx := by unfold State.sendMsix; simp only; (repeat' split) <;> rfl
@[simp] theorem State.sendMsix_sb (s : State) (v : Nat) : (s.sendMsix v).sb = s.sb := by unfold State.sendMsix; simp only; (repeat' split) <;> rfl
@[simp] theorem State.sendMsix_tf (s : State) (v : Nat) : (s.sendMsix v).tf = s.tf := by unfold State.sendMsix; simp only; (repeat' split) <;> rfl
@[simp] theorem State.sendMsix_queues (s : State) (v : Nat) : (s.sendMsix v).queues = s.queues := by unfold State.sendMsix; simp only; (repeat' split) <;> rfl
@[simp] theorem State.sendMsix_ml (s : State) (v : Nat) : (s.sendMsix v).ml = s.ml := by unfold State.sendMsix; simp only; (repeat' split) <;> rfl
@[simp] theorem State.sendMsix_ec (s : State) (v : Nat) : (s.sendMsix v).ec = s.ec := by unfold State.sendMsix; simp only; (repeat' split) <;> rfl
@[simp] theorem State.sendMsix_sd (s : State) (v : Nat) : (s.sendMsix v).sd = s.sd := by unfold State.sendMsix; simp only; (repeat' split) <;> rfl

@[simp] theorem State.hostEvent_pending (s : State) (e : Nat) : (s.hostEvent e).pending = s.pending := by unfold State.hostEvent; simp only; split <;> simp
@[simp] theorem State.hostEvent_free (s : State) (e : Nat) : (s.hostEvent e).free = s.free := by unfold State.hostEvent; simp only; split <;> simp
@[simp] theorem State.hostEvent_pw (s : State) (e : Nat) : (s.hostEvent e).pw = s.pw := by unfold State.hostEvent; simp only; split <;> simp
@[simp] theorem State.hostEvent_mem (s : State) (e : Nat) : (s.hostEvent e).mem = s.mem := by unfold State.hostEvent; simp only; split <;> simp
@[simp] theorem State.hostEvent_memEpoch (s : State) (e : Nat) : (s.hostEvent e).memEpoch = s.memEpoch := by unfold State.hostEvent; simp only; split <;> simp
@[simp] theorem State.hostEvent_yardBad (s : State) (e : Nat) : (s.hostEvent e).yardBad = s.yardBad := by unfold State.hostEvent; simp only; split <;> simp
@[simp] theorem State.hostEvent_poison (s : State) (e : Nat) : (s.hostEvent e).poison = s.poison := by unfold State.hostEvent; simp only; split <;> simp
@[simp] theorem State.hostEvent_tb (s : State) (e : Nat) : (s.hostEvent e).tb = s.tb := by unfold State.hostEvent; simp only; split <;> simp
@[simp] theorem State.hostEvent_ra (s : State) (e : Nat) : (s.hostEvent e).ra = s.ra := by unfold State.hostEvent; simp only; split <;> simp
@[simp] theorem State.hostEvent_cc (s : State) (e : Nat) : (s.hostEvent e).cc = s.cc := by unfold State.hostEvent; simp only; split <;> simp
@[simp] theorem State.hostEvent_pkg (s : State) (e : Nat) : (s.hostEvent e).pkg = s.pkg := by unfold State.hostEvent; simp only; split <;> simp
@[simp] theorem State.hostEvent_aliasEn (s : State) (e : Nat) : (s.hostEvent e).aliasEn = s.aliasEn := by unfold State.hostEvent; simp only; split <;> simp
@[simp] theorem State.hostEvent_regions (s : State) (e : Nat) : (s.hostEvent e).regions = s.regions := by unfold State.hostEvent; simp only; split <;> simp
@[simp] theorem State.hostEvent_cores (s : State) (e : Nat) : (s.hostEvent e).cores = s.cores := by unfold State.hostEvent; simp only; split <;> simp
@[simp] theorem State.hostEvent_co (s : State) (e : Nat) : (s.hostEvent e).co = s.co := by unfold State.hostEvent; simp only; split <;> simp
@[simp] theorem State.hostEvent_sems (s : State) (e : Nat) : (s.hostEvent e).sems = s.sems := by unfold State.hostEvent; simp only; split <;> simp
@[simp] theorem State.hostEvent_semDies (s : State) (e : Nat) : (s.hostEvent e).semDies = s.semDies := by unfold State.hostEvent; simp only; split <;> simp
@[simp] theorem State.hostEvent_dx (s : State) (e : Nat) : (s.hostEvent e).dx = s.dx := by unfold State.hostEvent; simp only; split <;> simp
@[simp] theorem State.hostEvent_sb (s : State) (e : Nat) : (s.hostEvent e).sb = s.sb := by unfold State.hostEvent; simp only; split <;> simp
@[simp] theorem State.hostEvent_tf (s : State) (e : Nat) : (s.hostEvent e).tf = s.tf := by unfold State.hostEvent; simp only; split <;> simp
@[simp] theorem State.hostEvent_queues (s : State) (e : Nat) : (s.hostEvent e).queues = s.queues := by unfold State.hostEvent; simp only; split <;> simp
@[simp] theorem State.hostEvent_ml (s : State) (e : Nat) : (s.hostEvent e).ml = s.ml := by unfold State.hostEvent; simp only; split <;> simp
@[simp] theorem State.hostEvent_ec (s : State) (e : Nat) : (s.hostEvent e).ec = s.ec := by unfold State.hostEvent; simp only; split <;> simp
@[simp] theorem State.hostEvent_sd (s : State) (e : Nat) : (s.hostEvent e).sd = s.sd := by unfold State.hostEvent; simp only; split <;> simp

@[simp] theorem State.hostWrite_pending (s : State) (bus : Nat) (bs : List Byte) (p : Bool) : (s.hostWrite bus bs p).pending = s.pending := by unfold State.hostWrite; split <;> rfl
@[simp] theorem State.hostWrite_free (s : State) (bus : Nat) (bs : List Byte) (p : Bool) : (s.hostWrite bus bs p).free = s.free := by unfold State.hostWrite; split <;> rfl
@[simp] theorem State.hostWrite_pw (s : State) (bus : Nat) (bs : List Byte) (p : Bool) : (s.hostWrite bus bs p).pw = s.pw := by unfold State.hostWrite; split <;> rfl
@[simp] theorem State.hostWrite_mem (s : State) (bus : Nat) (bs : List Byte) (p : Bool) : (s.hostWrite bus bs p).mem = s.mem := by unfold State.hostWrite; split <;> rfl
@[simp] theorem State.hostWrite_memEpoch (s : State) (bus : Nat) (bs : List Byte) (p : Bool) : (s.hostWrite bus bs p).memEpoch = s.memEpoch := by unfold State.hostWrite; split <;> rfl
@[simp] theorem State.hostWrite_yardBad (s : State) (bus : Nat) (bs : List Byte) (p : Bool) : (s.hostWrite bus bs p).yardBad = s.yardBad := by unfold State.hostWrite; split <;> rfl
@[simp] theorem State.hostWrite_poison (s : State) (bus : Nat) (bs : List Byte) (p : Bool) : (s.hostWrite bus bs p).poison = s.poison := by unfold State.hostWrite; split <;> rfl
@[simp] theorem State.hostWrite_tb (s : State) (bus : Nat) (bs : List Byte) (p : Bool) : (s.hostWrite bus bs p).tb = s.tb := by unfold State.hostWrite; split <;> rfl
@[simp] theorem State.hostWrite_ra (s : State) (bus : Nat) (bs : List Byte) (p : Bool) : (s.hostWrite bus bs p).ra = s.ra := by unfold State.hostWrite; split <;> rfl
@[simp] theorem State.hostWrite_cc (s : State) (bus : Nat) (bs : List Byte) (p : Bool) : (s.hostWrite bus bs p).cc = s.cc := by unfold State.hostWrite; split <;> rfl
@[simp] theorem State.hostWrite_pkg (s : State) (bus : Nat) (bs : List Byte) (p : Bool) : (s.hostWrite bus bs p).pkg = s.pkg := by unfold State.hostWrite; split <;> rfl
@[simp] theorem State.hostWrite_aliasEn (s : State) (bus : Nat) (bs : List Byte) (p : Bool) : (s.hostWrite bus bs p).aliasEn = s.aliasEn := by unfold State.hostWrite; split <;> rfl
@[simp] theorem State.hostWrite_regions (s : State) (bus : Nat) (bs : List Byte) (p : Bool) : (s.hostWrite bus bs p).regions = s.regions := by unfold State.hostWrite; split <;> rfl
@[simp] theorem State.hostWrite_cores (s : State) (bus : Nat) (bs : List Byte) (p : Bool) : (s.hostWrite bus bs p).cores = s.cores := by unfold State.hostWrite; split <;> rfl
@[simp] theorem State.hostWrite_co (s : State) (bus : Nat) (bs : List Byte) (p : Bool) : (s.hostWrite bus bs p).co = s.co := by unfold State.hostWrite; split <;> rfl
@[simp] theorem State.hostWrite_sems (s : State) (bus : Nat) (bs : List Byte) (p : Bool) : (s.hostWrite bus bs p).sems = s.sems := by unfold State.hostWrite; split <;> rfl
@[simp] theorem State.hostWrite_semDies (s : State) (bus : Nat) (bs : List Byte) (p : Bool) : (s.hostWrite bus bs p).semDies = s.semDies := by unfold State.hostWrite; split <;> rfl
@[simp] theorem State.hostWrite_dx (s : State) (bus : Nat) (bs : List Byte) (p : Bool) : (s.hostWrite bus bs p).dx = s.dx := by unfold State.hostWrite; split <;> rfl
@[simp] theorem State.hostWrite_sb (s : State) (bus : Nat) (bs : List Byte) (p : Bool) : (s.hostWrite bus bs p).sb = s.sb := by unfold State.hostWrite; split <;> rfl
@[simp] theorem State.hostWrite_tf (s : State) (bus : Nat) (bs : List Byte) (p : Bool) : (s.hostWrite bus bs p).tf = s.tf := by unfold State.hostWrite; split <;> rfl
@[simp] theorem State.hostWrite_hi (s : State) (bus : Nat) (bs : List Byte) (p : Bool) : (s.hostWrite bus bs p).hi = s.hi := by unfold State.hostWrite; split <;> rfl
@[simp] theorem State.hostWrite_queues (s : State) (bus : Nat) (bs : List Byte) (p : Bool) : (s.hostWrite bus bs p).queues = s.queues := by unfold State.hostWrite; split <;> rfl
@[simp] theorem State.hostWrite_ml (s : State) (bus : Nat) (bs : List Byte) (p : Bool) : (s.hostWrite bus bs p).ml = s.ml := by unfold State.hostWrite; split <;> rfl
@[simp] theorem State.hostWrite_ec (s : State) (bus : Nat) (bs : List Byte) (p : Bool) : (s.hostWrite bus bs p).ec = s.ec := by unfold State.hostWrite; split <;> rfl
@[simp] theorem State.hostWrite_sd (s : State) (bus : Nat) (bs : List Byte) (p : Bool) : (s.hostWrite bus bs p).sd = s.sd := by unfold State.hostWrite; split <;> rfl

@[simp] theorem State.alertLine_pending (s : State) : (s.alertLine).pending = s.pending := rfl
@[simp] theorem State.alertLine_out (s : State) : (s.alertLine).out = s.out := rfl
@[simp] theorem State.alertLine_free (s : State) : (s.alertLine).free = s.free := rfl
@[simp] theorem State.alertLine_pw (s : State) : (s.alertLine).pw = s.pw := rfl
@[simp] theorem State.alertLine_mem (s : State) : (s.alertLine).mem = s.mem := rfl
@[simp] theorem State.alertLine_memEpoch (s : State) : (s.alertLine).memEpoch = s.memEpoch := rfl
@[simp] theorem State.alertLine_yardBad (s : State) : (s.alertLine).yardBad = s.yardBad := rfl
@[simp] theorem State.alertLine_poison (s : State) : (s.alertLine).poison = s.poison := rfl
@[simp] theorem State.alertLine_tb (s : State) : (s.alertLine).tb = s.tb := rfl
@[simp] theorem State.alertLine_ra (s : State) : (s.alertLine).ra = s.ra := rfl
@[simp] theorem State.alertLine_cc (s : State) : (s.alertLine).cc = s.cc := rfl
@[simp] theorem State.alertLine_pkg (s : State) : (s.alertLine).pkg = s.pkg := rfl
@[simp] theorem State.alertLine_aliasEn (s : State) : (s.alertLine).aliasEn = s.aliasEn := rfl
@[simp] theorem State.alertLine_regions (s : State) : (s.alertLine).regions = s.regions := rfl
@[simp] theorem State.alertLine_cores (s : State) : (s.alertLine).cores = s.cores := rfl
@[simp] theorem State.alertLine_co (s : State) : (s.alertLine).co = s.co := rfl
@[simp] theorem State.alertLine_sems (s : State) : (s.alertLine).sems = s.sems := rfl
@[simp] theorem State.alertLine_semDies (s : State) : (s.alertLine).semDies = s.semDies := rfl
@[simp] theorem State.alertLine_dx (s : State) : (s.alertLine).dx = s.dx := rfl
@[simp] theorem State.alertLine_sb (s : State) : (s.alertLine).sb = s.sb := rfl
@[simp] theorem State.alertLine_tf (s : State) : (s.alertLine).tf = s.tf := rfl
@[simp] theorem State.alertLine_hi (s : State) : (s.alertLine).hi = s.hi := rfl
@[simp] theorem State.alertLine_queues (s : State) : (s.alertLine).queues = s.queues := rfl
@[simp] theorem State.alertLine_ml (s : State) : (s.alertLine).ml = s.ml := rfl
@[simp] theorem State.alertLine_ec (s : State) : (s.alertLine).ec = s.ec := rfl

@[simp] theorem State.alert_pending (s : State) (i : Nat) : (s.alert i).pending = s.pending := rfl
@[simp] theorem State.alert_out (s : State) (i : Nat) : (s.alert i).out = s.out := rfl
@[simp] theorem State.alert_free (s : State) (i : Nat) : (s.alert i).free = s.free := rfl
@[simp] theorem State.alert_pw (s : State) (i : Nat) : (s.alert i).pw = s.pw := rfl
@[simp] theorem State.alert_mem (s : State) (i : Nat) : (s.alert i).mem = s.mem := rfl
@[simp] theorem State.alert_memEpoch (s : State) (i : Nat) : (s.alert i).memEpoch = s.memEpoch := rfl
@[simp] theorem State.alert_yardBad (s : State) (i : Nat) : (s.alert i).yardBad = s.yardBad := rfl
@[simp] theorem State.alert_poison (s : State) (i : Nat) : (s.alert i).poison = s.poison := rfl
@[simp] theorem State.alert_tb (s : State) (i : Nat) : (s.alert i).tb = s.tb := rfl
@[simp] theorem State.alert_ra (s : State) (i : Nat) : (s.alert i).ra = s.ra := rfl
@[simp] theorem State.alert_cc (s : State) (i : Nat) : (s.alert i).cc = s.cc := rfl
@[simp] theorem State.alert_pkg (s : State) (i : Nat) : (s.alert i).pkg = s.pkg := rfl
@[simp] theorem State.alert_aliasEn (s : State) (i : Nat) : (s.alert i).aliasEn = s.aliasEn := rfl
@[simp] theorem State.alert_regions (s : State) (i : Nat) : (s.alert i).regions = s.regions := rfl
@[simp] theorem State.alert_cores (s : State) (i : Nat) : (s.alert i).cores = s.cores := rfl
@[simp] theorem State.alert_co (s : State) (i : Nat) : (s.alert i).co = s.co := rfl
@[simp] theorem State.alert_sems (s : State) (i : Nat) : (s.alert i).sems = s.sems := rfl
@[simp] theorem State.alert_semDies (s : State) (i : Nat) : (s.alert i).semDies = s.semDies := rfl
@[simp] theorem State.alert_dx (s : State) (i : Nat) : (s.alert i).dx = s.dx := rfl
@[simp] theorem State.alert_sb (s : State) (i : Nat) : (s.alert i).sb = s.sb := rfl
@[simp] theorem State.alert_tf (s : State) (i : Nat) : (s.alert i).tf = s.tf := rfl
@[simp] theorem State.alert_hi (s : State) (i : Nat) : (s.alert i).hi = s.hi := rfl
@[simp] theorem State.alert_queues (s : State) (i : Nat) : (s.alert i).queues = s.queues := rfl
@[simp] theorem State.alert_ml (s : State) (i : Nat) : (s.alert i).ml = s.ml := rfl
@[simp] theorem State.alert_ec (s : State) (i : Nat) : (s.alert i).ec = s.ec := rfl

@[simp] theorem State.notifyLog_pending (s : State) (sev : Nat) : (s.notifyLog sev).pending = s.pending := by unfold State.notifyLog; (repeat' split) <;> simp
@[simp] theorem State.notifyLog_free (s : State) (sev : Nat) : (s.notifyLog sev).free = s.free := by unfold State.notifyLog; (repeat' split) <;> simp
@[simp] theorem State.notifyLog_pw (s : State) (sev : Nat) : (s.notifyLog sev).pw = s.pw := by unfold State.notifyLog; (repeat' split) <;> simp
@[simp] theorem State.notifyLog_mem (s : State) (sev : Nat) : (s.notifyLog sev).mem = s.mem := by unfold State.notifyLog; (repeat' split) <;> simp
@[simp] theorem State.notifyLog_memEpoch (s : State) (sev : Nat) : (s.notifyLog sev).memEpoch = s.memEpoch := by unfold State.notifyLog; (repeat' split) <;> simp
@[simp] theorem State.notifyLog_yardBad (s : State) (sev : Nat) : (s.notifyLog sev).yardBad = s.yardBad := by unfold State.notifyLog; (repeat' split) <;> simp
@[simp] theorem State.notifyLog_poison (s : State) (sev : Nat) : (s.notifyLog sev).poison = s.poison := by unfold State.notifyLog; (repeat' split) <;> simp
@[simp] theorem State.notifyLog_tb (s : State) (sev : Nat) : (s.notifyLog sev).tb = s.tb := by unfold State.notifyLog; (repeat' split) <;> simp
@[simp] theorem State.notifyLog_ra (s : State) (sev : Nat) : (s.notifyLog sev).ra = s.ra := by unfold State.notifyLog; (repeat' split) <;> simp
@[simp] theorem State.notifyLog_cc (s : State) (sev : Nat) : (s.notifyLog sev).cc = s.cc := by unfold State.notifyLog; (repeat' split) <;> simp
@[simp] theorem State.notifyLog_pkg (s : State) (sev : Nat) : (s.notifyLog sev).pkg = s.pkg := by unfold State.notifyLog; (repeat' split) <;> simp
@[simp] theorem State.notifyLog_aliasEn (s : State) (sev : Nat) : (s.notifyLog sev).aliasEn = s.aliasEn := by unfold State.notifyLog; (repeat' split) <;> simp
@[simp] theorem State.notifyLog_regions (s : State) (sev : Nat) : (s.notifyLog sev).regions = s.regions := by unfold State.notifyLog; (repeat' split) <;> simp
@[simp] theorem State.notifyLog_cores (s : State) (sev : Nat) : (s.notifyLog sev).cores = s.cores := by unfold State.notifyLog; (repeat' split) <;> simp
@[simp] theorem State.notifyLog_co (s : State) (sev : Nat) : (s.notifyLog sev).co = s.co := by unfold State.notifyLog; (repeat' split) <;> simp
@[simp] theorem State.notifyLog_sems (s : State) (sev : Nat) : (s.notifyLog sev).sems = s.sems := by unfold State.notifyLog; (repeat' split) <;> simp
@[simp] theorem State.notifyLog_semDies (s : State) (sev : Nat) : (s.notifyLog sev).semDies = s.semDies := by unfold State.notifyLog; (repeat' split) <;> simp
@[simp] theorem State.notifyLog_dx (s : State) (sev : Nat) : (s.notifyLog sev).dx = s.dx := by unfold State.notifyLog; (repeat' split) <;> simp
@[simp] theorem State.notifyLog_sb (s : State) (sev : Nat) : (s.notifyLog sev).sb = s.sb := by unfold State.notifyLog; (repeat' split) <;> simp
@[simp] theorem State.notifyLog_tf (s : State) (sev : Nat) : (s.notifyLog sev).tf = s.tf := by unfold State.notifyLog; (repeat' split) <;> simp
@[simp] theorem State.notifyLog_queues (s : State) (sev : Nat) : (s.notifyLog sev).queues = s.queues := by unfold State.notifyLog; (repeat' split) <;> simp
@[simp] theorem State.notifyLog_ml (s : State) (sev : Nat) : (s.notifyLog sev).ml = s.ml := by unfold State.notifyLog; (repeat' split) <;> simp
@[simp] theorem State.notifyLog_sd (s : State) (sev : Nat) : (s.notifyLog sev).sd = s.sd := by unfold State.notifyLog; (repeat' split) <;> simp
@[simp] theorem State.notifyLog_ec_tail (s : State) (sev : Nat) : (s.notifyLog sev).ec.tail = s.ec.tail := by unfold State.notifyLog; (repeat' split) <;> simp
@[simp] theorem State.notifyLog_ec_head (s : State) (sev : Nat) : (s.notifyLog sev).ec.head = s.ec.head := by unfold State.notifyLog; (repeat' split) <;> simp
@[simp] theorem State.notifyLog_ec_ring (s : State) (sev : Nat) : (s.notifyLog sev).ec.ring = s.ec.ring := by unfold State.notifyLog; (repeat' split) <;> simp
@[simp] theorem State.notifyLog_ec_dropped (s : State) (sev : Nat) : (s.notifyLog sev).ec.dropped = s.ec.dropped := by unfold State.notifyLog; (repeat' split) <;> simp
@[simp] theorem State.notifyLog_ec_patrol (s : State) (sev : Nat) : (s.notifyLog sev).ec.patrol = s.ec.patrol := by unfold State.notifyLog; (repeat' split) <;> simp
@[simp] theorem State.notifyLog_ec_corrected (s : State) (sev : Nat) : (s.notifyLog sev).ec.corrected = s.ec.corrected := by unfold State.notifyLog; (repeat' split) <;> simp

@[simp] theorem State.writeLog_pending (s : State) (e : LogEntry) : (s.writeLog e).pending = s.pending := by unfold State.writeLog; simp only; split <;> simp
@[simp] theorem State.writeLog_free (s : State) (e : LogEntry) : (s.writeLog e).free = s.free := by unfold State.writeLog; simp only; split <;> simp
@[simp] theorem State.writeLog_pw (s : State) (e : LogEntry) : (s.writeLog e).pw = s.pw := by unfold State.writeLog; simp only; split <;> simp
@[simp] theorem State.writeLog_mem (s : State) (e : LogEntry) : (s.writeLog e).mem = s.mem := by unfold State.writeLog; simp only; split <;> simp
@[simp] theorem State.writeLog_memEpoch (s : State) (e : LogEntry) : (s.writeLog e).memEpoch = s.memEpoch := by unfold State.writeLog; simp only; split <;> simp
@[simp] theorem State.writeLog_yardBad (s : State) (e : LogEntry) : (s.writeLog e).yardBad = s.yardBad := by unfold State.writeLog; simp only; split <;> simp
@[simp] theorem State.writeLog_poison (s : State) (e : LogEntry) : (s.writeLog e).poison = s.poison := by unfold State.writeLog; simp only; split <;> simp
@[simp] theorem State.writeLog_tb (s : State) (e : LogEntry) : (s.writeLog e).tb = s.tb := by unfold State.writeLog; simp only; split <;> simp
@[simp] theorem State.writeLog_ra (s : State) (e : LogEntry) : (s.writeLog e).ra = s.ra := by unfold State.writeLog; simp only; split <;> simp
@[simp] theorem State.writeLog_cc (s : State) (e : LogEntry) : (s.writeLog e).cc = s.cc := by unfold State.writeLog; simp only; split <;> simp
@[simp] theorem State.writeLog_pkg (s : State) (e : LogEntry) : (s.writeLog e).pkg = s.pkg := by unfold State.writeLog; simp only; split <;> simp
@[simp] theorem State.writeLog_aliasEn (s : State) (e : LogEntry) : (s.writeLog e).aliasEn = s.aliasEn := by unfold State.writeLog; simp only; split <;> simp
@[simp] theorem State.writeLog_regions (s : State) (e : LogEntry) : (s.writeLog e).regions = s.regions := by unfold State.writeLog; simp only; split <;> simp
@[simp] theorem State.writeLog_cores (s : State) (e : LogEntry) : (s.writeLog e).cores = s.cores := by unfold State.writeLog; simp only; split <;> simp
@[simp] theorem State.writeLog_co (s : State) (e : LogEntry) : (s.writeLog e).co = s.co := by unfold State.writeLog; simp only; split <;> simp
@[simp] theorem State.writeLog_sems (s : State) (e : LogEntry) : (s.writeLog e).sems = s.sems := by unfold State.writeLog; simp only; split <;> simp
@[simp] theorem State.writeLog_semDies (s : State) (e : LogEntry) : (s.writeLog e).semDies = s.semDies := by unfold State.writeLog; simp only; split <;> simp
@[simp] theorem State.writeLog_dx (s : State) (e : LogEntry) : (s.writeLog e).dx = s.dx := by unfold State.writeLog; simp only; split <;> simp
@[simp] theorem State.writeLog_sb (s : State) (e : LogEntry) : (s.writeLog e).sb = s.sb := by unfold State.writeLog; simp only; split <;> simp
@[simp] theorem State.writeLog_tf (s : State) (e : LogEntry) : (s.writeLog e).tf = s.tf := by unfold State.writeLog; simp only; split <;> simp
@[simp] theorem State.writeLog_queues (s : State) (e : LogEntry) : (s.writeLog e).queues = s.queues := by unfold State.writeLog; simp only; split <;> simp
@[simp] theorem State.writeLog_ml (s : State) (e : LogEntry) : (s.writeLog e).ml = s.ml := by unfold State.writeLog; simp only; split <;> simp
@[simp] theorem State.writeLog_sd (s : State) (e : LogEntry) : (s.writeLog e).sd = s.sd := by unfold State.writeLog; simp only; split <;> simp

@[simp] theorem State.log_pending (s : State) (kind die : Nat) (region : Option Nat) (src : Source) (addr detail : Nat) : (s.log kind die region src addr detail).pending = s.pending := by simp [State.log]
@[simp] theorem State.log_free (s : State) (kind die : Nat) (region : Option Nat) (src : Source) (addr detail : Nat) : (s.log kind die region src addr detail).free = s.free := by simp [State.log]
@[simp] theorem State.log_pw (s : State) (kind die : Nat) (region : Option Nat) (src : Source) (addr detail : Nat) : (s.log kind die region src addr detail).pw = s.pw := by simp [State.log]
@[simp] theorem State.log_mem (s : State) (kind die : Nat) (region : Option Nat) (src : Source) (addr detail : Nat) : (s.log kind die region src addr detail).mem = s.mem := by simp [State.log]
@[simp] theorem State.log_memEpoch (s : State) (kind die : Nat) (region : Option Nat) (src : Source) (addr detail : Nat) : (s.log kind die region src addr detail).memEpoch = s.memEpoch := by simp [State.log]
@[simp] theorem State.log_yardBad (s : State) (kind die : Nat) (region : Option Nat) (src : Source) (addr detail : Nat) : (s.log kind die region src addr detail).yardBad = s.yardBad := by simp [State.log]
@[simp] theorem State.log_poison (s : State) (kind die : Nat) (region : Option Nat) (src : Source) (addr detail : Nat) : (s.log kind die region src addr detail).poison = s.poison := by simp [State.log]
@[simp] theorem State.log_tb (s : State) (kind die : Nat) (region : Option Nat) (src : Source) (addr detail : Nat) : (s.log kind die region src addr detail).tb = s.tb := by simp [State.log]
@[simp] theorem State.log_ra (s : State) (kind die : Nat) (region : Option Nat) (src : Source) (addr detail : Nat) : (s.log kind die region src addr detail).ra = s.ra := by simp [State.log]
@[simp] theorem State.log_cc (s : State) (kind die : Nat) (region : Option Nat) (src : Source) (addr detail : Nat) : (s.log kind die region src addr detail).cc = s.cc := by simp [State.log]
@[simp] theorem State.log_pkg (s : State) (kind die : Nat) (region : Option Nat) (src : Source) (addr detail : Nat) : (s.log kind die region src addr detail).pkg = s.pkg := by simp [State.log]
@[simp] theorem State.log_aliasEn (s : State) (kind die : Nat) (region : Option Nat) (src : Source) (addr detail : Nat) : (s.log kind die region src addr detail).aliasEn = s.aliasEn := by simp [State.log]
@[simp] theorem State.log_regions (s : State) (kind die : Nat) (region : Option Nat) (src : Source) (addr detail : Nat) : (s.log kind die region src addr detail).regions = s.regions := by simp [State.log]
@[simp] theorem State.log_cores (s : State) (kind die : Nat) (region : Option Nat) (src : Source) (addr detail : Nat) : (s.log kind die region src addr detail).cores = s.cores := by simp [State.log]
@[simp] theorem State.log_co (s : State) (kind die : Nat) (region : Option Nat) (src : Source) (addr detail : Nat) : (s.log kind die region src addr detail).co = s.co := by simp [State.log]
@[simp] theorem State.log_sems (s : State) (kind die : Nat) (region : Option Nat) (src : Source) (addr detail : Nat) : (s.log kind die region src addr detail).sems = s.sems := by simp [State.log]
@[simp] theorem State.log_semDies (s : State) (kind die : Nat) (region : Option Nat) (src : Source) (addr detail : Nat) : (s.log kind die region src addr detail).semDies = s.semDies := by simp [State.log]
@[simp] theorem State.log_dx (s : State) (kind die : Nat) (region : Option Nat) (src : Source) (addr detail : Nat) : (s.log kind die region src addr detail).dx = s.dx := by simp [State.log]
@[simp] theorem State.log_sb (s : State) (kind die : Nat) (region : Option Nat) (src : Source) (addr detail : Nat) : (s.log kind die region src addr detail).sb = s.sb := by simp [State.log]
@[simp] theorem State.log_tf (s : State) (kind die : Nat) (region : Option Nat) (src : Source) (addr detail : Nat) : (s.log kind die region src addr detail).tf = s.tf := by simp [State.log]
@[simp] theorem State.log_queues (s : State) (kind die : Nat) (region : Option Nat) (src : Source) (addr detail : Nat) : (s.log kind die region src addr detail).queues = s.queues := by simp [State.log]
@[simp] theorem State.log_ml (s : State) (kind die : Nat) (region : Option Nat) (src : Source) (addr detail : Nat) : (s.log kind die region src addr detail).ml = s.ml := by simp [State.log]
@[simp] theorem State.log_sd (s : State) (kind die : Nat) (region : Option Nat) (src : Source) (addr detail : Nat) : (s.log kind die region src addr detail).sd = s.sd := by simp [State.log]

@[simp] theorem State.corrected_pending (s : State) (i : Nat) : (s.corrected i).pending = s.pending := rfl
@[simp] theorem State.corrected_out (s : State) (i : Nat) : (s.corrected i).out = s.out := rfl
@[simp] theorem State.corrected_free (s : State) (i : Nat) : (s.corrected i).free = s.free := rfl
@[simp] theorem State.corrected_pw (s : State) (i : Nat) : (s.corrected i).pw = s.pw := rfl
@[simp] theorem State.corrected_mem (s : State) (i : Nat) : (s.corrected i).mem = s.mem := rfl
@[simp] theorem State.corrected_memEpoch (s : State) (i : Nat) : (s.corrected i).memEpoch = s.memEpoch := rfl
@[simp] theorem State.corrected_yardBad (s : State) (i : Nat) : (s.corrected i).yardBad = s.yardBad := rfl
@[simp] theorem State.corrected_poison (s : State) (i : Nat) : (s.corrected i).poison = s.poison := rfl
@[simp] theorem State.corrected_tb (s : State) (i : Nat) : (s.corrected i).tb = s.tb := rfl
@[simp] theorem State.corrected_ra (s : State) (i : Nat) : (s.corrected i).ra = s.ra := rfl
@[simp] theorem State.corrected_cc (s : State) (i : Nat) : (s.corrected i).cc = s.cc := rfl
@[simp] theorem State.corrected_pkg (s : State) (i : Nat) : (s.corrected i).pkg = s.pkg := rfl
@[simp] theorem State.corrected_aliasEn (s : State) (i : Nat) : (s.corrected i).aliasEn = s.aliasEn := rfl
@[simp] theorem State.corrected_regions (s : State) (i : Nat) : (s.corrected i).regions = s.regions := rfl
@[simp] theorem State.corrected_cores (s : State) (i : Nat) : (s.corrected i).cores = s.cores := rfl
@[simp] theorem State.corrected_co (s : State) (i : Nat) : (s.corrected i).co = s.co := rfl
@[simp] theorem State.corrected_sems (s : State) (i : Nat) : (s.corrected i).sems = s.sems := rfl
@[simp] theorem State.corrected_semDies (s : State) (i : Nat) : (s.corrected i).semDies = s.semDies := rfl
@[simp] theorem State.corrected_dx (s : State) (i : Nat) : (s.corrected i).dx = s.dx := rfl
@[simp] theorem State.corrected_sb (s : State) (i : Nat) : (s.corrected i).sb = s.sb := rfl
@[simp] theorem State.corrected_tf (s : State) (i : Nat) : (s.corrected i).tf = s.tf := rfl
@[simp] theorem State.corrected_hi (s : State) (i : Nat) : (s.corrected i).hi = s.hi := rfl
@[simp] theorem State.corrected_queues (s : State) (i : Nat) : (s.corrected i).queues = s.queues := rfl
@[simp] theorem State.corrected_ml (s : State) (i : Nat) : (s.corrected i).ml = s.ml := rfl
@[simp] theorem State.corrected_sd (s : State) (i : Nat) : (s.corrected i).sd = s.sd := rfl

@[simp] theorem State.hostFailure_pending (s : State) (read : Bool) (kind addr bar : Nat) : (s.hostFailure read kind addr bar).pending = s.pending := by unfold State.hostFailure; simp only; (repeat' split) <;> simp
@[simp] theorem State.hostFailure_free (s : State) (read : Bool) (kind addr bar : Nat) : (s.hostFailure read kind addr bar).free = s.free := by unfold State.hostFailure; simp only; (repeat' split) <;> simp
@[simp] theorem State.hostFailure_pw (s : State) (read : Bool) (kind addr bar : Nat) : (s.hostFailure read kind addr bar).pw = s.pw := by unfold State.hostFailure; simp only; (repeat' split) <;> simp
@[simp] theorem State.hostFailure_mem (s : State) (read : Bool) (kind addr bar : Nat) : (s.hostFailure read kind addr bar).mem = s.mem := by unfold State.hostFailure; simp only; (repeat' split) <;> simp
@[simp] theorem State.hostFailure_memEpoch (s : State) (read : Bool) (kind addr bar : Nat) : (s.hostFailure read kind addr bar).memEpoch = s.memEpoch := by unfold State.hostFailure; simp only; (repeat' split) <;> simp
@[simp] theorem State.hostFailure_yardBad (s : State) (read : Bool) (kind addr bar : Nat) : (s.hostFailure read kind addr bar).yardBad = s.yardBad := by unfold State.hostFailure; simp only; (repeat' split) <;> simp
@[simp] theorem State.hostFailure_poison (s : State) (read : Bool) (kind addr bar : Nat) : (s.hostFailure read kind addr bar).poison = s.poison := by unfold State.hostFailure; simp only; (repeat' split) <;> simp
@[simp] theorem State.hostFailure_tb (s : State) (read : Bool) (kind addr bar : Nat) : (s.hostFailure read kind addr bar).tb = s.tb := by unfold State.hostFailure; simp only; (repeat' split) <;> simp
@[simp] theorem State.hostFailure_ra (s : State) (read : Bool) (kind addr bar : Nat) : (s.hostFailure read kind addr bar).ra = s.ra := by unfold State.hostFailure; simp only; (repeat' split) <;> simp
@[simp] theorem State.hostFailure_cc (s : State) (read : Bool) (kind addr bar : Nat) : (s.hostFailure read kind addr bar).cc = s.cc := by unfold State.hostFailure; simp only; (repeat' split) <;> simp
@[simp] theorem State.hostFailure_pkg (s : State) (read : Bool) (kind addr bar : Nat) : (s.hostFailure read kind addr bar).pkg = s.pkg := by unfold State.hostFailure; simp only; (repeat' split) <;> simp
@[simp] theorem State.hostFailure_aliasEn (s : State) (read : Bool) (kind addr bar : Nat) : (s.hostFailure read kind addr bar).aliasEn = s.aliasEn := by unfold State.hostFailure; simp only; (repeat' split) <;> simp
@[simp] theorem State.hostFailure_regions (s : State) (read : Bool) (kind addr bar : Nat) : (s.hostFailure read kind addr bar).regions = s.regions := by unfold State.hostFailure; simp only; (repeat' split) <;> simp
@[simp] theorem State.hostFailure_cores (s : State) (read : Bool) (kind addr bar : Nat) : (s.hostFailure read kind addr bar).cores = s.cores := by unfold State.hostFailure; simp only; (repeat' split) <;> simp
@[simp] theorem State.hostFailure_co (s : State) (read : Bool) (kind addr bar : Nat) : (s.hostFailure read kind addr bar).co = s.co := by unfold State.hostFailure; simp only; (repeat' split) <;> simp
@[simp] theorem State.hostFailure_sems (s : State) (read : Bool) (kind addr bar : Nat) : (s.hostFailure read kind addr bar).sems = s.sems := by unfold State.hostFailure; simp only; (repeat' split) <;> simp
@[simp] theorem State.hostFailure_semDies (s : State) (read : Bool) (kind addr bar : Nat) : (s.hostFailure read kind addr bar).semDies = s.semDies := by unfold State.hostFailure; simp only; (repeat' split) <;> simp
@[simp] theorem State.hostFailure_dx (s : State) (read : Bool) (kind addr bar : Nat) : (s.hostFailure read kind addr bar).dx = s.dx := by unfold State.hostFailure; simp only; (repeat' split) <;> simp
@[simp] theorem State.hostFailure_sb (s : State) (read : Bool) (kind addr bar : Nat) : (s.hostFailure read kind addr bar).sb = s.sb := by unfold State.hostFailure; simp only; (repeat' split) <;> simp
@[simp] theorem State.hostFailure_tf (s : State) (read : Bool) (kind addr bar : Nat) : (s.hostFailure read kind addr bar).tf = s.tf := by unfold State.hostFailure; simp only; (repeat' split) <;> simp
@[simp] theorem State.hostFailure_queues (s : State) (read : Bool) (kind addr bar : Nat) : (s.hostFailure read kind addr bar).queues = s.queues := by unfold State.hostFailure; simp only; (repeat' split) <;> simp
@[simp] theorem State.hostFailure_ml (s : State) (read : Bool) (kind addr bar : Nat) : (s.hostFailure read kind addr bar).ml = s.ml := by unfold State.hostFailure; simp only; (repeat' split) <;> simp
@[simp] theorem State.hostFailure_sd (s : State) (read : Bool) (kind addr bar : Nat) : (s.hostFailure read kind addr bar).sd = s.sd := by unfold State.hostFailure; simp only; (repeat' split) <;> simp

/-- A log entry in a ring with room stands at TAIL, which advances by 1 (18 R536). -/
theorem State.log_entry (s : State) (kind die : Nat) (region : Option Nat) (src : Source) (addr detail : Nat)
    (h : s.ec.tail - s.ec.head ≠ 1024) :
    (s.log kind die region src addr detail).ec.tail = s.ec.tail + 1 ∧
    nfind (s.log kind die region src addr detail).ec.ring (s.ec.tail.toNat % 1024) = some
      { time := s.tb.now, kind := BitVec.ofNat 8 kind, severity := BitVec.ofNat 2 (severityOf kind)
        die := BitVec.ofNat 5 die, region := region.map (BitVec.ofNat 6), source := src
        addr := BitVec.ofNat 56 addr, detail := BitVec.ofNat 64 detail } := by
  unfold State.log State.writeLog
  simp only [State.notifyLog_ec_tail, State.notifyLog_ec_head, if_neg h, State.notifyLog_ec_ring]
  exact ⟨trivial, nfind_nset_same _ _ _⟩

/-- A log entry that meets a full ring is dropped and counted (18 R536). -/
theorem State.log_full (s : State) (kind die : Nat) (region : Option Nat) (src : Source) (addr detail : Nat)
    (h : s.ec.tail - s.ec.head = 1024) :
    (s.log kind die region src addr detail).ec.tail = s.ec.tail ∧
    (s.log kind die region src addr detail).ec.ring = s.ec.ring ∧
    (s.log kind die region src addr detail).ec.dropped = satInc s.ec.dropped := by
  unfold State.log State.writeLog
  simp only [State.notifyLog_ec_tail, State.notifyLog_ec_head, if_pos h, State.notifyLog_ec_ring,
    State.notifyLog_ec_dropped]
  exact ⟨trivial, trivial, trivial⟩

end Sys2Proof.Machine
end

