-- ==== Sys2Proof/Laws/PerInstr.lean ====
section
/-!
SUPPORT. The cores that a command names: a well-formed command names cores of the package
(01 R27), one lemma for each command.
-/
namespace Sys2Proof.Laws.Named

/-- The core of a semaphore, Depot or carried-signal request. -/
def semCore : SemReq → List Nat
  | .core c => [c]
  | .direct .. => []

def dxCore : DxReq → List Nat
  | .core c => [c]
  | .slot _ => []

def carryCore : CarryReq → List Nat
  | .core c => [c]
  | .queue _ => []
  | .packet => []

def patrolCore : PatrolTarget → List Nat
  | .frame c _ => [c]
  | .route .. => []

/-- The cores that a command names. -/
def coresOf (i : Instr) : List Nat :=
  match i with
  | .perstNRise .. => []
  | .perstNAssert => []
  | .railInRange .. => []
  | .railOutOfRange .. => []
  | .timebaseTick .. => []
  | .refLost => []
  | .refclkLock => []
  | .refLostClear => []
  | .hbmReady => []
  | .hbmTrainTimeout .. => []
  | .bootStoreScan => []
  | .winProducedWrite .. => []
  | .go => []
  | .abort => []
  | .sync => []
  | .nop => []
  | .declare => []
  | .admission => []
  | .writeCfg => []
  | .setFar => []
  | .writeFrames => []
  | .bcastFrames => []
  | .frameApply => []
  | .bcastFrameApply => []
  | .park => []
  | .regionParked _ prog => prog.map Prod.fst
  | .isolate => []
  | .checkEnd => []
  | .waitRightAway => []
  | .raRelease => []
  | .rightAwayRise => []
  | .rightAwayFall => []
  | .raQualified => []
  | .rightAwayTimeout => []
  | .raLowEvent => []
  | .start => []
  | .unisolate => []
  | .loadEnd => []
  | .rgnCtrlPark .. => []
  | .run .. => []
  | .reset .. => []
  | .clearRed .. => []
  | .rgnHoldClear .. => []
  | .registerWrite .. => []
  | .bundleExecute c _ _ _ => [c]
  | .scalarOpComplete c _ => [c]
  | .memoryResponse c _ _ _ => [c]
  | .storeAccepted c _ _ => [c]
  | .fenceComplete c => [c]
  | .guestAck c => [c]
  | .guestTimeout c => [c]
  | .guestLogicInterrupt c => [c]
  | .cpTimerCmpWrite c _ => [c]
  | .coreTimer c => [c]
  | .interruptEntry c _ => [c]
  | .exceptionEntry c => [c]
  | .convertComplete c => [c]
  | .vectorOpComplete c => [c]
  | .intervalStep c _ => [c]
  | .trainHeader c => [c]
  | .matrixOpComplete c _ => [c]
  | .tmoveComplete c => [c]
  | .remoteYardAccess c _ _ => [c]
  | .sliceAccess c _ _ => [c]
  | .sidingIssue .. => []
  | .sidingRetire .. => []
  | .awRangeWrite .. => []
  | .awAttrWrite .. => []
  | .homeRequest .. => []
  | .forwardedRequest .. => []
  | .probe .. => []
  | .probeResponse .. => []
  | .lineGrant .. => []
  | .tabletHoldEnd .. => []
  | .writebackArrival .. => []
  | .farAtomic .. => []
  | .coPredClear .. => []
  | .signal q => semCore q
  | .wait q => semCore q
  | .trywait q => semCore q
  | .claim q => semCore q
  | .release q => semCore q
  | .read q => semCore q
  | .revive q => semCore q
  | .init q => semCore q
  | .waitDeadline .. => []
  | .carriedSignal q => carryCore q
  | .semaphoreResult c _ => [c]
  | .lookup q => dxCore q
  | .lookupBlock q => dxCore q
  | .insert q => dxCore q
  | .pin q => dxCore q
  | .depotRelease q => dxCore q
  | .ageScan q => dxCore q
  | .depotAsyncComplete c => [c]
  | .depotSlotTrigger .. => []
  | .epoch => []
  | .brakeReevaluate .. => []
  | .telemetrySample .. => []
  | .picture => []
  | .pwrCapNAssert .. => []
  | .pwrCapNRelease => []
  | .sbBoardCeilWrite .. => []
  | .thermtripClear => []
  | .configRequest .. => []
  | .bar2Read .. => []
  | .bar2Write .. => []
  | .bar2AtomicOp .. => []
  | .hostReadFailure c _ => [c]
  | .hiCoreDbWrite .. => []
  | .functionLevelReset => []
  | .msixUnmask .. => []
  | .hiQTailWrite .. => []
  | .queueEnableWrite .. => []
  | .queueReset .. => []
  | .dmaDescriptorStart .. => []
  | .dmaDescriptorComplete .. => []
  | .codewordReceive .. => []
  | .markerCodeword .. => []
  | .packetSend .. => []
  | .packetReceive .. => []
  | .linkControl .. => []
  | .replayTimeout .. => []
  | .remoteRequest .. => []
  | .respTimeout .. => []
  | .trainingComplete .. => []
  | .portFail .. => []
  | .mlPortEnableWrite .. => []
  | .retrain .. => []
  | .timebaseExchange .. => []
  | .configPatrol t _ => patrolCore t
  | .hbmScrub .. => []
  | .engineRecovered .. => []
  | .ecHeadWrite .. => []
  | .smbusReady => []
  | .identity => []
  | .status => []
  | .alertRead => []
  | .alertWrite .. => []
  | .alertResponse => []
  | .boardCeilRead => []
  | .boardCeilWrite .. => []
  | .power => []
  | .temps => []
  | .regAddr .. => []
  | .regDataRead => []
  | .regDataWrite .. => []
  | .flashRead .. => []
  | .program .. => []
  | .slotErase .. => []
  | .eraseBlockDone => []
  | .commit .. => []
  | .rescan .. => []
  | .uartDataWrite .. => []
  | .uartTxByte .. => []
  | .uartRxByte .. => []
  | .extest => []
  | .idcode => []
  | .samplePreload .. => []
  | .clamp => []
  | .highz => []
  | .bypass .. => []
  | .gpioFuncWrite .. => []
  | .gpioParkEnd .. => []
  | .tpoEdge .. => []
  | .extEdge .. => []
  | .pmbusPoll .. => []
  | .registerRead .. => []
  | .pcieLinkUp .. => []
  | .flashCommandDone => []
  | .resumedEraseTimeout => []

/-- Every core that a well-formed command names exists. -/
def Statement (i : Instr) : Prop := i.WellFormed = true → ∀ c, c ∈ coresOf i → c < 25600

theorem core_lt {c : Nat} (h : decide (c < 25600) = true) : ∀ x, x ∈ [c] → x < 25600 :=
  fun _ hx => List.mem_singleton.1 hx ▸ of_decide_eq_true h

theorem no_core {p : Prop} (_ : p) : ∀ c, c ∈ ([] : List Nat) → c < 25600 := fun _ h => nomatch h

theorem semCore_lt {q : SemReq} (h : q.wf = true) : ∀ c, c ∈ semCore q → c < 25600 := by
  cases q <;> simp_all [SemReq.wf, semCore]

theorem dxCore_lt {q : DxReq} (h : q.wf = true) : ∀ c, c ∈ dxCore q → c < 25600 := by
  cases q <;> simp_all [DxReq.wf, dxCore]

theorem carryCore_lt {q : CarryReq} (h : q.wf = true) : ∀ c, c ∈ carryCore q → c < 25600 := by
  cases q <;> simp_all [CarryReq.wf, carryCore]

theorem patrolCore_lt {t : PatrolTarget} (h : t.wf = true) : ∀ c, c ∈ patrolCore t → c < 25600 := by
  cases t <;> simp_all [PatrolTarget.wf, patrolCore]

theorem perstNRise (bootsel pwrceil : BitVec 2) (refclk : Bool) (store : Option Flash) : Statement (.perstNRise bootsel pwrceil refclk store) := no_core
theorem perstNAssert : Statement (.perstNAssert) := no_core
theorem railInRange (rail : Rail) (smbaddr : BitVec 2) : Statement (.railInRange rail smbaddr) := no_core
theorem railOutOfRange (rail : Rail) : Statement (.railOutOfRange rail) := no_core
theorem timebaseTick (n : Nat) : Statement (.timebaseTick n) := no_core
theorem refLost : Statement (.refLost) := no_core
theorem refclkLock : Statement (.refclkLock) := no_core
theorem refLostClear : Statement (.refLostClear) := no_core
theorem hbmReady : Statement (.hbmReady) := no_core
theorem hbmTrainTimeout (failed : BitVec 8) : Statement (.hbmTrainTimeout failed) := no_core
theorem bootStoreScan : Statement (.bootStoreScan) := no_core
theorem winProducedWrite (words : W32) : Statement (.winProducedWrite words) := no_core
theorem go : Statement (.go) := no_core
theorem abort : Statement (.abort) := no_core
theorem sync : Statement (.sync) := no_core
theorem nop : Statement (.nop) := no_core
theorem declare : Statement (.declare) := no_core
theorem admission : Statement (.admission) := no_core
theorem writeCfg : Statement (.writeCfg) := no_core
theorem setFar : Statement (.setFar) := no_core
theorem writeFrames : Statement (.writeFrames) := no_core
theorem bcastFrames : Statement (.bcastFrames) := no_core
theorem frameApply : Statement (.frameApply) := no_core
theorem bcastFrameApply : Statement (.bcastFrameApply) := no_core
theorem park : Statement (.park) := no_core
theorem regionParked (r : Nat) (prog : List (Nat × Progress)) : Statement (.regionParked r prog) := by
  intro h x hx
  simp only [coresOf, List.mem_map] at hx
  obtain ⟨p, hp, rfl⟩ := hx
  exact of_decide_eq_true (List.all_eq_true.1 (Bool.and_eq_true_iff.1 h).2 p hp)
theorem isolate : Statement (.isolate) := no_core
theorem checkEnd : Statement (.checkEnd) := no_core
theorem waitRightAway : Statement (.waitRightAway) := no_core
theorem raRelease : Statement (.raRelease) := no_core
theorem rightAwayRise : Statement (.rightAwayRise) := no_core
theorem rightAwayFall : Statement (.rightAwayFall) := no_core
theorem raQualified : Statement (.raQualified) := no_core
theorem rightAwayTimeout : Statement (.rightAwayTimeout) := no_core
theorem raLowEvent : Statement (.raLowEvent) := no_core
theorem start : Statement (.start) := no_core
theorem unisolate : Statement (.unisolate) := no_core
theorem loadEnd : Statement (.loadEnd) := no_core
theorem rgnCtrlPark (r : Nat) (src : Source) : Statement (.rgnCtrlPark r src) := no_core
theorem run (r : Nat) (src : Source) : Statement (.run r src) := no_core
theorem reset (r : Nat) (src : Source) : Statement (.reset r src) := no_core
theorem clearRed (r : Nat) (src : Source) : Statement (.clearRed r src) := no_core
theorem rgnHoldClear (r : Nat) (park reset : Bool) (src : Source) : Statement (.rgnHoldClear r park reset src) := no_core
theorem registerWrite (src : Source) (t : RegTarget) (size : Nat) (v : W64) : Statement (.registerWrite src t size v) := no_core
theorem bundleExecute (c : Nat) (stale : Bool) (ecc frame : Ecc) : Statement (.bundleExecute c stale ecc frame) := core_lt
theorem scalarOpComplete (c unit : Nat) : Statement (.scalarOpComplete c unit) :=
  fun h => core_lt (Bool.and_eq_true_iff.1 h).1
theorem memoryResponse (c id : Nat) (host : List Byte) (ecc : Ecc) : Statement (.memoryResponse c id host ecc) := core_lt
theorem storeAccepted (c id : Nat) (ecc : Ecc) : Statement (.storeAccepted c id ecc) := core_lt
theorem fenceComplete (c : Nat) : Statement (.fenceComplete c) := core_lt
theorem guestAck (c : Nat) : Statement (.guestAck c) := core_lt
theorem guestTimeout (c : Nat) : Statement (.guestTimeout c) := core_lt
theorem guestLogicInterrupt (c : Nat) : Statement (.guestLogicInterrupt c) := core_lt
theorem cpTimerCmpWrite (c : Nat) (v : W64) : Statement (.cpTimerCmpWrite c v) := core_lt
theorem coreTimer (c : Nat) : Statement (.coreTimer c) := core_lt
theorem interruptEntry (c : Nat) (prog : Progress) : Statement (.interruptEntry c prog) := core_lt
theorem exceptionEntry (c : Nat) : Statement (.exceptionEntry c) := core_lt
theorem convertComplete (c : Nat) : Statement (.convertComplete c) := core_lt
theorem vectorOpComplete (c : Nat) : Statement (.vectorOpComplete c) := core_lt
theorem intervalStep (c : Nat) (ecc : Ecc) : Statement (.intervalStep c ecc) := core_lt
theorem trainHeader (c : Nat) : Statement (.trainHeader c) := core_lt
theorem matrixOpComplete (c : Nat) (ecc : Ecc) : Statement (.matrixOpComplete c ecc) := core_lt
theorem tmoveComplete (c : Nat) : Statement (.tmoveComplete c) := core_lt
theorem remoteYardAccess (c id : Nat) (ecc : Ecc) : Statement (.remoteYardAccess c id ecc) := core_lt
theorem sliceAccess (c id : Nat) (ecc : Ecc) : Statement (.sliceAccess c id ecc) := core_lt
theorem sidingIssue (slice : Nat) : Statement (.sidingIssue slice) := no_core
theorem sidingRetire (i : Nat) : Statement (.sidingRetire i) := no_core
theorem awRangeWrite (n : Nat) (v : W64) (src : Source) : Statement (.awRangeWrite n v src) := no_core
theorem awAttrWrite (n : Nat) (v : W64) (src : Source) : Statement (.awAttrWrite n v src) := no_core
theorem homeRequest (i : Nat) : Statement (.homeRequest i) := no_core
theorem forwardedRequest (i : Nat) : Statement (.forwardedRequest i) := no_core
theorem probe (i : Nat) : Statement (.probe i) := no_core
theorem probeResponse (i : Nat) : Statement (.probeResponse i) := no_core
theorem lineGrant (i : Nat) : Statement (.lineGrant i) := no_core
theorem tabletHoldEnd (slice line : Nat) : Statement (.tabletHoldEnd slice line) := no_core
theorem writebackArrival (i : Nat) : Statement (.writebackArrival i) := no_core
theorem farAtomic (agent : Nat) : Statement (.farAtomic agent) := no_core
theorem coPredClear (src : Source) : Statement (.coPredClear src) := no_core
theorem signal (q : SemReq) : Statement (.signal q) := semCore_lt
theorem wait (q : SemReq) : Statement (.wait q) := semCore_lt
theorem trywait (q : SemReq) : Statement (.trywait q) := semCore_lt
theorem claim (q : SemReq) : Statement (.claim q) := semCore_lt
theorem release (q : SemReq) : Statement (.release q) := semCore_lt
theorem read (q : SemReq) : Statement (.read q) := semCore_lt
theorem revive (q : SemReq) : Statement (.revive q) := semCore_lt
theorem init (q : SemReq) : Statement (.init q) := semCore_lt
theorem waitDeadline (sem : Nat) : Statement (.waitDeadline sem) := no_core
theorem carriedSignal (q : CarryReq) : Statement (.carriedSignal q) := carryCore_lt
theorem semaphoreResult (c id : Nat) : Statement (.semaphoreResult c id) := core_lt
theorem lookup (q : DxReq) : Statement (.lookup q) := dxCore_lt
theorem lookupBlock (q : DxReq) : Statement (.lookupBlock q) := dxCore_lt
theorem insert (q : DxReq) : Statement (.insert q) := dxCore_lt
theorem pin (q : DxReq) : Statement (.pin q) := dxCore_lt
theorem depotRelease (q : DxReq) : Statement (.depotRelease q) := dxCore_lt
theorem ageScan (q : DxReq) : Statement (.ageScan q) := dxCore_lt
theorem depotAsyncComplete (c : Nat) : Statement (.depotAsyncComplete c) := core_lt
theorem depotSlotTrigger (slot port : Nat) (v : W64) : Statement (.depotSlotTrigger slot port v) := no_core
theorem epoch : Statement (.epoch) := no_core
theorem brakeReevaluate (r : Nat) : Statement (.brakeReevaluate r) := no_core
theorem telemetrySample (ch : Channel) (stamp : W64) (value : Int) : Statement (.telemetrySample ch stamp value) := no_core
theorem picture : Statement (.picture) := no_core
theorem pwrCapNAssert (lowNs : Nat) : Statement (.pwrCapNAssert lowNs) := no_core
theorem pwrCapNRelease : Statement (.pwrCapNRelease) := no_core
theorem sbBoardCeilWrite (src : Source) (v : W64) : Statement (.sbBoardCeilWrite src v) := no_core
theorem thermtripClear : Statement (.thermtripClear) := no_core
theorem configRequest (offset size : Nat) (write : Option W32) : Statement (.configRequest offset size write) := no_core
theorem bar2Read (offset len : Nat) (ecc : Ecc) : Statement (.bar2Read offset len ecc) := no_core
theorem bar2Write (offset : Nat) (bytes : List Byte) (ecc : Ecc) : Statement (.bar2Write offset bytes ecc) := no_core
theorem bar2AtomicOp (op : AtomicOp) (offset size : Nat) (operand compare : W64) (ecc : Ecc) : Statement (.bar2AtomicOp op offset size operand compare ecc) := no_core
theorem hostReadFailure (c id : Nat) : Statement (.hostReadFailure c id) := core_lt
theorem hiCoreDbWrite (v : W64) : Statement (.hiCoreDbWrite v) := no_core
theorem functionLevelReset : Statement (.functionLevelReset) := no_core
theorem msixUnmask (vector : Nat) : Statement (.msixUnmask vector) := no_core
theorem hiQTailWrite (q : Nat) (v : W32) (src : Source) : Statement (.hiQTailWrite q v src) := no_core
theorem queueEnableWrite (q : Nat) (enable : Bool) : Statement (.queueEnableWrite q enable) := no_core
theorem queueReset (q : Nat) : Statement (.queueReset q) := no_core
theorem dmaDescriptorStart (q : Nat) (ring : HostAnswer) (ecc : Ecc) : Statement (.dmaDescriptorStart q ring ecc) := no_core
theorem dmaDescriptorComplete (q : Nat) (host : HostAnswer) (ecc : Ecc) : Statement (.dmaDescriptorComplete q host ecc) := no_core
theorem codewordReceive (p : Nat) (cw : Codeword) : Statement (.codewordReceive p cw) := no_core
theorem markerCodeword (p : Nat) : Statement (.markerCodeword p) := no_core
theorem packetSend (p vc : Nat) : Statement (.packetSend p vc) := no_core
theorem packetReceive (p : Nat) : Statement (.packetReceive p) := no_core
theorem linkControl (p : Nat) : Statement (.linkControl p) := no_core
theorem replayTimeout (p : Nat) : Statement (.replayTimeout p) := no_core
theorem remoteRequest (ecc : Ecc) : Statement (.remoteRequest ecc) := no_core
theorem respTimeout (i : Nat) : Statement (.respTimeout i) := no_core
theorem trainingComplete (p peerPkg peerPort : Nat) : Statement (.trainingComplete p peerPkg peerPort) := no_core
theorem portFail (p : Nat) : Statement (.portFail p) := no_core
theorem mlPortEnableWrite (p : Nat) (enable : Bool) (src : Source) : Statement (.mlPortEnableWrite p enable src) := no_core
theorem retrain (p : Nat) (src : Source) : Statement (.retrain p src) := no_core
theorem timebaseExchange (t1 t2 t3 t4 : W64) (parentSynced : Bool) : Statement (.timebaseExchange t1 t2 t3 t4 parentSynced) := no_core
theorem configPatrol (t : PatrolTarget) (ecc : Ecc) : Statement (.configPatrol t ecc) := patrolCore_lt
theorem hbmScrub (line : Nat) (ecc : Ecc) : Statement (.hbmScrub line ecc) := no_core
theorem engineRecovered (e : Engine) (unit : Nat) (ecc : Ecc) : Statement (.engineRecovered e unit ecc) := no_core
theorem ecHeadWrite (v : W32) : Statement (.ecHeadWrite v) := no_core
theorem smbusReady : Statement (.smbusReady) := no_core
theorem identity : Statement (.identity) := no_core
theorem status : Statement (.status) := no_core
theorem alertRead : Statement (.alertRead) := no_core
theorem alertWrite (v : W16) (pecOk : Bool) : Statement (.alertWrite v pecOk) := no_core
theorem alertResponse : Statement (.alertResponse) := no_core
theorem boardCeilRead : Statement (.boardCeilRead) := no_core
theorem boardCeilWrite (v : W16) (pecOk : Bool) : Statement (.boardCeilWrite v pecOk) := no_core
theorem power : Statement (.power) := no_core
theorem temps : Statement (.temps) := no_core
theorem regAddr (v : W32) (pecOk : Bool) : Statement (.regAddr v pecOk) := no_core
theorem regDataRead : Statement (.regDataRead) := no_core
theorem regDataWrite (v : W64) (pecOk : Bool) : Statement (.regDataWrite v pecOk) := no_core
theorem flashRead (src : Source) : Statement (.flashRead src) := no_core
theorem program (src : Source) (len : BitVec 9) : Statement (.program src len) := no_core
theorem slotErase (src : Source) (slot : Bool) : Statement (.slotErase src slot) := no_core
theorem eraseBlockDone : Statement (.eraseBlockDone) := no_core
theorem commit (src : Source) (slot : Bool) : Statement (.commit src slot) := no_core
theorem rescan (src : Source) : Statement (.rescan src) := no_core
theorem uartDataWrite (u : Nat) (b : Byte) : Statement (.uartDataWrite u b) := no_core
theorem uartTxByte (u : Nat) : Statement (.uartTxByte u) := no_core
theorem uartRxByte (u : Nat) (b : Byte) : Statement (.uartRxByte u b) := no_core
theorem extest : Statement (.extest) := no_core
theorem idcode : Statement (.idcode) := no_core
theorem samplePreload (pins : BitVec 37) (preload : Option (BitVec 37)) : Statement (.samplePreload pins preload) := no_core
theorem clamp : Statement (.clamp) := no_core
theorem highz : Statement (.highz) := no_core
theorem bypass (code : BitVec 5) : Statement (.bypass code) := no_core
theorem gpioFuncWrite (p : Nat) (func : BitVec 3) (src : Source) : Statement (.gpioFuncWrite p func src) := no_core
theorem gpioParkEnd (p : Nat) (level : Bool) : Statement (.gpioParkEnd p level) := no_core
theorem tpoEdge (n : Nat) : Statement (.tpoEdge n) := no_core
theorem extEdge (p : Nat) : Statement (.extEdge p) := no_core
theorem pmbusPoll (b : Nat) (answer : Option W64) : Statement (.pmbusPoll b answer) := no_core
theorem registerRead (src : Source) (t : RegTarget) (size : Nat) : Statement (.registerRead src t size) := no_core
theorem pcieLinkUp (speed : BitVec 4) (width : BitVec 5) (flit : Bool) : Statement (.pcieLinkUp speed width flit) := no_core
theorem flashCommandDone : Statement (.flashCommandDone) := no_core
theorem resumedEraseTimeout : Statement (.resumedEraseTimeout) := no_core

end Sys2Proof.Laws.Named
end

