-- ==== Sys2Proof/Tests/Slice0.lean ====
section
/-!
SUPPORT. Ill-formed commands that the check refuses, worked examples of the spec
with the numbers it gives, and states that meet the hypotheses of the statements.
-/
namespace Sys2Proof.Tests
open Sys2Proof Sys2Proof.Machine

/-! ## States that meet the hypotheses of the statements -/

/-- A declaration of a whole quadrant 0 with an express floor. -/
def sampleDecl : Decl :=
  { row0 := 0, col0 := 0, rows := 2, cols := 2, semFirst := 0, semCount := 4, ns := none, quota := 0, weight := 1
    cls := 0, floor := 10, windows := 0, intMode := 0, clearYard := false, entry := 5 }

theorem test_perst_rise_witness : ∀ x, x ∈ allRails → x ∈ State.reset.pw.rails := by decide

theorem test_rail_witness : Rail.vio18 ∉ (State.reset.pw.rails.filter (· != .vio18)) ∧ Rail.vio18 ∈ State.reset.pw.rails := by
  decide

theorem test_reference_clock_witness : State.reset.pw.perst = true
    ∧ LogRoom State.reset ∧ State.reset.tb.locked = false
    ∧ ({ State.reset with tb := { State.reset.tb with locked := true } } : State).tb.locked = true := by
  unfold LogRoom; decide

theorem test_hbm_witness :
    let s : State := { State.reset with cc := { State.reset.cc with source := 2, load := some { full := true, part := .declares } } }
    s.pw.perst = true ∧ s.pw.hbm = .training ∧ LogRoom s ∧ s.cc.load = some { full := true, part := .declares }
      ∧ s.cc.source = 2 := by
  unfold LogRoom; decide

theorem test_right_away_level_witness :
    let s : State := { State.reset with cc := { State.reset.cc with state := 5 } }
    s.pw.perst = true ∧ s.cc.state = 5 ∧ s.ra.driving = true ∧ s.ml.parentEn = false ∧ s.ra.otherLow = false
      ∧ ({ s with ra := { s.ra with otherLow := true } } : State).ra.otherLow = true := by decide

theorem test_right_away_outcome_witness :
    let l : Load := { full := true, admitted := true, part := .checked }
    let s : State := { State.reset with
      pw := { State.reset.pw with now := 20000 }
      cc := { State.reset.cc with state := 5, source := 2, load := some l }
      ra := { State.reset.ra with driving := false, highSince := some 100, deadline := some 2000 } }
    let u : State := { s with ra := { s.ra with highSince := none } }
    let v : State := { s with ra := { s.ra with watching := true, otherLow := true, lowSince := some 5000 } }
    (s.cc.load = some l ∧ s.ra.otherLow = false ∧ s.ra.highSince = some 100 ∧ 100 + 1000 ≤ s.pw.now
        ∧ s.ra.deadline = some 2000 ∧ 100 + 1000 < 2000)
      ∧ (u.ra.highSince = none ∧ u.ra.deadline = some 2000 ∧ 2000 ≤ u.pw.now)
      ∧ v.ra.watching = true ∧ v.ra.lowCounted = false ∧ v.ra.lowSince = some 5000 ∧ 5000 + 10000 ≤ v.pw.now := by
  decide

theorem test_core_numbering_witness : coreAt 9 27 13 = 15493 ∧ coreAt 15 39 39 = 25599 ∧ rowOf 15493 = 27 := by decide

theorem test_region_numbering_witness : regionOf (coreAt 9 27 13) = 38 ∧ regionOf (coreAt 0 19 20) = 1
    ∧ regionOf (coreAt 15 20 19) = 62 ∧ regionOf (coreAt 0 0 0) = 0 := by decide

theorem test_far_witness : farNext (farAt 9 0 20 50) = some (farAt 9 0 21 0) ∧ farNext (farAt 0 39 39 50) = none
    ∧ farNext (farAt 19 0 3 15) = none ∧ farOk (farAt 16 0 0 0) = false ∧ farAt 9 0 20 0 = 0x240500 := by decide

theorem test_window_witness :
    let s : State := { State.reset with cc := { State.reset.cc with source := 2, load := some { full := true } } }
    State.reset.cc.load = none ∧ State.reset.cc.bootHold = false ∧ s.cc.load = some { full := true } ∧ s.cc.source = 2 := by
  decide

theorem test_abort_witness :
    let l : Load := { admitted := true, decls := [(3, sampleDecl)] }
    let s : State := { State.reset with cc := { State.reset.cc with source := 2, load := some l } }
    s.cc.load = some l ∧ l.declared.Nodup ∧ l.admitted = true ∧ l.full = false := by decide

theorem test_header_witness :
    let ws : List W32 := [0x0100_0007, 0x504C_4B4D, 0x0001_0000, 0x0001_0300, 1, 0, 0x100, 0]
    let s (ws : List W32) : State := { State.reset with cc := { State.reset.cc with
      source := 2, produced := BitVec.ofNat 32 ws.length, ring := (List.range ws.length).zip ws, load := some {} } }
    (s ws).lookAhead 8 = ws ∧ headerFaults ws = none ∧ headerSize ((nth ws 0).getD 0) = 8
      ∧ (s [0x0100_0007, 0]).lookAhead 2 = [BitVec.ofNat 32 (0x0100_0007 + 2 * 0), 0]
      ∧ (s [0x0100_0007, 0x504C_4B4D, 0x0001_0000, 0x0001_0200]).lookAhead 4
          = [0x0100_0007, 0x504C_4B4D, 0x0001_0000, 0x0001_0200]
      ∧ (s ws).showsFull = true ∧ (s [0x0100_0007, 0]).showsFull = false := by decide

/-- A load from the window that stands at the given words. -/
def atWords (l : Load) (ws : List W32) : State :=
  { State.reset with
    pw := { State.reset.pw with hbm := .ready }
    cc := { State.reset.cc with state := 2, source := 2, produced := 9000, ring := (List.range ws.length).zip ws, load := some l } }

/-- A load of a full image whose region 0 is declared. -/
def fullLoad (p : LoadPart) : Load :=
  { full := true, length := 5000, pos := 100, part := p, decls := [(0, sampleDecl)], admitted := true, far := some 0 }

theorem test_nop_witness : let l := fullLoad .declares
    AtCommand (atWords l [1, 7]) l [1, 7] ∧ IsCmd 1 0 0 1 := by
  simp only [AtCommand, IsCmd]; decide

theorem test_declare_witness : let l := fullLoad .declares
    let ws : List W32 := [0x0626_0008, 0x1400_1414, 0x0200_0040, 0, 0xA0, 1, 0, 0, 0x0001_0000]
    AtCommand (atWords l ws) l ws ∧ IsCmd 0x0626_0008 6 38 8 ∧ l.declared = [0]
      ∧ ∀ i, i < 8 → declFault l.ns.length i ((nth (ws.drop 1) i).getD 0) = false := by
  simp only [AtCommand, IsCmd]; decide

theorem test_far_command_witness : let l := fullLoad .fabric
    AtCommand (atWords l [0x0300_0001, 0]) l [0x0300_0001, 0] ∧ IsCmd 0x0300_0001 3 0 1 ∧ InPlace (atWords l []) l 0x0300_0001 0 := by
  simp only [AtCommand, IsCmd, InPlace]; decide

theorem test_write_frames_witness : let l := fullLoad .fabric
    AtCommand (atWords l [0x0400_0002]) l [0x0400_0002] ∧ IsCmd 0x0400_0002 4 0 2 ∧ InPlace (atWords l []) l 0x0400_0002 0 := by
  simp only [AtCommand, IsCmd, InPlace]; decide

theorem test_bcast_frames_witness : let l := fullLoad .fabric
    AtCommand (atWords l [0x0500_0002, 0x101]) l [0x0500_0002, 0x101] ∧ IsCmd 0x0500_0002 5 0 2
      ∧ InPlace (atWords l []) l 0x0500_0002 0 ∧ rectFault 0 0x101 = false := by
  simp only [AtCommand, IsCmd, InPlace]; decide

theorem test_write_cfg_witness : let l := { fullLoad .declares with admitted := false }
    AtCommand (atWords l [0x0200_0002, 0x20, 9]) l [0x0200_0002, 0x20, 9] ∧ IsCmd 0x0200_0002 2 0 2
      ∧ InPlace (atWords l []) l 0x0200_0002 0 ∧ ∀ i, i < 3 → cfgFault l [0x0200_0002, 0x20, 9] i = false := by
  simp only [AtCommand, IsCmd, InPlace]; decide

/-- A frame of zeros, and a load from the window whose next words are it and a check word. -/
def zeroFrame : List W32 := List.replicate 256 0
def frameLoad : Load := { fullLoad .fabric with framesLeft := 3 }
def atFrame (check : W32) : State :=
  { State.reset with cc := { State.reset.cc with
      state := 3, source := 2, produced := 9000, ring := [(256, check)], load := some frameLoad } }

theorem test_frame_witness : frameLoad.frameOk 0 1 1 = true ∧ { frameLoad with bcast := some (2, 2) }.frameOk 0 2 2 = true ∧ frameLoad.pos + 257 < frameLoad.length
    ∧ frameLoad.far = some 0 ∧ frameLoad.farPast = false ∧ frameLoad.framesLeft ≠ 0 := by decide

theorem test_frame_size : zeroFrame.length = 256 := List.length_replicate

theorem test_frame_words (check : W32) : (atFrame check).lookAhead 257 = zeroFrame ++ [check] := by
  have h : (atFrame check).lookAhead 257
      = (List.range 257).map fun i => nget 0 [(256, check)] ((0 + i) % 262144) := by
    have e : (atFrame check).wordsReady = 9000 := by
      show 0 + (if (2 : BitVec 2) = 2 then ((9000 : W32) - 0).toNat else 2 ^ 32) = 9000
      decide
    unfold State.lookAhead
    rw [e, Nat.min_eq_left (by omega)]
    show ([] : List W32).take 257 ++ State.freshWords (atFrame check) frameLoad (257 - 0) = _
    rw [List.take_nil, List.nil_append]
    exact if_pos rfl
  rw [h]
  apply List.ext_getElem
  · rw [List.length_map, List.length_range, List.length_append, test_frame_size]; rfl
  · intro i h1 h2
    rw [List.length_map, List.length_range] at h1
    rw [List.getElem_map, List.getElem_range, List.getElem_append, Nat.zero_add, Nat.mod_eq_of_lt (by omega)]
    unfold nget nget
    split
    · split
      · next hh => rw [test_frame_size] at hh; omega
      · rw [List.getElem_singleton]
    · split
      · exact (List.getElem_replicate ..).symm
      · next hh => rw [test_frame_size] at hh; omega

theorem test_frame_fails_witness :
    let check : W32 := if frameCrc 0 zeroFrame = 0 then 1 else 0
    check.toNat ≠ frameCrc 0 zeroFrame ∧ bits check 31 16 = 0 := by
  simp only
  split
  · next h => rw [h]; decide
  · next h => exact ⟨fun e => h e.symm, by decide⟩

/-- A partial image that declares region 0, at the command that admits it. -/
def partialLoad (p : LoadPart) : Load :=
  { length := 5000, pos := 17, part := p, decls := [(0, sampleDecl)] }

theorem test_admission_witness : let l := partialLoad .declares
    let s := atWords l [0x0800_0000, 0x0700_0000]
    s.upcoming = some (0x0800_0000, 0x0700_0000) ∧ cmdOk 0x0800_0000 = true ∧ l.mayStand 0x0800_0000 0x0700_0000 = true
      ∧ l.admitsAt 0x0800_0000 0x0700_0000 = true ∧ l.declared.Nodup ∧ s.refusal l = none := by decide

theorem test_admission_refusal_witness : let l := { partialLoad .declares with decls := [(0, { sampleDecl with col0 := 19 })] }
    (atWords l [0x0800_0000, 0x0700_0000]).refusal l = some (0, 4, 2) := by decide

theorem test_park_witness : let l := { partialLoad .declares with admitted := true }
    AtCommand (atWords l [0x0800_0000]) l [0x0800_0000] ∧ IsCmd 0x0800_0000 8 0 0 ∧ InPlace (atWords l []) l 0x0800_0000 0 := by
  simp only [AtCommand, IsCmd, InPlace]; decide

theorem test_region_parked_witness :
    let s := State.reset.setRegion 0 { st := .running, parking := true }
    (s.region 0).parking = true ∧ (s.region 0).st.isRunning = true ∧ (s.region 0).thenIsolate = false
      ∧ s.running 0 = false := by decide

theorem test_isolate_witness : let l := { partialLoad .parks with admitted := true, parked := [0] }
    let s := (atWords l [0x0700_0000]).setRegion 0 { st := .parked }
    AtCommand s l [0x0700_0000] ∧ IsCmd 0x0700_0000 7 0 0 ∧ InPlace s l 0x0700_0000 0 ∧ (s.region 0).st = .parked := by
  simp only [AtCommand, IsCmd, InPlace]; decide

theorem test_check_end_witness : let l := fullLoad .fabric
    let crc : W32 := BitVec.ofNat 32 (crc32 l.crc.toNat (wordBytes 0x0C00_0001)) ^^^ 0xFFFF_FFFF
    AtCommand (atWords l [0x0C00_0001, crc]) l [0x0C00_0001, crc] ∧ IsCmd 0x0C00_0001 0xC 0 1
      ∧ InPlace (atWords l []) l 0x0C00_0001 0 ∧ l.declared.Nodup := by
  simp only [AtCommand, IsCmd, InPlace]; decide

theorem test_wait_right_away_witness : let l := fullLoad .checked
    AtCommand (atWords l [0x0B00_0000]) l [0x0B00_0000] ∧ IsCmd 0x0B00_0000 0xB 0 0 ∧ InPlace (atWords l []) l 0x0B00_0000 0 := by
  simp only [AtCommand, IsCmd, InPlace]; decide

theorem test_end_check_witness : let l := fullLoad .fabric
    AtCommand (atWords l [0x0C00_0001, 5]) l [0x0C00_0001, 5]
      ∧ (5 : W32) ≠ BitVec.ofNat 32 (crc32 l.crc.toNat (wordBytes 0x0C00_0001)) ^^^ 0xFFFF_FFFF := by
  simp only [AtCommand]; decide

theorem test_start_witness : let l := { fullLoad .starts with }
    let s := (atWords l [0x0900_0000]).setRegion 0 { st := .parkedIsolated, decl := some sampleDecl }
    AtCommand s l [0x0900_0000] ∧ IsCmd 0x0900_0000 9 0 0 ∧ InPlace s l 0x0900_0000 0 ∧ l.declared.Nodup
      ∧ coresOutside 0 sampleDecl = 0 ∧ (s.region 0).decl = some sampleDecl ∧ l.named 0x0900_0000 = [0]
      ∧ (s.region 0).st = .parkedIsolated := by
  simp only [AtCommand, IsCmd, InPlace]; decide

theorem test_unisolate_witness : let l := { fullLoad .starts with }
    AtCommand (atWords l [0x0AFF_0000]) l [0x0AFF_0000] ∧ IsCmd 0x0AFF_0000 0xA 0xFF 0 ∧ InPlace (atWords l []) l 0x0AFF_0000 0 := by
  simp only [AtCommand, IsCmd, InPlace]; decide

theorem test_end_witness : let l := { fullLoad .unisolates with pos := 4999 }
    let s := atWords l [0x0D00_0000]
    s.lookAhead 1 = [0x0D00_0000] ∧ s.loadWaits l = false ∧ IsCmd 0x0D00_0000 0xD 0 0 ∧ l.pos + 1 = l.length
      ∧ l.mayStand 0x0D00_0000 0 = true ∧ l.admitsAt 0x0D00_0000 0 = false := by
  simp only [IsCmd]; decide

theorem test_region_commands_witness :
    let s := State.reset.setRegion 3 { st := .parked, hasRun := true }
    let u := State.reset.setRegion 0 { st := .parked, decl := some sampleDecl }
    let v := State.reset.setRegion 3 { st := .red }
    (s.region 3).st = .parked ∧ (s.region 3).parkHold = false ∧ (s.region 3).resetHold = false ∧ (s.region 3).hasRun = true
      ∧ (u.region 0).st = .parked ∧ (u.region 0).hasRun = false ∧ coresOutside 0 sampleDecl = 0
      ∧ (u.region 0).decl = some sampleDecl ∧ (v.region 3).st = .red ∧ (srcCore 7 ≠ srcHost ∧ srcCore 7 ≠ srcSignalBox) := by decide

theorem test_holds_witness :
    let s := State.reset.setRegion 0 { st := .parked, parkHold := true }
    let u := State.reset.setRegion 0 { st := .parkedIsolated, parkHold := true, startHeld := true, decl := some sampleDecl }
    (s.region 0).startHeld = false ∧ (s.region 0).unisoHeld = false ∧ (u.region 0).startHeld = true
      ∧ (u.region 0).decl = some sampleDecl ∧ coresOutside 0 sampleDecl = 0 ∧ ((u.region 0).parkHold && !true) = false
      ∧ (u.region 0).st = .parkedIsolated ∧ (u.region 0).resetHold = false := by decide

theorem test_windows_witness :
    let s := State.reset.setRegion 0 { st := .running, decl := some { sampleDecl with windows := 2 } }
    State.reset.pinned 1 = false ∧ s.pinned 1 = true ∧ s.pinned 0 = false := by decide

theorem test_no_valid_slot_witness :
    let e : MsixEntry := { addr := 0x1000, data := 7, mask := false }
    let s : State := { State.reset with
      pw := { State.reset.pw with bootsel := 0 }
      cc := { State.reset.cc with bootHold := true }
      hi := { State.reset.hi with msixEnable := true, event := [(1, (true, 2))], msix := [(2, e)], pci := [(1, 4)] } }
    s.pw.perst = true ∧ s.cc.boot = .idle ∧ s.cc.load = none ∧ s.cc.state = 0 ∧ s.sd.flash = none ∧ s.busMaster = true
      ∧ s.hi.funcMask = false ∧ nget (false, 0) s.hi.event 1 = (true, 2)
      ∧ nget {} s.hi.msix (2 : BitVec 11).toNat = e ∧ e.mask = false := by decide

/-- A store of 1 MiB with nothing in it, whose block 3 is being erased. -/
def sampleFlash : Flash := { sfdp := true, size := 0x10_0000, bytes := [], erase := some { block := 3, suspended := true } }

theorem test_host_signal_witness :
    let s : State := { State.reset with ml := { State.reset.ml with waits := [{ id := 4, pkg := 5, addr := 0, acc := 0 }] } }
    s.hostWrites = [4] ∧ State.reset.hostWrites = [] ∧ State.reset.hi.signals = [] := by decide

theorem test_store_scan_witness :
    let s : State := { State.reset with sd := { State.reset.sd with flash := some sampleFlash } }
    let u : State := { s with cc := { s.cc with boot := .waitErase, bootHold := true } }
    s.pw.perst = true ∧ s.cc.boot = .idle ∧ s.sd.flash = some sampleFlash ∧ sampleFlash.sfdp = true
      ∧ sampleFlash.erase = some { block := 3, suspended := true } ∧ u.cc.boot = .waitErase ∧ u.sd.failed = false
      ∧ u.cc.load = none := by decide

theorem test_flash_commands_witness :
    let f : Flash := { sampleFlash with erase := none }
    let s : State := { State.reset with sd := { State.reset.sd with flash := some f } }
    let u : State := { s with sd := { s.sd with cmd := some (.erase true 3), flash := some sampleFlash } }
    s.pw.perst = true ∧ s.flashBusy = false ∧ s.sd.failed = false ∧ u.flashBusy = true
      ∧ u.sd.cmd = some (.erase true 3) ∧ u.sd.readDuringErase = none := by decide

theorem test_slot_bounds_witness (f : Flash) (d : Descriptor) (h : readDescriptor f = some d) (hb : d.aBase = 0x3_0000)
    (hn : d.slotBytes = 0x1_0000) : slotAt f 0x3_0100 256 = some false := by
  simp [slotAt, h, hb, hn]

theorem test_flash_results_witness :
    let s : State := { State.reset with sd := { State.reset.sd with flash := some sampleFlash, cmd := some (.read 0x3_0000) } }
    let u : State := { s with sd := { s.sd with cmd := some .rescan } }
    s.pw.perst = true ∧ s.sd.failed = false ∧ s.sd.flash = some sampleFlash ∧ s.sd.readDuringErase = none
      ∧ sampleFlash.bytes.Pairwise (fun p q => p.1 < q.1) ∧ s.sd.cmd = some (.read 0x3_0000) ∧ u.sd.cmd = some .rescan ∧ s.cc.boot ≠ .waitErase := by decide

theorem test_uart_jtag_witness :
    let s := State.reset.setUart 0 { tx := [1, 2] }
    let u := State.reset.setUart 0 { tx := List.replicate 64 0, rx := List.replicate 64 0 }
    let w : State := { State.reset with pw := { State.reset.pw with perst := false } }
    s.pw.perst = true ∧ (s.uart 0).tx = 1 :: [2] ∧ (s.uart 0).tx.length < 64 ∧ 64 ≤ (u.uart 0).tx.length
      ∧ 64 ≤ (u.uart 0).rx.length ∧ (u.uart 1).rx.length < 64 ∧ (31 : BitVec 5) ∉ [0, 1, 2, 4, 5] ∧ w.pw.perst = false := by
  decide

theorem test_pin_functions_witness :
    let s := State.reset
    let u := { s with pw := { s.pw with now := 5000 } }
    let w : State := u.setGpio 2 { park := some (2, 3000) }
    let x : State := u.setGpio 2 { park := some (2, 4500) }
    padAllows 5 2 = false ∧ padAllows 2 2 = true ∧ (s.gpio 2).park = none ∧ (s.gpio 2).func ≠ 2 ∧ (s.gpio 2).func = 0
      ∧ (w.gpio 2).park = some (2, 3000) ∧ 3000 + 1000 ≤ w.pw.now ∧ (x.gpio 2).park = some (2, 4500)
      ∧ x.pw.now < 4500 + 1000 := by decide

theorem test_pins_witness :
    let s := ((State.reset.setGpio 0 { func := 1 }).setGpio 1 { func := 1 }).setGpio 7 { func := 4 }
    let u : State := { s with sd := { s.sd with pmb := [(3, { en := true })], tpo := [(1, { period := 10 })] } }
    u.pw.perst = true ∧ u.padIs 7 4 = true ∧ (nget {} u.sd.pmb 3).en = true ∧ u.padIs 0 1 = true ∧ u.padIs 1 1 = true
      ∧ (u.tpo 1).period ≠ 0 ∧ (u.tpo 0).period = 0 := by decide

theorem test_smbus_witness :
    let s : State := { State.reset with pw := { State.reset.pw with smbReady := true }, sd := { State.reset.sd with alertOut := true } }
    Rail.vio18 ∈ State.reset.pw.rails ∧ Rail.vinFab ∈ State.reset.pw.rails ∧ s.pw.smbReady = true ∧ s.sd.alertOut = true
      ∧ s.pw.perst = true ∧ (0x10_0000 : W32).toNat % 8 = 0 ∧ (0x10_0000 : W32).toNat ≤ 0xBF_FFF8 := by decide

theorem test_budget_witness :
    let x : Share := { r := 4, cls := 0, weight := 1, floor := 40, req := 30, m := 7, base := 30, hold := 10 }
    (∀ y, y ∈ [x] → y.base = max y.m (min y.req y.floor)) ∧ sumBy (fun x => x.base + x.hold) [x] ≤ 300
      ∧ (-1 : Int) < 0 ∧ [x] ≠ [] := by decide

/-- The grants of 15 Example 1: 30, 120, 100 and 40. -/
theorem test_epoch_example :
    let l : List Share :=
      [{ r := 4, cls := 0, weight := 1, floor := 40, req := 30, m := 7, base := 30, hold := 10 },
       { r := 5, cls := 1, weight := 3, floor := 20, req := 120, m := 28, base := 28, hold := 0 },
       { r := 6, cls := 1, weight := 1, floor := 20, req := 100, m := 24, base := 24, hold := 0 },
       { r := 7, cls := 2, weight := 1, floor := 0, req := 100, m := 24, base := 24, hold := 0 }]
    (grants 300 l).1.map Share.grant = [30, 120, 100, 40] := by decide

theorem test_epoch_witness :
    let k : Snap := { p := 0, cur := [], hot := [], va := [], na := [], junction := 0, vinSum := 0, power := 0, cells := [] }
    let s : State := { State.reset with tb := { State.reset.tb with now := 24000 }, tf := { State.reset.tf with snaps := [k] } }
    let u := s.setRegion 3 { st := .running, vset := 600, vHigh := 700 }
    let v := s.setRegion 3 { st := .running, vset := 700, vHigh := 700 }
    s.pw.perst = true ∧ s.tf.snaps = [k] ∧ 8000 * (k.p.toNat / 8000 + 3) ≤ s.tb.now.toNat ∧ (s.region 3).st.isRunning = false
      ∧ (u.region 3).st.isRunning = true ∧ (u.region 3).vset < (u.region 3).vHigh ∧ (v.region 3).vHigh ≤ (v.region 3).vset := by
  decide

theorem test_cap_witness :
    let s := (State.reset.setRegion 7 { st := .running, cls := 2 }).setRegion 6 { st := .running, cls := 1 }
    s.pw.perst = true ∧ (s.region 7).st.isRunning = true ∧ (s.region 7).cls = 2 ∧ (s.region 6).cls ≠ 2
      ∧ (s.region 5).st.isRunning = false ∧ (0x7FFD : Source) ≠ 0x7FFB := by decide

theorem test_samples_witness :
    let s : State := { State.reset with tb := { State.reset.tb with now := 30000 } }
    s.pw.perst = true ∧ (Channel.regionTemp 3).wf = true ∧ (100 : Int) < 16 * (s.sb.force.trip.toNat : Int)
      ∧ 16 * (s.sb.force.trip.toNat : Int) ≤ 2000 ∧ (Channel.hbmTemp 3).wf = true
      ∧ 8000 * s.tf.nextPicture + min 20000 s.tf.waitLimit.toNat ≤ s.tb.now.toNat ∧ s.chan 260 = [] := by decide

theorem test_all_cool_witness : State.reset.allCool = true := by
  have h : ∀ k, State.reset.lastTemp k = none := fun k => by simp [State.lastTemp, State.chan, State.reset, nget]
  simp [State.allCool, h]

/-- A state whose aperture 0 reaches the yard of core 0, in a region that runs. -/
def sampleYard : State :=
  ({ State.reset with hi := { State.reset.hi with ap := [(0, (true, 0x2000))] }, aliasEn := false
                      mem := { cells := [], zero := [(yardBase 0, yardBase 0 + 0x2_0000)] } } : State).setRegion 0 { st := .running }

theorem test_zeroed_words (w : Nat) (h : w = yardBase 0 ∨ w = yardBase 0 + 8) : sampleYard.yardWordBad w = false := by
  rcases h with rfl | rfl <;>
    simp [State.yardWordBad, State.freshBad, Memory.readN, Memory.read, Memory.blank, sampleYard, nfind, yardBase,
      State.setRegion, State.reset]

theorem test_host_memory_witness :
    sampleYard.pw.perst = true ∧ sampleYard.aperture 0 = some (yardBase 0) ∧ sampleYard.isLocal (yardBase 0) = true
      ∧ bar2Fits 0 8 = true ∧ sampleYard.mem.wf = true ∧ yardBase 0 % 8 = 0
      ∧ (decodeLocal (localOf (yardBase 0)) = .yard 0 0 ∧ sampleYard.isolated 0 = false
        ∧ wordsOf (localOf (yardBase 0)) 8 = [yardBase 0]) := by decide

theorem test_host_control_witness :
    let s := State.reset
    let u : State := { s with
      hi := { s.hi with ready := true, msixEnable := true, pba := [5], pci := [(1, 4)] }, cc := { s.cc with boot := .scanned } }
    let v := s.setRegion 0 { st := .running }
    s.hi.ready = false ∧ u.hi.ready = true ∧ u.cc.boot ≠ .idle ∧ u.hi.funcMask = false ∧ 5 ∈ u.hi.pba ∧ u.busMaster = true
      ∧ v.isolated 7 = false ∧ s.isolated 7 = true := by decide

/-- A load of core 0 from the host, nothing else being under way. -/
def hostLoad : State :=
  (sampleYard.setCore 0 { Core.reset 0 0 with
    active := true, ops := [{ id := 1, port := 0x156, bundle := 0, b := 0 }], nextId := 3
    accs := [{ id := 2, op := 1, kind := .load, addr := 0x1000_0000_0000, bytes := List.replicate 8 (some 0) }] })

theorem test_host_read_failure_witness :
    let a : Access := { id := 2, op := 1, kind := .load, addr := 0x1000_0000_0000, bytes := List.replicate 8 (some 0) }
    (hostLoad.core 0).acc 2 = some a ∧ hostLoad.blocked 0 a = false ∧ hostLoad.destOf a.addr = .host
      ∧ (hostLoad.core 0).opOf a.op = some { id := 1, port := 0x156, bundle := 0, b := 0 } ∧ isLoadPort 0x156 = true := by
  decide

theorem test_no_descriptor_witness : ∀ q, (State.reset.queue q).cur = none := fun q => by
  simp [State.queue, State.reset, nget]

/-- Queue 3 of 16 Example 1, at index 17 of a ring of 256, and its descriptor with the yard
of core 0 as destination and no signal. -/
def sampleQueue : Queue := { baseHost := true, addr := 0x1_0000_0000, log2 := 8, enable := true, tail := 18, head := 17 }
def sampleRing (len : Nat) : List Byte :=
  toBytes 8 0x40_1234_0000 ++ toBytes 8 (yardBase 0) ++ toBytes 8 len ++ toBytes 8 1 ++ List.replicate 32 0

theorem test_dma_witness :
    let s : State := { sampleYard.setQueue 3 sampleQueue with hi := { sampleYard.hi with pci := [(1, 4)] } }
    let j : DmaJob := { desc := [0x40_1234_0000, 0x0800_0000_0000, 8, 1, 0, 0, 0, 0], host := true, slot := 0x40_0000_0440 }
    s.pw.perst = true ∧ s.busMaster = true ∧ (s.queue 3).cur = none ∧ (s.queue 3).carried = none
      ∧ ((s.queue 3).tail - (s.queue 3).head).toNat = 1 ∧ (s.queue 3).size = 256 ∧ (sampleRing 8).length = 64
      ∧ (s.queue 3).addr.toNat * 64 + 64 * ((s.queue 3).head.toNat % 256) = 0x40_0000_0440
      ∧ j.malformed = false ∧ j.srcHost = true ∧ j.dstHost = false ∧ j.length = 8 ∧ j.signal = none ∧ s.ml.waits = []
      ∧ s.isLocal j.dst = true ∧ { j with desc := [0, 0, 0, 1, 0, 0, 0, 0] }.malformed = true
      ∧ ((18 + 257 : W32) - (s.queue 3).head).toNat = 258 := by decide

/-- Port 4 up, with package 653 beyond it. -/
def samplePort : Port := { enable := true, st := .up, peerPkg := 653, peerPort := 5 }

theorem test_link_states_witness :
    let s := State.reset.setPort 4 samplePort
    let u := State.reset.setPort 4 { samplePort with st := .training }
    s.pw.perst = true ∧ (s.port 4).st = .up ∧ (s.port 4).unsent = [] ∧ (u.port 4).st = .training ∧ (u.port 4).enable = true
      ∧ (s.port 5).st = .disabled ∧ s.ml.parentEn = false := by decide

theorem test_link_traffic_witness :
    let k : Packet := { ptype := 1, dest := 0, src := 5, tseq := 0 }
    let s := State.reset.setPort 4 { samplePort with sendQ := [(0, [k])], rxPkts := [k] }
    let u := (State.reset.setPort 4 { samplePort with replay := [k], rxPkts := [{ k with ptype := 3, credit := 0x500 }] })
    let v : State := { u with pw := { u.pw with now := 2000 } }
    let w := State.reset.setPort 4 { samplePort with rxPkts := [{ k with ptype := 3 }] }
    (s.port 4).st = .up ∧ nget [] (s.port 4).sendQ 0 = k :: [] ∧ nget [] (s.port 4).sendQ 3 = [] ∧ (s.port 4).canSend k = true
      ∧ (s.port 4).rxPkts = k :: [] ∧ k.ptype ≠ 3 ∧ k.crcOk = true ∧ k.seq = (s.port 4).rxSeq ∧ k.dest = s.pkg
      ∧ k.tseq = nget 0 s.ml.tseqRx (k.vc.toNat * 2048 + k.src.toNat) ∧ (v.port 4).replay ≠ []
      ∧ ((State.reset.setPort 4 { samplePort with rxPkts := [{ k with ptype := 3, crcOk := false }] }).port 4).rxPkts
          = [{ k with ptype := 3, crcOk := false }]
      ∧ (v.port 4).sentAt + 2000 ≤ v.pw.now ∧ (v.port 4).stalls < 8 ∧ (w.port 4).replay = []
      ∧ unitLen (1 :: List.replicate 31 0) = 0 ∧ ((1 :: List.replicate 31 0 : List Byte).take 8).all (fun b => b == 0) = false
      ∧ ((0xFFFF : W16) - (s.port 4).rxSeq).msb = true := by decide

/-- A read of eight bytes of the yard of core 0 by package 5, whose route leaves by port 4. -/
def remoteRead : State :=
  let s := sampleYard.setPort 4 samplePort
  { s with ml := { s.ml with
      routes := [(10, 0x104)], reqIn := [{ ptype := 1, src := 5, payload := [8, 0, 0, 0], addr := 0x0800_0000_0000 }] } }

theorem test_remote_witness :
    let k : Packet := { ptype := 1, src := 5, payload := [8, 0, 0, 0], addr := 0x0800_0000_0000 }
    let w : Pending := { pkg := 5, addr := 0, acc := 8 }
    let v : Pending := { pkg := 5, addr := 0, acc := 2, core := some 0, since := 0 }
    let s : State := { State.reset with pw := { State.reset.pw with now := 2000000 }, ml := { State.reset.ml with waits := [w, v] } }
    let u := s.setCore 0 { Core.reset 0 0 with accs := [{ id := 2, op := 1, kind := .load, addr := 5 * 2 ^ 45 }] }
    let x : State := { (State.reset.setPort 0 samplePort) with ml := { (State.reset.setPort 0 samplePort).ml with parentEn := true } }
    remoteRead.ml.reqIn = k :: [] ∧ k.carry = false ∧ remoteRead.route remoteRead.ml.origin.toNat k.src.toNat = some (4, false)
      ∧ (decodeLocal k.addr.toNat = .yard 0 0 ∧ remoteRead.isolated 0 = false ∧ wordsOf k.addr.toNat 8 = [yardBase 0])
      ∧ nth s.ml.waits 0 = some w ∧ w.since + 1000 * s.ml.respTimeout.toNat ≤ s.pw.now ∧ nth u.ml.waits 1 = some v
      ∧ (u.core 0).opOf v.acc = none ∧ ((u.core 0).acc v.acc).isSome = true
      ∧ x.ml.parentEn = true ∧ (x.port x.ml.parent.toNat).st = .up ∧ x.tb.stepped = false := by decide

/-- `Config.moriqOp` gives some byte for a read, or none: either way a clause applies. -/
theorem test_remote_read_witness (op : Byte) (h : linkOpOf (Config.moriqOp op) = some .read) :
    ∃ k rest, ({ remoteRead with ml := { remoteRead.ml with reqIn := [{ ptype := 1, src := 5, op := op }] } } : State).ml.reqIn
      = k :: rest ∧ linkOpOf (Config.moriqOp k.op) = some .read := ⟨_, _, rfl, h⟩

theorem test_patrol_witness :
    let s : State := { State.reset.setRegion 0 { st := .running } with pw := { State.reset.pw with hbm := .ready } }
    s.pw.perst = true ∧ (s.region (regionOf 7)).st ≠ .writing ∧ (s.core 7).cfgBad = [] ∧ (s.region (regionOf 7)).st = .running
      ∧ (s.port 3).st ≠ .up ∧ s.pw.hbm = .ready ∧ 12 ∉ s.poison ∧ 3 < Engine.depot.units
      ∧ ((5 : W32) - s.ec.head).toNat < 2 ^ 31 ∧ 2 ^ 31 ≤ ((0xFFFF_FFFF : W32) - s.ec.head).toNat := by decide

theorem test_log_room_witness : LogRoom State.reset ∧ (∀ d, (State.reset.core d).accs = [])
    ∧ ∀ i w, w ∈ (State.reset.sem i).queue → w.pkg = none := by
  refine ⟨by unfold LogRoom; decide, fun d => by simp [State.core, State.reset, nget, Core.reset], fun i w h => ?_⟩
  simp [State.sem, State.reset, nget] at h

/-- Core 0, running, with one semaphore operation in flight on semaphore 5. -/
def semState (port : Nat) (b : W64) (m : Sem) : State :=
  (sampleYard.setCore 0 { Core.reset 0 0 with
    active := true, ops := [{ id := 1, port := port, bundle := 0, b := b, cap := [(0x680, BitVec.ofNat 64 (semAddr 5)), (0x682, 1)] }]
    portLast := (resultPorts port []).map fun p => (p, 1), nextId := 2 }).setSem 5 m

theorem test_semaphore_witness :
    let ok (port : Nat) (b : W64) (m : Sem) : Bool :=
      match (semState port b m).semNext 0 with
      | some p => p.1.port == port && p.2 == 5 && ((semState port b m).sem 5).queue.isEmpty
      | none => false
    ok 0x690 3 { count := 4 } = true ∧ ok 0x690 3 { count := 0xFFFF_FFFF } = true ∧ ok 0x692 3 { count := 4 } = true
      ∧ ok 0x692 5 { count := 4 } = true ∧ ok 0x693 0 {} = true ∧ ok 0x694 0 { st := .owned, owner := 0 } = true
      ∧ ok 0x695 0 {} = true ∧ ok 0x696 7 { st := .abandoned } = true ∧ ok 0x697 7 {} = true
      ∧ (semState 0x690 3 {}).pw.perst = true ∧ (State.reset.sem 9).queue = [] ∧ (State.reset.sem 9).level = 0 := by decide

theorem test_waits_witness :
    let s := semState 0x691 3 { count := 4 }
    let u := semState 0x691 5 { count := 4 }
    let w : Waiter := { caller := 0, op := 1, n := 5, deadline := 0 }
    let v := semState 0x691 5 { queue := [{ w with deadline := 1 }] }
    let v := { v with tb := { v.tb with now := 1 } }
    let x := v.modCore 0 fun k => { k with
      ops := k.ops.map fun o => { o with stage := .served }, carriedDue := [{ sem := BitVec.ofNat 64 (semAddr 9), n := 2, samePath := true }] }
    let z := (x.modCore 0 fun k => { k with ops := k.ops.map fun o => { o with res := semWord 1 0 } })
    (((z.core 0).opOf 1).map fun o => o.res.toNat % 256) = some 1 ∧ z.isLocal (semAddr 5) = true
      ∧ (((x.core 0).opOf 1).map fun o => o.res.toNat % 256) = some 0
      ∧ (((z.core 0).opOf 1).map fun o => semAt (localOf ((o.operand 0x680).toNat % 2 ^ 56))) = some (some 5)
      ∧ (s.semNext 0).map Prod.fst = (s.core 0).opOf 1 ∧ (s.semNext 0).isSome = true ∧ (u.semNext 0).isSome = true ∧ dueDeadline s.tb.now (s.sem 5).queue = none
      ∧ (s.sem 5).st ≠ .abandoned ∧ s.roomUse 0 < 16384 ∧ (v.sem 5).queue = [{ w with deadline := 1 }]
      ∧ (1 : W64) ≤ v.tb.now ∧ ((v.core 0).opOf 1).isSome = true ∧ (x.region (regionOf 0)).st.isRunning = true
      ∧ ((x.core 0).opOf 1).isSome = true ∧ x.carryReady 0 { sem := BitVec.ofNat 64 (semAddr 9), n := 2, samePath := true } = true
      ∧ semAt (localOf (BitVec.ofNat 64 (semAddr 9)).toNat) = some 9 ∧ (x.sem 9).queue = [] := by decide

/-- Host command slot 3 with a command of the given port on namespace 9, which holds slot 0,
with empty tables. -/
def depotState (port : Nat) (b : W64) (walk : Option DxWalk) : State :=
  { State.reset with
    pw := { State.reset.pw with hbm := .ready }
    mem := { cells := [], zero := [(0, 0x48_0000_0000)] }
    regions := [(0, { st := .running, decl := some { sampleDecl with ns := some 9, quota := 10 } })]
    dx := { State.reset.dx with
      base := [(0, 0), (1, 1), (2, 2), (3, 3)], ns := [(0, 9)], order := [3]
      slots := [(3, { cmd := some (port, b), src := srcHost, cap := [(0x700, 9), (0x705, 0x600_0000), (0x703, 0x80), (0x701, 0x500_0000)], walk := walk })] } }

theorem test_depot_witness :
    let a := dxArgs [(0x700, 9), (0x705, 0x600_0000), (0x703, 0x80), (0x701, 0x500_0000)] 5
    (depotState 0x711 5 none).pw.perst = true ∧ (DxReq.slot 3).wf = true ∧ (depotState 0x711 5 none).tablesPlaced = true ∧ (depotState 0x711 5 none).mem.wf = true
      ∧ (depotState 0x711 5 none).dxNext (.slot 3) = some (0x711, a, none)
      ∧ (depotState 0x712 5 none).dxNext (.slot 3) = some (0x712, a, none)
      ∧ (depotState 0x711 5 none).nsSlot a.ns = some 0 ∧ a.tpp < 3 ∧ a.b.toNat ≤ a.perPage
      ∧ (depotState 0x711 5 none).isLocal a.page = true ∧ localOf a.page < 0x48_0000_0000
      ∧ (depotState 0x711 5 none).nsEntries 0 < (depotState 0x711 5 none).nsQuota 9 ∧ a.addr % 16 = 0 ∧ a.dst % 16 = 0
      ∧ (depotState 0x711 5 none).nsSlot 10 = none ∧ (depotState 0x711 5 none).firstSlot srcHost = some 3
      ∧ State.reset.firstSlot srcHost = none ∧ 4 ∉ (depotState 0x711 5 none).dx.order := by decide

/-- Written HBM, no transaction and no poison mark: such a state is quiet. -/
theorem quiet_of_written (s : State) (hz : s.mem.zero = [(0, 0x48_0000_0000)]) (hc : s.co = State.reset.co) (hp : s.poison = []) :
    Quiet s := by
  intro l hl
  refine ⟨by simp [State.mustWait, State.lineBusy, State.lineTaken, State.lineHeld, State.agentReqs, nget, hc, State.reset],
    by simp [State.dirtyCopy, firstIf, hc, State.reset], ?_⟩
  have some (a : Nat) (ha : a < 0x48_0000_0000) : (s.mem.read a).isNone = false := by
    unfold Memory.read Memory.blank
    split
    · rfl
    · simp [hz, ha]
  have fresh (w : Nat) (hw : w + 8 ≤ 0x48_0000_0000) : s.freshBad w = false := by
    simp only [State.freshBad, Memory.readN, List.any_cons, List.any_nil]
    rw [some _ (by omega), some _ (by omega), some _ (by omega), some _ (by omega), some _ (by omega), some _ (by omega),
      some _ (by omega), some _ (by omega)]
    simp
  have none : (wordsOf (64 * l) 64).any s.freshBad = false := by
    rw [List.any_eq_false]
    intro w hw
    simp only [wordsOf, List.mem_map, List.mem_range] at hw
    obtain ⟨i, hi, rfl⟩ := hw
    rw [fresh _ (by omega)]
    decide
  rw [State.linePoisoned, none, hp]
  rfl

theorem test_depot_quiet_witness : Quiet (depotState 0x711 5 none) := quiet_of_written _ rfl rfl rfl

/-- The entry of a block of one token, in the first way of its bucket. -/
def hitEntry (digest : W64) : DxEntry :=
  { digest := digest, page := 0x600_0000, age := 2, refs := 3, tokens := 1, slot := 0, pinned := false, valid := true, tpp := 0
    inserted := 0 }

/-- The state of `depotState` with that entry, a RELEASE record of it, and a walk that is at it. -/
def hitState (port : Nat) : State :=
  let s := depotState port 1 (some { next := 0, stopped := false, hits := 0, tokens := 0, status := 0, toks := [1], digests := [5] })
  { s with mem := { s.mem with cells := ((((List.range 32).map (s.entryAddr 5 0 + ·) ++ (List.range 16).map (0x500_0000 + ·)).zip
      ((hitEntry 5).bytes ++ toBytes 8 5 ++ toBytes 8 0x600_0000)).filter fun p => p.2 != 0) } }

theorem test_hit_quiet_witness : Quiet (hitState 0x710) := quiet_of_written _ rfl rfl rfl

theorem test_depot_hit_witness :
    let s := hitState 0x710
    (s.readEntry (s.entryAddr 5 0)).2 = hitEntry 5 ∧ (s.readEntry (s.entryAddr 5 1)).2.valid = false
      ∧ (hitEntry 5).fits (s.nsSlot 9) 0 1 = true ∧ s.mem.wf = true ∧ (s.dxNext (.slot 3)).map (fun p => p.2.2.isSome) = some true
      ∧ ((hitState 0x713).dxNext (.slot 3)).map (fun p => (p.2.1.b, localOf p.2.1.addr, localOf p.2.1.dst)) = some (1, 0x500_0000, 0)
      ∧ (List.range 16).map (fun i => s.byteAt (0x500_0000 + i)) = toBytes 8 5 ++ toBytes 8 0x600_0000
      ∧ s.scanEntries = [s.entryAddr 5 0, s.entryAddr 5 0 + 32] := by decide +kernel

theorem test_depot_results_witness :
    let s (st : OpStage) (async : W64) : State := sampleYard.setCore 0 { Core.reset 0 0 with
      active := true, ops := [{ id := 1, port := 0x711, bundle := 0, b := 5, cap := [(0x703, async)], stage := st, pass := 1 }]
      portLast := (resultPorts 0x711 [(0x703, async)]).map fun p => (p, 1), nextId := 2 }
    (s .running 0).pw.perst = true
      ∧ (((s .running 0).core 0).oldest fun o => isDepot o.port && o.stage == .running) = ((s .running 0).core 0).opOf 1
      ∧ (((s .running 0).core 0).opOf 1).isSome = true ∧ (s .running 0).isolated 0 = false
      ∧ ((((s .served 64).core 0).oldest fun o => isDepot o.port && o.stage == .served).map
          fun o => (isAsync (o.operand 0x703), o.pass)) = some (true, 1)
      ∧ (nget {} (depotState 0x711 5 none).dx.slots 3).cmd ≠ none ∧ (nget {} State.reset.dx.slots 3).cmd = none
      ∧ isDepot 0x711 = true ∧ isDepot 0x705 = false := by decide

/-- Core 0 with one access `a`, and a die-cache line at address 0 in the given state. -/
def sliceState (a : Access) (attr : BitVec 8) (st : Option LineSt) : State :=
  let s := sampleYard.setCore 0 { Core.reset 0 0 with
    active := true, ops := [{ id := 1, port := 0x150, bundle := 0, b := 0 }], accs := [{ a with id := 2, op := 1 }], nextId := 3 }
  { s with co := { s.co with
      windows := [(64, { attr := attr })]
      lines := match st with
        | some st => [(wayKey (sliceFor 0 0) 0 0, { line := 0, st := st, age := 1, data := List.replicate 64 (some 3) })]
        | none => [] } }

theorem test_slice_witness :
    let acc (kind : AccKind) : Access := { id := 2, op := 1, kind := kind, addr := 8, bytes := List.replicate 8 (some 7) }
    let ok (kind : AccKind) (attr : BitVec 8) (st : Option LineSt) : Bool :=
      let s := sliceState (acc kind) attr st
      s.pw.perst && (s.core 0).acc 2 == some (acc kind) && s.blocked 0 (acc kind) == false
        && (s.core 0).storeData (acc kind) == (acc kind).bytes && s.destOf 8 == .hbm && !s.probeWaits (sliceFor 0 0) 0
        && !s.filling (sliceFor 0 0) 0 && s.findSiding (sliceFor 0 0) 0 == none && (s.core 0).l1Hit 0 == none
        && (s.findLine (sliceFor 0 0) 0).map (fun p => p.2.st) == st && (attrOf (s.attrBits (acc kind))).cache == min 2 (attr.toNat % 4)
    ok .load 4 (some .S) = true ∧ ok .load 4 none = true ∧ ok .load 6 none = true ∧ ok .store 4 (some .E) = true
      ∧ ok .store 4 (some .O) = true ∧ ok .store 5 (some .E) = true ∧ ok .store 5 none = true ∧ ok .store 0 none = true
      ∧ ok .store 6 (some .S) = true ∧ ok (.atomic 0x178) 0x24 (some .M) = true ∧ ok (.atomic 0x178) 0x44 none = true
      ∧ ok (.atomic 0x178) 0x24 none = true ∧ ok .clean 4 (some .M) = true ∧ ok .prefetch 4 none = true := by decide

theorem test_remote_yard_witness :
    let acc (kind : AccKind) : Access := { id := 2, op := 1, kind := kind, addr := yardBase 1, bytes := List.replicate 8 (some 7) }
    let far : Access := { id := 2, op := 1, kind := .load, addr := yardBase 20, bytes := List.replicate 8 (some 7) }
    let ok (kind : AccKind) : Bool :=
      let s := sliceState (acc kind) 4 none
      s.blocked 0 (acc kind) == false && s.isLocal (yardBase 1) && decodeLocal (localOf (yardBase 1)) == .yard 1 0
        && s.isolated 1 == false && s.mem.wf && (s.core 0).storeData (acc kind) == (acc kind).bytes
    ok .load = true ∧ ok .store = true ∧ ok (.atomic 0x178) = true ∧ (sliceState far 4 none).blocked 0 far = false
      ∧ decodeLocal (localOf (yardBase 20)) = .yard 20 0 ∧ (sliceState far 4 none).isolated 20 = true := by
  decide

theorem test_home_witness :
    let acc : Access := { id := 2, op := 1, kind := .atomic 0x178, addr := 8, bytes := List.replicate 8 (some 0) }
    let q : HReq := { id := 5, agent := 0, line := 0, slice := sliceFor 0 0, core := 0, acc := 2, kind := .readFill }
    let w : Wb := { slice := sliceFor 0 0, line := 0, agent := 0, data := some (List.replicate 64 (some 4)), poison := false }
    let r : Resp := { req := 5, agent := 0, line := 0, slice := 40, left := none, data := w.data, dirty := true, poison := false }
    let s := sliceState acc 4 none
    let far := { q with kind := .farAtomic, started := true }
    let s := { s with co := { s.co with net := [q], wbs := [w], resps := [r], dir := [(0, [(sliceFor 0 0, .M)])] } }
    let own := { q with kind := .ownFill, started := true, need := [40] }
    let u := { s with co := { s.co with queue := [(0, [own])], dir := [] } }
    let v := { s with co := { s.co with queue := [(0, [far])] } }
    s.pw.perst = true ∧ rising s.co.queue = true ∧ rising u.co.queue = true ∧ rising v.co.queue = true ∧ s.agentReqs 0 = [] ∧ s.holders 0 = [(sliceFor 0 0, .M)] ∧ u.holders 0 = [] ∧ u.agentReqs 0 = [own]
      ∧ u.findLine (sliceFor 0 0) 0 = none ∧ s.crossing w = false ∧ u.crossing w = true ∧ v.agentReqs 0 = [far]
      ∧ (v.core 0).acc 2 = some acc ∧ acc.inLine + 8 ≤ 64 ∧ v.mem.wf = true ∧ rising s.co.dir = true
      ∧ (s.governing 0).order = false ∧ (attrOf 0x14).order = true := by decide

theorem test_slice_messages_witness :
    let n := sliceFor 0 0
    let acc (kind : AccKind) : Access := { id := 2, op := 1, kind := kind, addr := 8, bytes := List.replicate 8 (some 7) }
    let s := sliceState (acc .load) 4 (some .M)
    let p : Probe := { req := 5, agent := 0, line := 0, slice := n, mode := .remove }
    let q : HReq := { id := 5, agent := 0, line := 0, slice := 40, core := 0, acc := 2, kind := .ownFill, started := true }
    let e : Siding := { line := 0, st := .M, data := List.replicate 64 (some 3) }
    let g : Grant := { req := 5, line := 0, slice := n, core := 0, acc := 2, kind := .readFill, st := .E
                       data := List.replicate 64 (some 3), poison := false, age3 := false }
    let held (h : Nat) (x : Nat) : State := { s with
      co := { s.co with lines := s.co.lines.map fun y => (y.1, { y.2 with holdEnd := some h, predicted := x }) } }
    let empty := sliceState (acc .load) 4 none
    let later := held 9 0
    let waiting := State.modCore { later with co := { later.co with probes := [{ p with arrived := true }] } } 0 fun k =>
      { k with accs := k.accs.map fun a => { a with stage := .atSlice } }
    let probes (s : State) : State := { s with co := { s.co with probes := [p] } }
    let granted := { empty with co := { empty.co with grants := [g], siding := [(n, [e])], acks := [(n, 0)] } }
    (s.findLine n 0).isSome = true ∧ rising s.co.lines = true ∧ s.co.lines.length = 1 ∧ nth (probes s).co.probes 0 = some p
      ∧ ((probes (held 9 0)).findLine n 0).map (fun y => y.2.holdEnd) = some (some 9)
      ∧ (probes empty).findLine n 0 = none ∧ (probes empty).findSiding n 0 = none
      ∧ ({ s with co := { s.co with fwds := [{ req := q, owner := n }] } }.findLine n 0).isSome = true
      ∧ { s with co := { s.co with fwds := [{ req := q, owner := n }] } }.earlierHit n 0 = false ∧ q.need = []
      ∧ (waiting.probeWaits n 0 = true ∧ waiting.waitingFor n 0 ≠ [] ∧ (waiting.findLine n 0).isSome = true)
      ∧ nth granted.co.grants 0 = some g ∧ (granted.core 0).acc 2 = some (acc .load)
      ∧ firstIf (fun i => !nhas granted.co.lines (wayKey n (setOf 0) i)) (List.range 16) = some 0
      ∧ firstIf (fun e => !e.issued) (granted.siding n) = some e ∧ granted.sought n 0 = false
      ∧ nth granted.co.acks 0 = some (n, 0) ∧ rising granted.co.siding = true ∧ (probes granted).sought n 0 = true
      ∧ ((held 0 1).findLine n 0).map (fun y => (y.2.holdEnd, y.2.predicted)) = some (some 0, 1)
      ∧ (held 0 1).probeWaits n 0 = false := by decide

/-- A bundle of moves: guard, source, destination and width of each slot (05 R131-R134). -/
def bundleWord (kind : Nat) (ms : List (Nat × Nat × Nat × Nat)) : BitVec 128 :=
  BitVec.ofNat 128 (kind * 2 ^ 124 + (2 ^ ms.length - 1) * 2 ^ 120
    + sumBy (fun p => (p.1.1 * 2 ^ 26 + p.1.2.1 * 2 ^ 14 + p.1.2.2.1 * 4 + p.1.2.2.2) * 2 ^ (30 * p.2)) (ms.zip (List.range 4)))

/-- Core 0, running, with bundle `b` at index 0. -/
def bundleState (b : BitVec 128) (ports gpr : NMap W64) : State :=
  sampleYard.setCore 0 { (Core.reset 0 0).putBundle 0 b with active := true, ports := ports, gpr := gpr }

theorem test_bundle_witness :
    let ok (b : BitVec 128) (n : Nat) : Bool :=
      let s := bundleState b [] []
      s.pw.perst && s.mayExecute 0 && (s.core 0).bundleAt 0 == b && (passing (s.core 0) b).length == n && (s.core 0).ops.isEmpty
    let swap := bundleWord 0 [(0, 1, 2, 3), (0, 2, 1, 3)]
    let jump := bundleWord 0 [(0, 1, 0x180, 3)]
    let add := bundleWord 0 [(0, 1, 0x090, 3)]
    let store := bundleWord 0 [(0, 1, 0x173, 3)]
    ok swap 2 = true ∧ bundleFault swap = none ∧ ok jump 1 = true ∧ bundleFault jump = none ∧ ok add 1 = true
      ∧ bundleFault add = none ∧ ok store 1 = true ∧ bundleFault store = none ∧ ok (bundleWord 2 []) 0 = true
      ∧ bundleFault (bundleWord 2 []) = some 0 ∧ sampleYard.isLocal 0 = true ∧ decodeLocal 0 ≠ .unmapped
      ∧ scalarRefused 0x173 0 8 = false ∧ decodeLocal 0x50_0000_0000 = .unmapped ∧ State.reset.mayExecute 0 = false := by decide

theorem test_bundle_wait_witness :
    let b := bundleWord 0 [(0, 0x082, 1, 3)]
    let s := (bundleState b [] []).modCore 0 fun k => { k with
      ops := [{ id := 1, port := 0x090, bundle := 0, b := 0 }], portLast := [(0x082, 1)], nextId := 2 }
    s.mayExecute 0 = true ∧ bundleFault b = none ∧ (passing (s.core 0) b).any (fun m => (s.core 0).srcWaits m.src) = true := by
  decide

theorem test_units_witness :
    let op (p : Nat) : Op := { id := 1, port := p, bundle := 0, b := 3, cap := [(0x080, 4), (0x100, 9)] }
    let s (p : Nat) : State := sampleYard.setCore 0 { Core.reset 0 0 with
      active := true, ops := [op p], portLast := (resultPorts p []).map fun q => (q, 1), nextId := 2 }
    let acc (kind : AccKind) : Access := { id := 2, op := 1, kind := kind, addr := yardBase 0, bytes := List.replicate 8 (some 7) }
    let a (p : Nat) (kind : AccKind) : State := (s p).modCore 0 fun k => { k with accs := [acc kind], nextId := 3 }
    let ok (p : Nat) (kind : AccKind) : Bool :=
      ((a p kind).core 0).acc 2 == some (acc kind) && !(a p kind).blocked 0 (acc kind) && ((a p kind).core 0).storeData (acc kind) == (acc kind).bytes
        && (a p kind).isLocal (yardBase 0) && decodeLocal (localOf (yardBase 0)) == .yard 0 0 && ((a p kind).core 0).opOf 1 == some (op p)
    (((s 0x090).core 0).oldest fun o => scalarUnit o.port == some 0) = some (op 0x090)
      ∧ (((s 0x113).core 0).oldest fun o => scalarUnit o.port == some 2) = some (op 0x113)
      ∧ ok 0x156 .load = true ∧ ok 0x173 .store = true ∧ isLoadPort 0x156 = true ∧ isStorePort 0x173 = true
      ∧ nget 1 ((s 0x156).core 0).portLast 0x144 = 1 ∧ (a 0x173 .store).mem.wf = true
      ∧ (((s 0x782).core 0).oldest fun o => isFence o.port && ((s 0x782).core 0).fenced o.id (o.port != 0x780)) = some (op 0x782)
      ∧ (s 0x090).tb.now < ((s 0x090).core 0).timerCmp ∧ (s 0x090).region (regionOf 0) = { st := .running } := by decide

/-- Core 0 in a guest write handshake; element 959 is a constant. -/
def guestState (ack : Bool) (req : Bool) : State :=
  sampleYard.setCore 0 { Core.reset 0 0 with
    active := true
    cfg := if ack then [((34 + 959 / 64) * 256 + 4 * (959 % 64), 0xFFFF_FFFF), ((34 + 959 / 64) * 256 + 4 * (959 % 64) + 1, 0xFFFF_FFFF)] else []
    guest := some { bundle := 0, moves := [(0, 0xE00, some 5)], req := req } }

theorem test_guest_witness :
    let g (req : Bool) : Guest := { bundle := 0, moves := [(0, 0xE00, some 5)], req := req }
    (guestState false true).running 0 = true ∧ ((guestState false true).core 0).guest = some (g true)
      ∧ bit ((guestState false true).guestNow 0 (g true)).value 959 = false
      ∧ bit ((guestState true true).guestNow 0 (g true)).value 959 = true
      ∧ bit ((guestState true false).guestNow 0 (g false)).value 959 = true
      ∧ bit ((guestState false false).guestNow 0 (g false)).value 959 = false
      ∧ (guestState false true).pw.now < (g true).since + ((guestState false true).core 0).guestLimit
      ∧ (let s : State := { guestState false true with pw := { State.reset.pw with now := 10 ^ 9 } }
         ¬ s.pw.now < (g true).since + (s.core 0).guestLimit ∧ s.running 0 = true) := by decide +kernel

/-- Core 0 with a stack pointer, an exception due and source 2 pending. -/
def trapState (sp : W64) (shadow : Bool) (due : List Due) : State :=
  sampleYard.setCore 0 { Core.reset 0 0 with
    active := true, gpr := [(62, sp)], shadow := shadow, due := due, intPending := 4, intEnable := 4, intPriority := 16 }

theorem test_entry_witness :
    let d : Due := { code := 2, addr := 8 }
    let sp := BitVec.ofNat 64 (yardBase 0 + 0x1_0000)
    let s := trapState sp false [d]
    let u := trapState 8 false [d]
    let v := trapState 8 true [d]
    let i := trapState sp false []
    let busy := s.modCore 0 fun k => { k with
      ops := [{ id := 1, port := 0x173, bundle := 0, b := 0 }]
      accs := [{ id := 2, op := 1, kind := .store, addr := yardBase 0 + 0xFF80, bytes := List.replicate 8 (some 7) }] }
    s.pw.perst = true ∧ s.mem.wf = true ∧ s.atBoundary 0 = true ∧ (s.core 0).nextDue = some d ∧ s.stackOk 0 = true
      ∧ u.atBoundary 0 = true ∧ u.stackOk 0 = false ∧ (u.core 0).shadow = false ∧ v.atBoundary 0 = true ∧ v.stackOk 0 = false
      ∧ i.atBoundary 0 = true ∧ (i.core 0).dueBlocks = false ∧ (i.core 0).chosen (i.core 0).level = some (2, 1)
      ∧ (i.core 0).promptMode 2 = false ∧ (i.core 0).longBusy = false ∧ i.stackOk 0 = true ∧ i.frameOk 0 = true
      ∧ ((State.setCore s 0 { s.core 0 with intEnable := 0 }).core 0).chosen none = none
      ∧ (v.core 0).accs = [] ∧ (v.core 5).accs = [] ∧ (v.sem 3).queue = []
      ∧ (s.core 0).dueBlocks = true ∧ (s.core 0).chosen (s.core 0).level = some (2, 1)
      ∧ s.frameBusy 0 0xFF80 128 = false ∧ busy.frameBusy 0 0xFF80 128 = true ∧ busy.stackOk 0 = true
      ∧ busy.atBoundary 0 = true ∧ (busy.core 0).nextDue = some d := by decide

theorem test_reti_witness :
    let s := (trapState (BitVec.ofNat 64 (yardBase 0 + 0x1_0000)) false []).modCore 0 fun k => { k with intEnable := 0 }
    s.frameOk 0 = true ∧ (s.core 0).chosen (prevLevel ((nth (s.frameWords 0) 1).getD 0)) = none
      ∧ bits ((nth (s.frameWords 0) 3).getD 0) 63 60 = 0
      ∧ ((wordsOf (localOf (s.core 0).sp) 128).any s.yardWordBad) = false := by decide +kernel

/-- Core 0 with one operation in flight. -/
def unitState (o : Op) : State :=
  sampleYard.setCore 0 { Core.reset 0 0 with
    active := true, ops := [o], portLast := (resultPorts o.port o.cap).map fun p => (p, o.id), nextId := 2 }

theorem test_vector_witness :
    let cfg : W64 := 0x4_000E
    let op (p : Nat) : Op := { id := 1, port := p, bundle := 0, b := 0x843, cap := [(0x200, cfg)] }
    let cv : Op := { id := 1, port := 0x610, bundle := 0, b := 4, cap := [(0x600, 1), (0x601, 2), (0x603, 0xD0C)] }
    let ok (p : Nat) : Bool := ((unitState (op p)).core 0).oldest (isUnit .vec) == some (op p) && ((unitState (op p)).core 0).vecReady (op p)
    ok 0x218 = true ∧ ok 0x238 = true ∧ ok 0x340 = true ∧ (op 0x218).vec.code = 0xE ∧ (op 0x218).vec.vl = 4
      ∧ nget 1 ((unitState (op 0x340)).core 0).portLast 0x350 = 1
      ∧ ((unitState cv).core 0).oldest (isUnit .cv) = some cv ∧ ((unitState cv).core 0).regBusy 1 cv.regSets.1 cv.regSets.2 = false
      ∧ ((cv.operand 0x603) &&& 0xF = 0xC) ∧ cvCount (cv.operand 0x603) cv.b = 4 ∧ nget 1 ((unitState cv).core 0).portLast 0x608 = 1 := by
  decide

theorem test_vector_wait_witness :
    let cfg : W64 := 0x4_000E
    let a : Op := { id := 1, port := 0x218, bundle := 0, b := 0x843, cap := [(0x200, cfg)], limit := some 0 }
    let s := (unitState { a with id := 2 }).modCore 0 fun k => { k with accs := [{ id := 3, op := 2, kind := .load, addr := 0 }] }
    let q (b : W64) : Op := { id := 2, port := 0x210, bundle := 0, b := b, cap := [(0x200, 0x4_0001)], stage := .queued }
    (s.core 0).oldest (isUnit .vec) = some { a with id := 2 } ∧ (s.core 0).vecReady { a with id := 2 } = false
      ∧ ((unitState (q 0x4_0000)).core 0).oldest (isUnit .vec) = some (q 0x4_0000) ∧ (q 0x4_0000).stage = .queued
      ∧ (q 0x4_0000).maskWaits ((unitState (q 0x4_0000)).core 0) = false := by decide

/-- A TMMA of 8 × 8 INT8 outputs over 8 columns, with its descriptors; operand A comes from
`src`. -/
def mmaOp (src : Nat) : Op :=
  let w0 (base pitch fmt src rows : Nat) : W64 := pack [(0, base), (20, pitch), (40, fmt), (44, src), (48, rows)]
  { id := 1, port := 0x410, bundle := 0, b := 0x210, pass := 4
    desc := [[w0 0 8 0xC src 8, 8], [w0 0x100 8 0xC 0 8, 8], [w0 0x200 32 0xE 0 8, 8, pack [(0, 2), (8, 0x100)]]] }

theorem test_matrix_witness :
    let o := mmaOp 0
    let s := unitState o
    let done := { o with index := 1 }
    let clear : Op := { id := 1, port := 0x413, bundle := 0, b := 5 }
    (s.core 0).oldest (isUnit .mx) = some o ∧ (s.core 0).opOf 1 = some o ∧ (o.tileAt 0).fmt = 0xC ∧ (o.tileAt 1).fmt = 0xC
      ∧ o.ladder.fmt = 0xE ∧ o.mxPositions = 1 ∧ (o.tileAt 0).cols = 8 ∧ (o.tileAt 1).cols = 8 ∧ s.mxWaits 0 o = false
      ∧ o.ladder.cols = 8 ∧ o.ladder.pitch = 32 ∧ o.ladder.depth = 2 ∧ bits o.b 18 16 = 0 ∧ s.mem.wf = true
      ∧ (unitState done).mxWaits 0 done = false ∧ done.mxPositions ≤ done.index ∧ done.mxPer = 1
      ∧ (unitState clear).mxWaits 0 clear = false ∧ ((mmaOp 1).tileAt 0).src = 1 ∧ ((mmaOp 1).tileAt 1).src = 0
      ∧ (mmaOp 1).pass.testBit 0 = false := by decide

theorem test_matrix_yard_witness (w : Nat) (h8 : w % 8 = 0) (h : w < 0x2_0000) :
    (unitState (mmaOp 0)).yardWordBad (yardBase 0 + w) = false := by
  have blank (a : Nat) (h1 : yardBase 0 ≤ a) (h2 : a < yardBase 0 + 0x2_0000) : (unitState (mmaOp 0)).mem.read a = some 0 := by
    have : (unitState (mmaOp 0)).mem = { cells := [], zero := [(yardBase 0, yardBase 0 + 0x2_0000)] } := rfl
    rw [this]
    simp [Memory.read, Memory.blank, nfind, h1, h2]
  have none : (unitState (mmaOp 0)).yardBad = [] := rfl
  simp only [State.yardWordBad, State.freshBad, Memory.readN, none]
  rw [blank _ (by omega) (by omega), blank _ (by omega) (by omega), blank _ (by omega) (by omega), blank _ (by omega) (by omega),
    blank _ (by omega) (by omega), blank _ (by omega) (by omega), blank _ (by omega) (by omega), blank _ (by omega) (by omega)]
  simp

theorem test_mover_witness :
    let o : Op := { id := 1, port := 0x428, bundle := 0, b := 0, cap := [(0x422, 0x20_0001)], index := 1 }
    let s := unitState o
    (s.core 0).oldest (isUnit .mv) = some o ∧ o.mvRows = 1 ∧ o.mvBytes = 32 ∧ (s.core 0).accsDone 1 = true
      ∧ ((unitState { o with index := 0 }).core 0).oldest (isUnit .mv) = some { o with index := 0 } := by decide

theorem test_step_witness : ({ State.reset with pending := [.sync, .go] } : State).pending = [.sync, .go] ∧ State.reset.pending = []
    ∧ (Instr.bundleExecute 25599 true .clean .clean).WellFormed = true ∧ (Instr.bundleExecute 25600 true .clean .clean).WellFormed = false := by
  decide

theorem test_held_witness : ({ State.reset with pw := { State.reset.pw with perst := false } } : State).pw.perst = false
    ∧ reachesReset .sync = false ∧ reachesReset (.timebaseTick 3) = true := by decide

theorem test_canonical_witness :
    let s : State := { State.reset with pending := [.hbmReady], mem := { cells := [(3, 5)], zero := [(8, 16)] } }
    s.mem.wf = true ∧ (match step s with | .next t => t.mem.wf | _ => false) = true := by decide

theorem test_reset_memory_witness : State.reset.mem.cells = [] ∧ State.reset.mem.zero = [] := by decide

/-! ## Ill-formed commands, one for each check of WellFormed -/

theorem test_wf_parked_region : (Instr.regionParked 64 []).WellFormed = false := by decide
theorem test_wf_parked_core : (Instr.regionParked 0 [(25600, ⟨0, 0, 0, 0⟩)]).WellFormed = false := by decide
theorem test_wf_region_park : (Instr.rgnCtrlPark 64 srcHost).WellFormed = false := by decide
theorem test_wf_region_run : (Instr.run 64 srcHost).WellFormed = false := by decide
theorem test_wf_region_reset : (Instr.reset 64 srcHost).WellFormed = false := by decide
theorem test_wf_region_clear : (Instr.clearRed 64 srcHost).WellFormed = false := by decide
theorem test_wf_region_hold : (Instr.rgnHoldClear 64 true false srcHost).WellFormed = false := by decide
theorem test_wf_core : (Instr.bundleExecute 25600 false .clean .clean).WellFormed = false := by decide
theorem test_wf_unit : (Instr.scalarOpComplete 0 3).WellFormed = false := by decide
theorem test_wf_slice : (Instr.sidingIssue 512).WellFormed = false := by decide
theorem test_wf_window_range : (Instr.awRangeWrite 64 0 srcHost).WellFormed = false := by decide
theorem test_wf_window_attr : (Instr.awAttrWrite 65 0 srcHost).WellFormed = false := by decide
theorem test_wf_agent : (Instr.farAtomic 64).WellFormed = false := by decide
theorem test_wf_sem_core : (Instr.signal (.core 25600)).WellFormed = false := by decide
theorem test_wf_sem_number : (Instr.wait (.direct srcHost 65536 1)).WellFormed = false := by decide
theorem test_wf_deadline : (Instr.waitDeadline 65536).WellFormed = false := by decide
theorem test_wf_carry_queue : (Instr.carriedSignal (.queue 64)).WellFormed = false := by decide
theorem test_wf_depot_core : (Instr.lookup (.core 25600)).WellFormed = false := by decide
theorem test_wf_depot_slot : (Instr.insert (.slot 64)).WellFormed = false := by decide
theorem test_wf_depot_trigger : (Instr.depotSlotTrigger 64 0 0).WellFormed = false := by decide
theorem test_wf_brake_region : (Instr.brakeReevaluate 64).WellFormed = false := by decide
theorem test_wf_channel_region : (Instr.telemetrySample (.regionVoltage 64) 0 0).WellFormed = false := by decide
theorem test_wf_channel_junction : (Instr.telemetrySample (.junctionCurrent 4) 0 0).WellFormed = false := by decide
theorem test_wf_channel_sensor : (Instr.telemetrySample (.regionTemp 512) 0 0).WellFormed = false := by decide
theorem test_wf_channel_hbm : (Instr.telemetrySample (.hbmTemp 8) 0 0).WellFormed = false := by decide
theorem test_wf_config_size : (Instr.configRequest 0 3 none).WellFormed = false := by decide
theorem test_wf_config_align : (Instr.configRequest 2 4 none).WellFormed = false := by decide
theorem test_wf_config_end : (Instr.configRequest 4096 4 none).WellFormed = false := by decide
theorem test_wf_bar2_empty : (Instr.bar2Read 0 0 .clean).WellFormed = false := by decide
theorem test_wf_bar2_page : (Instr.bar2Read 4095 2 .clean).WellFormed = false := by decide
theorem test_wf_bar2_end : (Instr.bar2Write (2 ^ 36) [0] .clean).WellFormed = false := by decide
theorem test_wf_atomic_size : (Instr.bar2AtomicOp .fetchAdd 0 16 0 0 .clean).WellFormed = false := by decide
theorem test_wf_vector : (Instr.msixUnmask 2048).WellFormed = false := by decide
theorem test_wf_queue : (Instr.hiQTailWrite 64 0 srcHost).WellFormed = false := by decide
theorem test_wf_port : (Instr.codewordReceive 12 .discarded).WellFormed = false := by decide
theorem test_wf_codeword : (Instr.codewordReceive 0 (.decoded false 0 [])).WellFormed = false := by decide
theorem test_wf_channel : (Instr.packetSend 0 4).WellFormed = false := by decide
theorem test_wf_peer_package : (Instr.trainingComplete 0 2048 0).WellFormed = false := by decide
theorem test_wf_peer_port : (Instr.trainingComplete 0 0 16).WellFormed = false := by decide
theorem test_wf_patrol_frame : (Instr.configPatrol (.frame 0 51) .clean).WellFormed = false := by decide
theorem test_wf_patrol_route : (Instr.configPatrol (.route 0 16) .clean).WellFormed = false := by decide
theorem test_wf_scrub : (Instr.hbmScrub 0x1_2000_0000 .clean).WellFormed = false := by decide
theorem test_wf_engine : (Instr.engineRecovered .semaphore 16 .clean).WellFormed = false := by decide
theorem test_wf_uart : (Instr.uartTxByte 2).WellFormed = false := by decide
theorem test_wf_bypass : (Instr.bypass 2).WellFormed = false := by decide
theorem test_wf_gpio : (Instr.gpioParkEnd 16 true).WellFormed = false := by decide
theorem test_wf_pulse : (Instr.tpoEdge 4).WellFormed = false := by decide
theorem test_wf_pmbus : (Instr.pmbusPoll 16 none).WellFormed = false := by decide

/-! ## Worked examples of the spec, with the numbers it gives -/

-- 01 Example 1: the region of core 15,493, its yard, and the canonical global address.
theorem test_address_region : regionOf 15493 = 38 := by decide
theorem test_address_yard : decodeLocal 0x0800_F215_2340 = .yard 15493 0x1_2340 := by decide
theorem test_address_fields : pkgOf 0xA800_F215_2340 = 5 ∧ localOf 0xA800_F215_2340 = 0x0800_F215_2340
    ∧ pkgOf 0xFF_E800_F215_2340 = 0x7FF := by decide
-- 01 Example 1: with ALIAS_EN both names reach package 5.
theorem test_address_alias :
    let s := { State.reset with pkg := 5, aliasEn := true }
    s.canonical 0xFF_E800_F215_2340 = 0xA800_F215_2340 ∧ s.isLocal 0xA800_F215_2340 = true := by decide
-- 01, corner cases: the unused half of a yard stride.
theorem test_address_unused_half : resolve 0x0800_0002_8000 8 = none := by decide
-- 01 Example 2, 11 Example 2, 12 Example 1: home agent, slice, set and predictor entry of one line.
theorem test_line_home : homeAgent 0x0012_3456_7040 = 39 ∧ sliceOf 0x0012_3456_7040 = 23
    ∧ setOf 0x0012_3456_7040 = 718 ∧ predKey 0 0x0012_3456_7040 = 0x1B6 := by decide
-- 05 Example 1, step 4: the two slots of bundle b6.
theorem test_bundle_fields : bundleMoves 0x0300_0000_0000_0000_0105_C181_C030_8007#128
    = [{ slot := 0, guard := 0, src := 0x0C2, dst := 0x001, width := 3 },
       { slot := 1, guard := 1, src := 0x05C, dst := 0x181, width := 3 }] := by decide
-- 05 Example 2: the patched slot 0.
theorem test_bundle_patched : bundleMoves 0x0100_0000_0000_0000_0000_0000_0019_8027#128
    = [{ slot := 0, guard := 0, src := 0x066, dst := 0x009, width := 3 }] := by decide
-- 07 Example 1: three draws of lane 0 and the BF16 results they give.
theorem test_lane_states : seedLane 1 0 = 1 ∧ stepLane 1 = 0x0004_2021 ∧ stepLane 0x0004_2021 = 0x0408_0601
    ∧ stepLane 0x0408_0601 = 0x9DCC_A8C5 := by decide
theorem test_lane_draws : topBits 0x0004_2021 12 = 0 ∧ topBits 0x0408_0601 12 = 64
    ∧ topBits 0x9DCC_A8C5 12 = 2524 := by decide
theorem test_stochastic_bf16 : [0, 64, 2524].map (fun r => (bf16.convert { mode := 5, r := r } (fp32.decode 0x3F80_A000)).bits)
    = [0x3F80, 0x3F80, 0x3F81] := by decide
-- 07 Example 2.
theorem test_position_bits : positionBits 1 0 0 0 12 = 0xED3 ∧ positionBits 1 0 0 0 16 = 0xED34 := by decide
-- 07 Example 3: the scale for a largest magnitude of 3.0, and the scaled tensor −3.0, 1.5, NaN, 0.25.
theorem test_scale_from_max : scaleFromMax 0x4008_0000_0000_0000 4 = (7, 0) := by decide +kernel
theorem test_scaled_tensor : [0xC040_0000, 0x3FC0_0000, 0x7FC0_0000, 0x3E80_0000].map
    (fun x => (toCode 4 {} ((fp32.decode x).scale 7)).bits) = [0xFC, 0x74, 0x7F, 0x60] := by decide
-- 07, corner cases: a stochastic FP16 result that rounds past 65,504.
theorem test_stochastic_overflow : fp16.convert { mode := 5, r := 4095 } (fp32.decode 0x477F_EFFF)
      = { bits := 0x7C00, fl := flOverflow ||| flInexact }
    ∧ fp16.convert { mode := 5, r := 4095, sat := true } (fp32.decode 0x477F_EFFF)
      = { bits := 0x7BFF, fl := flSaturated ||| flInexact } := by decide
-- 08 Examples 1 and 2: the fields of VX_CFG, and VLREQ beyond the lanes of FP64.
theorem test_vector_length : cfgVl 0x0064_0001 = 100 ∧ cfgVl 0x07D0_0000 = 128 := by decide
-- 09 Example 1: 2^24 followed by seven ones, unsplit and split unevenly.
theorem test_sum_unsplit : (reduce 1 0 {} ((some 0x4B80_0000 :: List.replicate 7 (some 0x3F80_0000)))).bits
    = 0x4B80_0003 := by decide
theorem test_sum_unaligned :
    let a := (reduce 1 0 {} [some 0x4B80_0000, some 0x3F80_0000, some 0x3F80_0000]).bits
    let b := (reduce 1 0 {} (List.replicate 5 (some 0x3F80_0000))).bits
    (reduce 1 0 {} [some a, some b]).bits = 0x4B80_0002 := by decide
-- 09 Example 2: a row of two parts with an infinity in each.
theorem test_softmax_pair :
    let a := smPartial fp32 1 {} [some 0x4000_0000, some 0x7F80_0000, some 0xBF80_0000, none]
    let b := smPartial fp32 1 {} [some 0x7F80_0000, some 0x4040_0000, some 0xFF80_0000, some 0x3F00_0000]
    let m := smMerge fp32 {} { m := 0xFF80_0000, s := 0 } a
    m = { m := 0x7F80_0000, s := 0x3F80_0000 } ∧ smMerge fp32 {} m b = { m := 0x7F80_0000, s := 0x4000_0000 } := by decide
theorem test_softmax_apply :
    let v : VecCfg := { port := 0x383, code := 1, w := 32, vl := 4, src1 := 0, src2 := 0, dst := 0, mreg := 0, men := false
                        mzero := false, scalar2 := false, scalar := 0, round := {} }
    [0x4000_0000, 0x7F80_0000, 0xBF80_0000].map
      (fun x => smApply v fp32 fp32 { m := 0x7F80_0000, s := 0x4000_0000 } false x)
      = [{ bits := 0 }, { bits := 0x3F00_0000 }, { bits := 0 }] := by decide
-- 10 Example 1: occupancy after 32 and 64 intervals, and the level that the merge takes.
theorem test_ladder_occupancy : evolve 6 32 (0, false) = (2 ^ 5, false) ∧ evolve 6 64 (0, false) = (2 ^ 6, false)
    ∧ evolve 5 64 (0, false) = (2 ^ 5, true) := by decide +kernel
theorem test_merge_level :
    let d : Tile := { (State.reset.core 0).tile 0 with depth := 6, occ := 2 ^ 5, count := 32 }
    mergeLevel d { d with kOrg := 32 } = some 5 ∧ mergeLevel { d with occ := 2 ^ 6, count := 64 } { d with kOrg := 64 } = none := by
  decide
-- 10 Example 2: 256, −256 and six small products in one interval.
theorem test_interval_small : (intervalSum (some 20) ([mulVal (e4m3.decode 0x58) (e4m3.decode 0x58),
    mulVal (e4m3.decode 0x58) (e4m3.decode 0xD8)].map Prod.fst
    ++ List.replicate 6 (mulVal (e4m3.decode 0x10) (e4m3.decode 0x10)).1)).1.isZero = true := by decide
theorem test_interval_kept : (promote 1 {} (intervalSum (some 20) ([mulVal (e4m3.decode 0x58) (e4m3.decode 0x58),
    mulVal (e4m3.decode 0x58) (e4m3.decode 0xD8)].map Prod.fst
    ++ List.replicate 6 (mulVal (e4m3.decode 0x28) (e4m3.decode 0x28)).1)).1).bits = 0x3EC0_0000 := by decide
-- 11 Example 1, steps 1 and 4: which way of a full set a fill takes.
theorem test_victim_ages :
    let at_ := fun (ages : List Nat) => { State.reset with co := { State.reset.co with
      lines := (List.range 16).zipWith (fun i g => (wayKey 0 0 i, { line := 1000 + i, st := .E, age := g, data := [] })) ages } }
    ((at_ [1, 1, 0, 1, 2, 1, 1, 2, 1, 0, 1, 1, 1, 1, 1, 1]).victim 0 0 4).2.map Prod.fst = some (wayKey 0 0 4)
      ∧ ((at_ [2, 2, 1, 2, 1, 2, 2, 0, 2, 1, 2, 2, 2, 2, 2, 2]).victim 0 0 4).2.map Prod.fst = some (wayKey 0 0 0) := by decide
-- 13 Example 1: the local address of semaphore 40,000 and a TIMEOUT result with count 1.
theorem test_semaphore_words : semAddr 40000 = 0x0D00_0027_1000 ∧ semWord semTimeout 1 = 0x0000_0001_0000_0001 := by decide
-- 14 Example 1.
theorem test_digest : blockDigest 0 16 [1] = 0xCEDA_E122_7520_F030 := by decide
-- 15 Example 1: the grants of an epoch and the setting of region 7.
def sampleShares : List Share :=
  [{ r := 4, cls := 0, weight := 0, floor := 40, req := 30, m := 7, base := 30, hold := 10 },
   { r := 5, cls := 1, weight := 3, floor := 20, req := 120, m := 28, base := 28, hold := 0 },
   { r := 6, cls := 1, weight := 1, floor := 20, req := 100, m := 24, base := 24, hold := 0 },
   { r := 7, cls := 2, weight := 0, floor := 0, req := 100, m := 24, base := 24, hold := 0 }]
theorem test_epoch_grants : (grants 300 sampleShares).1.map Share.grant = [30, 120, 100, 40] := by decide +kernel
theorem test_epoch_setting : settings 100 40 750 (60 * 16) = (600, 4) := by decide +kernel
-- 15 Example 2: the cells of one sensor.
theorem test_sensor_cells :
    let s := { State.reset with tf := { State.reset.tf with place := [(5, { rot := 1, mirror := false, x0 := 40000, y0 := 10000 })] } }
    s.sensorAt (21 * 8 + 2) = (37750, 24625) ∧ (splat 37750 24625).map Prod.fst = [266, 267, 298, 299] := by decide
-- 17 Example 1, step 1.
theorem test_package_field : pkgOf 0x51_A000_1000_0000 = 653 ∧ localOf 0x51_A000_1000_0000 = 0x0000_1000_0000 := by decide
-- 19 Example 1, step 1: the low word of ERASE_BEGUN for block 300 of slot B in generation 5.
theorem test_journal_record : ({ type := 1, slot := true, block := 300, gen := 5 } : Record).bytes.take 4
    = [0x91, 0x25, 0x05, 0x00] := by decide
-- 06 Example 1, and 02 Example 1: the beat at 0.65 V and 85 °C is 0.56 ns, and brake level 4 adds 0.20 ns.
theorem test_beat_time : beatAt 650 (85 * 16) = 56 * 80000 ∧ brakeTime 4 = 20 * 80000 := by decide
-- 13 Example 1, steps 5 and 6: a signal at the deadline, the flag doubleword, and the result with count 1.
theorem test_signal_at_deadline :
    let w : Waiter := { caller := 0, op := 1, n := 1, deadline := 5300000 }
    let m : Sem := { st := .owned, owner := 15493, level := 1, flagEn := true, flagAddr := 0x1000 }
    let s := (semState 0x691 1 { m with queue := [w] }).modCore 0 fun k => { k with ops := k.ops.map fun o => { o with stage := .queued } }
    let s := { s with tb := { s.tb with now := 5300000 }, hi := { s.hi with pci := [(1, 4)] } }
    let t := (s.semSignal 5 0x7FFF 1).1
    t.out = [.hostWrite 0x1000 (toBytes 8 0x0001_0001_0000_0001) false] ∧ (t.sem 5).queue = []
      ∧ ((t.core 0).opOf 1).map (fun o => (t.resultWord o).toNat) = some 0x0000_0001_0000_0001 := by decide
-- 17 Example 1: entries whose PRIMARY is the failed port go to the ALTERNATE.
theorem test_route_switched :
    let s := { State.reset with ml := { State.reset.ml with
      routes := [(2 * 653, 0x0000_0354)], ports := [(4, { st := .up }), (5, { st := .up })] } }
    s.route 0 653 = some (4, false) ∧ ({ s with ml := { s.ml with switched := [4] } } : State).route 0 653 = some (5, false) := by
  decide
-- 09, corner cases: three −0 of FP16, whose sum is −0, and a row of −∞.
theorem test_sum_of_negative_zeros : (reduce 3 0 {} [some 0x8000_0000, some 0x8000_0000, some 0x8000_0000, none]).bits
    = 0x8000_0000 := by decide
theorem test_softmax_of_minus_infinity : smPartial fp32 1 {} [some 0xFF80_0000, some 0xFF80_0000, none]
    = { m := 0xFF80_0000, s := 0 } := by decide
-- 20 Example 2: 48 freight and 16 express regions share 2,488 units.
theorem test_loaded_epoch :
    let l : List Share := (List.range 64).map fun r =>
      if r < 48 then { r := r, cls := 2, weight := 0, floor := 20, req := 56, m := 13, base := 20, hold := 0 }
      else { r := r, cls := 0, weight := 0, floor := 60, req := 50, m := 12, base := 50, hold := 10 }
    (grants 2488 l).1.map Share.grant = List.replicate 40 32 ++ List.replicate 8 31 ++ List.replicate 16 50 := by decide +kernel
theorem test_loaded_settings : settings 56 32 750 (60 * 16) = (625, 0) ∧ settings 56 31 750 (60 * 16) = (615, 0)
    ∧ minDraw 56 750 (60 * 16) = 13 := by decide +kernel

end Sys2Proof.Tests
end

section
/-!
O59. Every step keeps the canonical form of the memory (00 R6, 01 R31). What each operation
over the state keeps stands in Sys2Proof/Laws/Canonical.lean; here the commands are taken one
by one, each by the law of the operation that is its meaning.
-/
namespace Sys2Proof.Machine

/-! ## Effects and commands that keep the canonical form -/

/-- An effect after which a canonical memory is still canonical. -/
def KeepsWf (f : State → State) : Prop := ∀ s : State, s.mem.wf = true → (f s).mem.wf = true

/-- A command after which, where it goes on, a canonical memory is still canonical. -/
def ExecKeepsWf (e : State → Host.Outcome State Fault Refusal) : Prop :=
  ∀ s t : State, s.mem.wf = true → e s = .next t → t.mem.wf = true

theorem wf_ite {c : Prop} [Decidable c] {s t : State} (hs : s.mem.wf = true) (ht : t.mem.wf = true) :
    (if c then s else t).mem.wf = true := by
  split <;> assumption

/-- A command that reaches the device whatever PERST_N is. -/
theorem ExecKeepsWf.always {ok : Bool} {f : State → State} (hf : KeepsWf f) :
    ExecKeepsWf fun s => need ok s f := by
  intro s t hs h
  obtain ⟨-, rfl⟩ := need_next h
  exact hf s hs

/-- A command that a device held in reset ignores (log 14). -/
theorem ExecKeepsWf.device {ok : Bool} {f : State → State} (hf : KeepsWf f) :
    ExecKeepsWf fun s => need ok s fun s => whenUp s f :=
  .always fun _ hs => whenUp_wf hs hf

/-- A command that acts only where the lines of HBM that it touches can be served (log 74). -/
theorem ExecKeepsWf.served {ok : Bool} {f : State → State} (hf : KeepsWf f) :
    ExecKeepsWf fun s => need ok s fun s => whenUp s fun s => State.whenServed (fun s => f s) s :=
  .device fun s hs => State.whenServed_wf f s hf hs

/-- A command of a configuration image (03 R69). -/
theorem ExecKeepsWf.imageRow {ok : Bool} {op : Nat} {f : State → Load → W32 → State}
    (hf : ∀ l w, KeepsWf fun s => f s l w) :
    ExecKeepsWf fun s => need ok s fun s => whenUp s fun s => s.atCommand op fun s l w => f s l w :=
  .device fun s hs => s.atCommand_wf op f hs fun s l w => hf l w s

/-- A command of a configuration image that stands in its part (03 R70-R72). -/
theorem ExecKeepsWf.imagePart {ok : Bool} {op : Nat} {f : State → Load → W32 → State}
    (hf : ∀ l w, KeepsWf fun s => f s l w) :
    ExecKeepsWf fun s => need ok s fun s => whenUp s fun s =>
      s.atCommand op fun s l w => s.inPlace l w 0 fun s => f s l w :=
  .imageRow fun l w s hs => s.inPlace_wf l w 0 _ hs (hf l w)

/-! ## Commands that do more than one thing -/

theorem execPerstNRise_keepsWf (bootsel pwrceil : BitVec 2) (refclk : Bool) (store : Option Flash) :
    ExecKeepsWf (execPerstNRise bootsel pwrceil refclk store) := by
  intro s t hs h
  obtain ⟨-, rfl⟩ := need_next h
  exact onlyIf_wf hs fun t ht => t.afterPerst_wf bootsel pwrceil refclk store ht

theorem execTrainingComplete_keepsWf (p peerPkg peerPort : Nat) :
    ExecKeepsWf (execTrainingComplete p peerPkg peerPort) :=
  .device fun s hs => wf_ite (State.modPort_wf _ _ _ (s.portTo_wf p _ hs)) hs

theorem execUartTxByte_keepsWf (u : Nat) : ExecKeepsWf (execUartTxByte u) :=
  .device fun s hs => by
    dsimp only
    split
    · exact wf_ite (State.emit_wf _ _ (s.setUart_wf u _ hs)) hs
    · exact hs

theorem execGpioParkEnd_keepsWf (p : Nat) (level : Bool) : ExecKeepsWf (execGpioParkEnd p level) :=
  .device fun s hs => by
    dsimp only
    split
    · exact wf_ite (State.sampleDriven_wf _ p (State.setLevel_wf _ p level (s.setGpio_wf p _ hs))) hs
    · exact hs

theorem execTpoEdge_keepsWf (n : Nat) : ExecKeepsWf (execTpoEdge n) :=
  .device fun _ hs => wf_forN (fun p t ht => wf_ite (t.sampleDriven_wf p ht) ht) hs

theorem execExtEdge_keepsWf (p : Nat) : ExecKeepsWf (execExtEdge p) :=
  .device fun s hs => wf_ite (State.setLevel_wf _ p false (s.setGpio_wf p _ hs)) hs

theorem execPmbusPoll_keepsWf (b : Nat) (answer : Option W64) : ExecKeepsWf (execPmbusPoll b answer) :=
  .device fun s hs => by
    refine wf_ite ?_ hs
    cases answer <;> exact hs

theorem execRailInRange_keepsWf (rail : Rail) (smbaddr : BitVec 2) : ExecKeepsWf (execRailInRange rail smbaddr) :=
  .always fun _ hs => wf_ite hs (wf_ite (State.raDrive_wf _ hs) hs)

theorem execRailOutOfRange_keepsWf (rail : Rail) : ExecKeepsWf (execRailOutOfRange rail) :=
  .always fun _ hs => wf_ite (wf_ite (State.railLoss_wf _ hs) hs) hs

theorem execHbmTrainTimeout_keepsWf (failed : BitVec 8) : ExecKeepsWf (execHbmTrainTimeout failed) :=
  .device fun s hs => by
    refine wf_ite ?_ hs
    have hlog := State.log_wf { s with pw := { s.pw with hbm := .failed, hbmBad := failed } }
      0x0E 31 none srcErrorLog 0 failed.toNat hs
    dsimp only
    split
    · exact wf_ite (State.endLoad_wf _ _ _ _ hlog) hlog
    · exact hlog

theorem execRaQualified_keepsWf : ExecKeepsWf execRaQualified :=
  .device fun _ hs => wf_ite (State.modLoad_wf _ _ hs) hs

theorem execRightAwayTimeout_keepsWf : ExecKeepsWf execRightAwayTimeout :=
  .device fun s hs => by
    refine wf_ite ?_ hs
    split
    · exact s.endLoad_wf _ _ _ hs
    · exact hs

theorem execRaLowEvent_keepsWf : ExecKeepsWf execRaLowEvent :=
  .device fun _ hs => by
    dsimp only
    split
    · exact wf_ite (State.hostEvent_wf _ 2 (State.regionError_wf _ hs)) hs
    · exact hs

theorem execEpoch_keepsWf : ExecKeepsWf execEpoch :=
  .device fun _ hs => by
    dsimp only
    split
    · exact hs
    · exact wf_ite (State.grantEpoch_wf _ _ _ hs) hs

theorem execBrakeReevaluate_keepsWf (r : Nat) : ExecKeepsWf (execBrakeReevaluate r) :=
  .device fun s hs => wf_ite (State.brakeChange_wf _ r _ (s.vcore_wf r hs)) hs

theorem execPwrCapNAssert_keepsWf (lowNs : Nat) : ExecKeepsWf (execPwrCapNAssert lowNs) :=
  .always fun s hs => whenUp_wf (s := { s with pw := { s.pw with capLow := true } }) hs fun t ht =>
    wf_ite (State.alert_wf _ 1 (State.capBrakes_wf _ (t.fresh_wf ht))) (t.fresh_wf ht)

theorem execPwrCapNRelease_keepsWf : ExecKeepsWf execPwrCapNRelease :=
  .always fun s hs => whenUp_wf (s := { s with pw := { s.pw with capLow := false } }) hs fun _ ht =>
    State.capBrakes_wf _ ht

theorem execNop_keepsWf : ExecKeepsWf execNop :=
  .imageRow fun l _ s hs => s.wholeCommand_wf l _ _ _ hs fun _ _ ht => ht

theorem execDeclare_keepsWf : ExecKeepsWf execDeclare :=
  .imagePart fun l _ s hs => s.wholeCommand_wf l _ _ _ hs fun t _ ht => t.modLoad_wf _ ht

/-- The words of a command are taken and its part of the image is entered. -/
theorem State.enterPart_takeWords_wf (s : State) (l : Load) (n : Nat) (p : LoadPart) (hs : s.mem.wf = true) :
    ((s.takeWords n).enterPart l p).mem.wf = true :=
  State.enterPart_wf _ l p (s.takeWords_wf n hs)

theorem execPark_keepsWf : ExecKeepsWf execPark :=
  .imagePart fun l _ s hs =>
    State.parkRegion_wf _ _ (State.modLoad_wf _ _ (s.enterPart_takeWords_wf l 1 .parks hs))

theorem execIsolate_keepsWf : ExecKeepsWf execIsolate :=
  .imagePart fun l _ s hs =>
    have hload := State.modLoad_wf _ _ (s.enterPart_takeWords_wf l 1 .isolates hs)
    wf_ite (State.parkRegion_wf _ _ (State.modRegion_wf _ _ _ hload)) (State.isolateRegion_wf _ _ hload)

theorem execWriteFrames_keepsWf : ExecKeepsWf execWriteFrames :=
  .imagePart fun l w s hs => by
    refine State.modLoad_wf _ _ ?_
    split
    · exact s.enterPart_takeWords_wf l 1 _ hs
    · exact s.takeWords_wf 1 hs

theorem execBcastFrames_keepsWf : ExecKeepsWf execBcastFrames :=
  .imagePart fun l _ s hs => s.wholeCommand_wf l _ _ _ hs fun t _ ht =>
    State.modLoad_wf _ _ (t.enterPart_wf l .fabric ht)

theorem execFrameApply_keepsWf : ExecKeepsWf execFrameApply :=
  .device fun s hs => by
    split
    · exact wf_ite (s.nextFrame_wf _ false hs) hs
    · exact hs

theorem execBcastFrameApply_keepsWf : ExecKeepsWf execBcastFrameApply :=
  .device fun s hs => by
    split
    · exact wf_ite (s.nextFrame_wf _ true hs) hs
    · exact hs

theorem execWaitRightAway_keepsWf : ExecKeepsWf execWaitRightAway :=
  .imagePart fun _ _ s hs => s.takeWords_wf 1 hs

theorem execStart_keepsWf : ExecKeepsWf execStart :=
  .imagePart fun l _ s hs => by
    refine wf_forEach (fun p t ht => State.startRegion_wf _ p.1 (wf_ite ht (t.reviveRange_wf p.1 p.2 ht))) ?_
    exact State.modLoad_wf _ _ (s.enterPart_takeWords_wf l 1 .starts hs)

theorem execUnisolate_keepsWf : ExecKeepsWf execUnisolate :=
  .imagePart fun l _ s hs => by
    refine wf_forEach (fun r t ht => t.unisolateRegion_wf r ht) ?_
    exact State.modLoad_wf _ _ (s.enterPart_takeWords_wf l 1 .unisolates hs)

theorem execAlertResponse_keepsWf : ExecKeepsWf execAlertResponse :=
  .always fun s hs => wf_ite (State.alertLine_wf _ (s.emit_wf _ hs)) (s.emit_wf _ hs)

/-- A read that the SMBus target answers and that changes nothing else (19 R552). -/
theorem ExecKeepsWf.smbRead {ok low : Bool} {o : State → Output} :
    ExecKeepsWf fun s => need ok s fun s => s.smbTakes low fun s => s.emit (o s) :=
  .always fun s hs => s.smbTakes_wf low _ hs fun t ht => t.emit_wf _ ht

/-- A write that the SMBus target takes (19 R552). -/
theorem ExecKeepsWf.smbWrite {ok low pecOk : Bool} {f : State → State} (hf : KeepsWf f) :
    ExecKeepsWf fun s => need ok s fun s => s.smbWrite low pecOk fun s => f s :=
  .always fun s hs => s.smbWrite_wf low pecOk f hs hf

/-! ## Every command -/

theorem exec_keepsWf (i : Instr) : ExecKeepsWf (exec i) := by
  unfold exec
  cases i with
  | perstNRise bootsel pwrceil refclk store => exact execPerstNRise_keepsWf bootsel pwrceil refclk store
  | perstNAssert => exact .always fun s => s.resetAll_wf
  | railInRange rail smbaddr => exact execRailInRange_keepsWf rail smbaddr
  | railOutOfRange rail => exact execRailOutOfRange_keepsWf rail
  | timebaseTick _ => exact .always fun _ hs => hs
  | refLost => exact .device State.loseRef_wf
  | refclkLock => exact .device fun _ hs => hs
  | refLostClear => exact .device State.clearRefLost_wf
  | hbmReady => exact .device fun _ hs => wf_ite hs hs
  | hbmTrainTimeout failed => exact execHbmTrainTimeout_keepsWf failed
  | bootStoreScan => exact .device fun s hs => wf_ite (s.bootScan_wf hs) hs
  | winProducedWrite words => exact .device fun s => s.winProduced_wf words
  | go => exact .device fun s => s.loadWrite_wf true false
  | abort => exact .device fun s => s.loadWrite_wf false true
  | sync => exact .device fun s => s.syncRow_wf
  | nop => exact execNop_keepsWf
  | declare => exact execDeclare_keepsWf
  | admission => exact .device fun s => s.admission_wf
  | writeCfg => exact .imagePart fun l w s => s.writeCfgRow_wf l w
  | setFar => exact .imageRow fun l w s => s.setFarRow_wf l w
  | writeFrames => exact execWriteFrames_keepsWf
  | bcastFrames => exact execBcastFrames_keepsWf
  | frameApply => exact execFrameApply_keepsWf
  | bcastFrameApply => exact execBcastFrameApply_keepsWf
  | park => exact execPark_keepsWf
  | regionParked r prog => exact .device fun s => s.regionParked_wf r prog
  | isolate => exact execIsolate_keepsWf
  | checkEnd => exact .imagePart fun l _ s => s.checkEndRow_wf l
  | waitRightAway => exact execWaitRightAway_keepsWf
  | raRelease => exact .device fun s hs => wf_ite (s.raReleaseLine_wf hs) hs
  | rightAwayRise => exact .always fun _ hs => wf_ite hs hs
  | rightAwayFall => exact .always fun _ hs => wf_ite hs hs
  | raQualified => exact execRaQualified_keepsWf
  | rightAwayTimeout => exact execRightAwayTimeout_keepsWf
  | raLowEvent => exact execRaLowEvent_keepsWf
  | start => exact execStart_keepsWf
  | unisolate => exact execUnisolate_keepsWf
  | loadEnd => exact .imagePart fun _ _ s hs => State.loadDone_wf _ (s.takeWords_wf 1 hs)
  | rgnCtrlPark r src => exact .device fun s => s.ctrlPark_wf r src
  | run r src => exact .device fun s => s.ctrlRun_wf r src
  | reset r src => exact .device fun s => s.ctrlReset_wf r src
  | clearRed r src => exact .device fun s => s.ctrlClearRed_wf r src
  | rgnHoldClear r park reset src => exact .device fun s => s.rgnHold_wf r park reset src
  | registerWrite src t size v => exact .device fun s => s.registerWrite_wf src t size v
  | bundleExecute c stale ecc frame =>
    exact .device fun s hs => State.bundleExecute_wf _ c stale ecc frame (s.unpark_wf c hs)
  | scalarOpComplete c _ => exact .device fun s => s.modCore_wf c _
  | memoryResponse c id host ecc => exact .device fun s => s.memoryResponse_wf c id host ecc
  | storeAccepted c id ecc => exact .device fun s => s.storeAccepted_wf c id ecc
  | fenceComplete c => exact .device fun s => s.modCore_wf c Core.fenceDone
  | guestAck c => exact .device fun s hs => wf_ite (s.guestAnswer_wf c hs) hs
  | guestTimeout c => exact .device fun s hs => wf_ite (s.guestExpire_wf c hs) hs
  | guestLogicInterrupt c => exact .device fun s => s.guestInterrupt_wf c
  | cpTimerCmpWrite c v => exact .device fun s => s.timerWrite_wf c v
  | coreTimer c => exact .device fun s hs => wf_ite (s.modCore_wf c _ hs) hs
  | interruptEntry c prog => exact .device fun s hs => State.interruptEntry_wf _ c prog (s.unpark_wf c hs)
  | exceptionEntry c => exact .device fun s hs => State.exceptionEntry_wf _ c (s.unpark_wf c hs)
  | convertComplete c => exact .device fun s => s.modCore_wf c _
  | vectorOpComplete c => exact .device fun s => s.modCore_wf c Core.vecStep
  | intervalStep c ecc => exact .device fun s => s.intervalStep_wf c ecc
  | trainHeader c => exact .device fun s hs => State.headerFor_wf _ c true (s.headerFor_wf c false hs)
  | matrixOpComplete c ecc => exact .device fun s => s.matrixComplete_wf c ecc
  | tmoveComplete c => exact .device fun s => s.modCore_wf c Core.moveComplete
  | remoteYardAccess c id ecc => exact .device fun s => s.remoteYard_wf c id ecc
  | sliceAccess c id ecc => exact .device fun s => s.sliceAccess_wf c id ecc
  | sidingIssue slice => exact .device fun s => s.sidingIssue_wf slice
  | sidingRetire k => exact .device fun s => s.sidingRetire_wf k
  | awRangeWrite n v src => exact .device fun s => s.awRange_wf n v fullMask src
  | awAttrWrite n v src => exact .device fun s => s.awAttr_wf n v src
  | homeRequest k => exact .device fun s => s.homeRequest_wf k
  | forwardedRequest k => exact .device fun s => s.forwardedRequest_wf k
  | probe k => exact .device fun s => s.probeEvent_wf k
  | probeResponse k => exact .device fun s => s.probeResponse_wf k
  | lineGrant k => exact .device fun s => s.lineGrant_wf k
  | tabletHoldEnd slice line => exact .device fun s => s.holdEnds_wf slice line
  | writebackArrival k => exact .device fun s => s.writebackArrival_wf k
  | farAtomic agent => exact .device fun s => s.farAtomic_wf agent
  | coPredClear src => exact .device fun s => s.predClear_wf src
  | signal q => exact .device fun s => s.semRow_wf q [0x690]
  | wait q => exact .device fun s => s.semRow_wf q [0x691, 0x698]
  | trywait q => exact .device fun s => s.semRow_wf q [0x692]
  | claim q => exact .device fun s => s.semRow_wf q [0x693]
  | release q => exact .device fun s => s.semRow_wf q [0x694]
  | read q => exact .device fun s => s.semRow_wf q [0x695]
  | revive q => exact .device fun s => s.semRow_wf q [0x696]
  | init q => exact .device fun s => s.semRow_wf q [0x697]
  | waitDeadline sem => exact .device fun s => s.semExpire_wf sem
  | carriedSignal q => exact .device fun s => s.carriedSignal_wf q
  | semaphoreResult c id => exact .device fun s => s.semResult_wf c id
  | lookup q => exact .served fun s => s.lookupStart_wf q
  | lookupBlock q => exact .served fun s => s.lookupBlock_wf q
  | insert q => exact .served fun s => s.dxServe_wf q 0x711
  | pin q => exact .served fun s => s.dxServe_wf q 0x712
  | depotRelease q => exact .served fun s => s.dxServe_wf q 0x713
  | ageScan q => exact .served fun s => s.dxServe_wf q 0x714
  | depotAsyncComplete c => exact .device fun s => s.asyncComplete_wf c
  | depotSlotTrigger slot port v => exact .device fun s => s.slotTrigger_wf slot port v srcHost
  | epoch => exact execEpoch_keepsWf
  | brakeReevaluate r => exact execBrakeReevaluate_keepsWf r
  | telemetrySample _ _ _ => exact .device fun _ hs => wf_ite (State.thermtrip_wf _ hs) hs
  | picture => exact .device fun s hs => wf_ite (s.takePicture_wf _ hs) hs
  | pwrCapNAssert lowNs => exact execPwrCapNAssert_keepsWf lowNs
  | pwrCapNRelease => exact execPwrCapNRelease_keepsWf
  | sbBoardCeilWrite src v => exact .device fun s => s.boardCeilWrite_wf src (bits v 11 0)
  | thermtripClear => exact .device State.clearTrip_wf
  | configRequest offset size write => exact .device fun s => s.configRequest_wf offset size write
  | bar2Read offset len ecc => exact .served fun s => s.bar2Read_wf offset len ecc
  | bar2Write offset bytes ecc => exact .served fun s => s.bar2Write_wf offset bytes ecc
  | bar2AtomicOp op offset size operand compare ecc =>
    exact .served fun s => s.bar2Atomic_wf op offset size operand compare ecc
  | hostReadFailure c id => exact .device fun s => s.hostReadFailure_wf c id
  | hiCoreDbWrite v => exact .device fun s => s.coreDoorbell_wf (bits v 14 0)
  | functionLevelReset => exact .device fun s => s.functionLevelReset_wf
  | msixUnmask vector => exact .device fun _ hs => State.msixFlush_wf _ vector hs
  | hiQTailWrite q v src => exact .device fun s => s.queueTail_wf q v src
  | queueEnableWrite q _ => exact .device fun s => s.setQueue_wf q _
  | queueReset q => exact .device fun s => s.resetDma_wf q
  | dmaDescriptorStart q ring ecc => exact .served fun s => s.startDma_wf q ring ecc
  | dmaDescriptorComplete q host ecc => exact .served fun s => s.completeDma_wf q host ecc
  | codewordReceive p _ => exact .device fun s hs => wf_ite (s.modPort_wf p _ hs) hs
  | markerCodeword _ => exact .device fun s hs => wf_ite (s.emit_wf _ hs) hs
  | packetSend p vc => exact .device fun s => s.packetSend_wf p vc
  | packetReceive p => exact .device fun s hs => wf_ite (s.packetReceive_wf p hs) hs
  | linkControl p => exact .device fun s => s.linkControlAt_wf p
  | replayTimeout p => exact .device fun s hs => wf_ite (s.resend_wf p hs) hs
  | remoteRequest ecc => exact .served fun s => s.remoteFront_wf false ecc
  | respTimeout k => exact .device fun s => s.respTimeout_wf k
  | trainingComplete p peerPkg peerPort => exact execTrainingComplete_keepsWf p peerPkg peerPort
  | portFail p => exact .device fun s hs => wf_ite (s.leaveUp_wf p .failed hs) hs
  | mlPortEnableWrite p enable src => exact .device fun s => s.portEnable_wf p enable src
  | retrain p src => exact .device fun s => s.portRetrain_wf p src
  | timebaseExchange _ _ _ _ parentSynced =>
    exact .device fun s hs => wf_ite (s.exchange_wf _ parentSynced hs) hs
  | configPatrol t ecc => exact .device fun s => s.patrolAt_wf t ecc
  | hbmScrub line ecc => exact .device fun s hs => wf_ite (s.hbmEcc_wf line ecc hs) hs
  | engineRecovered e unit ecc => exact .device fun s => s.engineEcc_wf e unit ecc
  | ecHeadWrite v => exact .device fun s => s.ecHead_wf v
  | smbusReady => exact .always fun _ hs => wf_ite hs hs
  | identity => exact .smbRead
  | status => exact .smbRead
  | alertRead => exact .smbRead
  | alertWrite _ _ => exact .smbWrite fun s => s.writeAlert_wf _ _
  | alertResponse => exact execAlertResponse_keepsWf
  | boardCeilRead => exact .smbRead
  | boardCeilWrite _ _ => exact .smbWrite fun s => s.boardCeilWrite_wf srcSmbus _
  | power => exact .smbRead
  | temps => exact .smbRead
  | regAddr _ _ => exact .smbWrite fun s hs => wf_ite hs (s.emit_wf _ hs)
  | regDataRead => exact .always fun s hs => s.smbTakes_wf false _ hs fun t => t.registerRead_wf srcSmbus _ 8
  | regDataWrite v _ => exact .smbWrite fun s => s.registerWrite_wf srcSmbus _ 8 v
  | flashRead src => exact .device fun s => s.flashCommand_wf 1 s.sd.flSlot s.sd.flLen src
  | program src len => exact .device fun s => s.flashCommand_wf 2 s.sd.flSlot len src
  | slotErase src slot => exact .device fun s => s.flashCommand_wf 3 slot s.sd.flLen src
  | eraseBlockDone => exact .always State.blockErased_wf
  | commit src slot => exact .device fun s => s.flashCommand_wf 4 slot s.sd.flLen src
  | rescan src => exact .device fun s => s.flashCommand_wf 5 s.sd.flSlot s.sd.flLen src
  | uartDataWrite u b => exact .device fun s => s.uartPut_wf u b
  | uartTxByte u => exact execUartTxByte_keepsWf u
  | uartRxByte u _ => exact .device fun s hs => wf_ite (s.setUart_wf u _ hs) hs
  | extest => exact .always fun s => s.jtagDrive_wf 0 _
  | idcode => exact .always fun s hs => State.emit_wf _ _ (s.jtag_wf 1 hs)
  | samplePreload pins _ => exact .always fun s hs => State.emit_wf _ (.jtag pins.toNat) (s.jtag_wf 2 hs)
  | clamp => exact .always fun s => s.jtagDrive_wf 4 _
  | highz => exact .always fun s => s.jtagDrive_wf 5 none
  | bypass code => exact .always fun s => s.jtag_wf code
  | gpioFuncWrite p func src => exact .device fun s => s.gpioFunc_wf p func src
  | gpioParkEnd p level => exact execGpioParkEnd_keepsWf p level
  | tpoEdge n => exact execTpoEdge_keepsWf n
  | extEdge p => exact execExtEdge_keepsWf p
  | pmbusPoll b answer => exact execPmbusPoll_keepsWf b answer
  | registerRead src t size => exact .device fun s => s.registerRead_wf src t size
  | pcieLinkUp _ _ _ => exact .device fun _ hs => hs
  | flashCommandDone => exact .device State.flashDone_wf
  | resumedEraseTimeout => exact .device fun _ hs => wf_ite (State.chooseSlot_wf _ hs) hs

theorem step_keepsWf : ExecKeepsWf step := by
  intro s t hs h
  unfold step at h
  split at h
  · cases h
    exact hs
  · next i rest _ => exact exec_keepsWf i { s with pending := rest } t hs h

/-- Settles O59: no command touches the memory but by operations that keep its canonical form. -/
theorem memoryStaysCanonical : Obligations.MemoryStaysCanonical := step_keepsWf

end Sys2Proof.Machine
end

section
/-!
O24. Accesses of system registers through BAR0 (00 R577, Table 0.3; 01 R39, R42, R46; 04 R581):
what REGISTER_READ and REGISTER_WRITE do at a naturally aligned place, and what a refused
access of the host leaves behind.
-/
namespace Sys2Proof.Machine

/-! ## A refused access of the host (01 R42, 16 Table 16.3) -/

theorem State.sendMsix_errKind (s : State) (v : Nat) : (s.sendMsix v).hi.errKind = s.hi.errKind := by
  unfold State.sendMsix
  simp only
  (repeat' split) <;> rfl

theorem State.hostEvent_errKind (s : State) (e : Nat) : (s.hostEvent e).hi.errKind = s.hi.errKind := by
  unfold State.hostEvent
  simp only
  split
  · exact s.sendMsix_errKind _
  · rfl

theorem State.notifyLog_errKind (s : State) (sev : Nat) : (s.notifyLog sev).hi.errKind = s.hi.errKind := by
  unfold State.notifyLog
  split
  · exact s.hostEvent_errKind 0
  · split
    · rfl
    · exact State.hostEvent_errKind _ 0

/-- A log entry leaves HI_ERR_LAST alone. -/
theorem State.log_errKind (s : State) (kind die : Nat) (region : Option Nat) (src : Source) (addr detail : Nat) :
    (s.log kind die region src addr detail).hi.errKind = s.hi.errKind := by
  unfold State.log State.writeLog
  simp only
  split <;> exact s.notifyLog_errKind _

theorem State.hostFailure_errKind (s : State) (read : Bool) (kind addr bar : Nat) :
    (s.hostFailure read kind addr bar).hi.errKind = BitVec.ofNat 8 kind := by
  unfold State.hostFailure
  simp only
  (repeat' split) <;> exact State.log_errKind _ _ _ _ _ _ _

/-- A failed access makes the one log entry of kind 0x0A. -/
theorem State.hostFailure_ec (s : State) (read : Bool) (kind addr bar : Nat) :
    (s.hostFailure read kind addr bar).ec
      = (State.log { s with hi := { s.hi with errKind := BitVec.ofNat 8 kind, errAddr := BitVec.ofNat 56 addr } }
          0x0A 31 none srcHost (if kind = 1 then 0 else addr) bar).ec := by
  unfold State.hostFailure
  simp only
  (repeat' split) <;> rfl

theorem State.hostFailure_logged (s : State) (read : Bool) (kind addr bar : Nat) (h : LogRoom s) :
    Logged s (s.hostFailure read kind addr bar) 0x0A := by
  obtain ⟨htail, hentry⟩ := State.log_entry
    { s with hi := { s.hi with errKind := BitVec.ofNat 8 kind, errAddr := BitVec.ofNat 56 addr } }
    0x0A 31 none srcHost (if kind = 1 then 0 else addr) bar h
  unfold Logged
  rw [State.hostFailure_ec]
  exact ⟨htail, _, hentry, rfl, rfl⟩

theorem State.hostFailure_sameBut (s : State) (read : Bool) (kind addr bar : Nat) :
    SameBut [.hi, .ec, .out] s (s.hostFailure read kind addr bar) := by
  intro p hp
  cases p <;> simp [Part.same] at hp ⊢

/-- The completion of a read that fails is the last thing that leaves. -/
theorem State.hostFailure_read_out (s : State) (kind addr bar : Nat) :
    ∃ l, (s.hostFailure true kind addr bar).out
      = .completion (if kind = 1 then .unsupported else .aborted) [] :: l := ⟨_, rfl⟩

/-! ## What BAR0 reaches below 0xC0_0000 (16 Table 16.2) -/

theorem regAccess_iff {o n : Nat} : regAccess o n = true ↔ (n = 4 ∨ n = 8) ∧ o % n = 0 := by
  simp [regAccess]

theorem regAccess_eq_false {o n : Nat} (h : (n ≠ 4 ∧ n ≠ 8) ∨ o % n ≠ 0) : regAccess o n = false := by
  rw [← Bool.not_eq_true, regAccess_iff]
  rintro ⟨hn, hal⟩
  rcases h with ⟨h4, h8⟩ | h
  · exact hn.elim h4 h8
  · exact h hal

theorem State.barLoc_bar0 (s : State) {o : Nat} (n : Nat) (ho : o < 0xC0_0000) :
    s.barLoc (.bar0 o) n = if regAccess o n then .loc (.sysreg o) else .nothing := by
  have hring : ¬(0xC0_0000 ≤ o ∧ o < 0xD0_0000 ∧ wholeAccess o n = true) := by omega
  have hmsix : ¬(0xE0_0000 ≤ o ∧ o < 0xE0_8000 ∧ wholeAccess o n = true) := by omega
  have hpba : ¬(0xE1_0000 ≤ o ∧ o < 0xE1_0100 ∧ wholeAccess o n = true) := by omega
  simp only [State.barLoc, if_neg hring, if_neg hmsix, if_neg hpba, if_pos ho]
  cases regAccess o n <;> rfl

theorem State.barLoc_bar0_reg (s : State) {o n : Nat} (h : regAccess o n = true) (ho : o < 0xC0_0000) :
    s.barLoc (.bar0 o) n = .loc (.sysreg o) := by
  rw [s.barLoc_bar0 n ho, if_pos h]

theorem State.barLoc_bar0_nothing (s : State) {o n : Nat} (h : regAccess o n = false) (ho : o < 0xC0_0000) :
    s.barLoc (.bar0 o) n = .nothing := by
  rw [s.barLoc_bar0 n ho, h]
  rfl

/-! ## REGISTER_WRITE and REGISTER_READ of a device out of reset -/

theorem exec_registerWrite_up {s : State} (h : s.pw.perst = true) (src : Source) (t : RegTarget) (n : Nat) (v : W64) :
    exec (.registerWrite src t n v) s = .next (s.registerWrite src t n v) :=
  congrArg Host.Outcome.next (whenUp_up h fun s => s.registerWrite src t n v)

theorem exec_registerRead_up {s : State} (h : s.pw.perst = true) (src : Source) (t : RegTarget) (n : Nat) :
    exec (.registerRead src t n) s = .next (s.registerRead src t n) :=
  congrArg Host.Outcome.next (whenUp_up h fun s => s.registerRead src t n)

/-- A write that registers take does what the register does with the bits it carries (00 R577). -/
theorem exec_registerWrite_bar0 {s : State} (h : s.pw.perst = true) (src : Source) {o n : Nat} (v : W64)
    (hr : regAccess o n = true) (ho : o < 0xC0_0000) :
    exec (.registerWrite src (.bar0 o) n v) s
      = .next (s.sysWrite (o / 8 * 8) (laneIn o n v) (laneMask o n) src false) := by
  rw [exec_registerWrite_up h, State.registerWrite, s.barLoc_bar0_reg hr ho]
  rfl

/-- A read of the host that registers take returns the bytes of the register. -/
theorem exec_registerRead_bar0 {s : State} (h : s.pw.perst = true) {o n : Nat}
    (hr : regAccess o n = true) (ho : o < 0xC0_0000) :
    exec (.registerRead srcHost (.bar0 o) n) s
      = .next ((s.sysReadEffect (o / 8 * 8) (laneMask o n)).emit
          (.completion .success (toBytes n (laneOut o n (s.sysRead (o / 8 * 8))).toNat))) := by
  rw [exec_registerRead_up h, State.registerRead, s.barLoc_bar0_reg hr ho]
  rfl

/-- A write of the host that registers do not take is refused as unmapped. -/
theorem exec_registerWrite_bar0_refused {s : State} (h : s.pw.perst = true) {o n : Nat} (v : W64)
    (hr : regAccess o n = false) (ho : o < 0xC0_0000) :
    exec (.registerWrite srcHost (.bar0 o) n v) s = .next (s.hostFailure false 1 o o) := by
  rw [exec_registerWrite_up h, State.registerWrite, s.barLoc_bar0_nothing hr ho]
  rfl

theorem exec_registerRead_bar0_refused {s : State} (h : s.pw.perst = true) {o n : Nat}
    (hr : regAccess o n = false) (ho : o < 0xC0_0000) :
    exec (.registerRead srcHost (.bar0 o) n) s = .next (s.hostFailure true 1 o o) := by
  rw [exec_registerRead_up h, State.registerRead, s.barLoc_bar0_nothing hr ho]
  rfl

/-! ## The lanes of a 32-bit and of a 64-bit access (00 R577) -/

theorem laneMask_eight {o : Nat} (h : o % 8 = 0) : laneMask o 8 = BitVec.allOnes 64 := by
  rw [laneMask, h]
  rfl

/-- The low half of a register that holds a word of 32 bits is that word. -/
theorem laneOut_low {o : Nat} (h : o % 8 = 0) (w : W32) : (laneOut o 4 (w.setWidth 64)).toNat = w.toNat := by
  have := w.isLt
  simp only [laneOut, h, BitVec.toNat_ofNat, BitVec.toNat_setWidth]
  omega

/-- The high half of a register that holds a word of 32 bits is 0. -/
theorem laneOut_high {o : Nat} (h : o % 8 = 4) (w : W32) : (laneOut o 4 (w.setWidth 64)).toNat = 0 := by
  have := w.isLt
  simp only [laneOut, h, BitVec.toNat_ofNat, BitVec.toNat_setWidth]
  omega

/-! ## Identity registers and CC_RWP_IGNORED (04 R581) -/

/-- Of the identity registers only ID_PKG can be written. -/
theorem State.sysWrite_id_fixed (s : State) {o : Nat} (v m : W64) (src : Source) (rwp : Bool)
    (ho : o < 0x10_0000) (h : o ≠ 0x020) : s.sysWrite o v m src rwp = s := by
  have hpage : o / 0x10_0000 = 0 := by omega
  have hmod : o % 0x10_0000 = o := by omega
  simp [State.sysWrite, hpage, hmod, State.writeId, h]

/-- A write of ID_PKG that carries any bit of its fields, outside the junction section of a
full load, is ignored and counted. -/
theorem State.sysWrite_idPkg_refused (s : State) (v : W64) {m : W64} (src : Source) (hm : carries m 0x1_07FF = true) :
    s.sysWrite 0x020 v m src false = s.rwpRefused := by
  show s.writeId 0x020 v m false = s.rwpRefused
  rw [State.writeId, if_pos ⟨rfl, hm⟩]
  rfl

theorem State.sysRead_rwpIgnored (s : State) : s.sysRead 0x10_0048 = s.cc.rwpIgnored.setWidth 64 := rfl

/-- A read of CC_RWP_IGNORED that carries all of its field clears it. -/
theorem State.sysReadEffect_rwpIgnored (s : State) (m : W64) :
    s.sysReadEffect 0x10_0048 m
      = if covers m 31 0 then { s with cc := { s.cc with rwpIgnored := 0 } } else s := by
  simp [State.sysReadEffect, State.clearCc]

/-- Settles O24: below 0xC0_0000 BAR0 reaches a system register exactly where the access is
naturally aligned and of 32 or 64 bits, and nothing elsewhere. -/
theorem registerAccess : Obligations.RegisterAccess := by
  refine ⟨?aligned_write, ?aligned_read, ?refused, ?identity, ?rwpIgnored⟩
  case aligned_write =>
    intro s src o n v hs hn hal ho
    exact exec_registerWrite_bar0 hs src v (regAccess_iff.2 ⟨hn, hal⟩) ho
  case aligned_read =>
    intro s o n hs hn hal ho
    exact exec_registerRead_bar0 hs (regAccess_iff.2 ⟨hn, hal⟩) ho
  case refused =>
    intro s o n v hs ho hbad hroom
    have hr := regAccess_eq_false hbad
    obtain ⟨l, hl⟩ := s.hostFailure_read_out 1 o o
    exact ⟨⟨_, exec_registerWrite_bar0_refused hs v hr ho, s.hostFailure_errKind _ _ _ _,
        s.hostFailure_logged _ _ _ _ hroom, s.hostFailure_sameBut _ _ _ _⟩,
      _, l, exec_registerRead_bar0_refused hs hr ho, s.hostFailure_errKind _ _ _ _,
        s.hostFailure_logged _ _ _ _ hroom, hl, s.hostFailure_sameBut _ _ _ _⟩
  case identity =>
    intro s src v hs
    have hwrite (o : Nat) (h8 : o % 8 = 0) (ho : o < 0x10_0000) :
        exec (.registerWrite src (.bar0 o) 8 v) s
          = .next (s.sysWrite (o / 8 * 8) (laneIn o 8 v) (BitVec.allOnes 64) src false) := by
      rw [exec_registerWrite_bar0 hs src v (regAccess_iff.2 ⟨.inr rfl, h8⟩) (by omega), laneMask_eight h8]
    refine ⟨?_, ?_, ?_, rfl, rfl, rfl⟩
    · rw [hwrite 0x000 rfl (by decide), s.sysWrite_id_fixed _ _ _ _ (by decide) (by decide)]
    · rw [hwrite 0x008 rfl (by decide), s.sysWrite_id_fixed _ _ _ _ (by decide) (by decide)]
    · rw [hwrite 0x020 rfl (by decide), s.sysWrite_idPkg_refused _ _ (by decide)]
      rfl
  case rwpIgnored =>
    intro s hs
    constructor
    · rw [exec_registerRead_bar0 hs (by decide) (by decide), s.sysReadEffect_rwpIgnored, s.sysRead_rwpIgnored,
        laneOut_low (by decide), if_pos (by decide)]
    · rw [exec_registerRead_bar0 hs (by decide) (by decide), s.sysReadEffect_rwpIgnored, s.sysRead_rwpIgnored,
        laneOut_high (by decide), if_neg (by decide)]
      rfl

end Sys2Proof.Machine
end

section
/-!
O8 and O9. The numbers of cores and regions (01 R27, R28): a core's number and its die, row and
column, and the quadrant of a die that a region is.
-/
namespace Sys2Proof.Machine

/-! ## Cores (01 R27) -/

theorem coreAt_lt {d r c : Nat} (hd : d < 16) (hr : r < 40) (hc : c < 40) : coreAt d r c < 25600 := by
  unfold coreAt
  omega

theorem dieOf_coreAt (d : Nat) {r c : Nat} (hr : r < 40) (hc : c < 40) : dieOf (coreAt d r c) = d := by
  unfold dieOf coreAt
  omega

theorem rowOf_coreAt (d : Nat) {r c : Nat} (hr : r < 40) (hc : c < 40) : rowOf (coreAt d r c) = r := by
  unfold rowOf coreAt
  omega

theorem colOf_coreAt (d r : Nat) {c : Nat} (hc : c < 40) : colOf (coreAt d r c) = c := by
  unfold colOf coreAt
  omega

theorem dieOf_lt {i : Nat} (hi : i < 25600) : dieOf i < 16 := by
  unfold dieOf
  omega

theorem rowOf_lt (i : Nat) : rowOf i < 40 := by
  unfold rowOf
  omega

theorem colOf_lt (i : Nat) : colOf i < 40 := Nat.mod_lt i (by decide)

theorem coreAt_dieOf_rowOf_colOf (i : Nat) : coreAt (dieOf i) (rowOf i) (colOf i) = i := by
  unfold coreAt dieOf rowOf colOf
  omega

/-- Settles O8: division by 1,600 and by 40 takes `core_id` apart. -/
theorem coreNumbering : Obligations.CoreNumbering := by
  unfold Obligations.CoreNumbering
  constructor
  · intro d r c hd hr hc
    exact ⟨rfl, coreAt_lt hd hr hc, dieOf_coreAt d hr hc, rowOf_coreAt d hr hc, colOf_coreAt d r hc⟩
  · intro i hi
    exact ⟨rfl, rfl, rfl, dieOf_lt hi, rowOf_lt i, colOf_lt i, coreAt_dieOf_rowOf_colOf i⟩

/-! ## Regions (01 R28) -/

/-- 01 R28 with its comparisons as cases. -/
theorem regionOf_eq (c : Nat) :
    regionOf c = dieOf c * 4 + 2 * (if 20 ≤ rowOf c then 1 else 0) + (if 20 ≤ colOf c then 1 else 0) := by
  simp only [regionOf, b2n, decide_eq_true_eq]

theorem regionOf_coreAt (d : Nat) {r c : Nat} (hr : r < 40) (hc : c < 40) :
    regionOf (coreAt d r c) = d * 4 + 2 * (if 20 ≤ r then 1 else 0) + (if 20 ≤ c then 1 else 0) := by
  rw [regionOf_eq, dieOf_coreAt d hr hc, rowOf_coreAt d hr hc, colOf_coreAt d r hc]

theorem mem_rectCores {c die row0 col0 rows cols : Nat} :
    c ∈ rectCores die row0 col0 rows cols
      ↔ ∃ r k, r < rows ∧ k < cols ∧ coreAt die (row0 + r) (col0 + k) = c := by
  simp only [rectCores, List.mem_flatMap, List.mem_map, List.mem_range]
  grind

/-- The quadrant of region `x` begins at row 0 or 20 and at column 0 or 20. -/
theorem mem_regionCores_iff {x c : Nat} : c ∈ regionCores x ↔ regionOf c = x := by
  unfold regionCores
  rw [mem_rectCores]
  constructor
  · rintro ⟨r, k, hr, hk, rfl⟩
    rw [regionOf_coreAt (x / 4) (by omega) (by omega)]
    split <;> split <;> omega
  · intro h
    have hrow := rowOf_lt c
    have hcol := colOf_lt c
    have hquad : x / 4 = dieOf c ∧ 20 * (x % 4 / 2) + rowOf c % 20 = rowOf c ∧ 20 * (x % 2) + colOf c % 20 = colOf c := by
      rw [regionOf_eq] at h
      split at h <;> split at h <;> omega
    obtain ⟨hd, hr, hc⟩ := hquad
    refine ⟨rowOf c % 20, colOf c % 20, by omega, by omega, ?_⟩
    rw [hd, hr, hc, coreAt_dieOf_rowOf_colOf]

/-- Settles O9: the two comparisons pick the quadrant of the die. -/
theorem regionNumbering : Obligations.RegionNumbering := by
  unfold Obligations.RegionNumbering
  constructor
  · intro d r c hd hr hc
    rw [regionOf_coreAt d hr hc]
    refine ⟨rfl, ?_, ?_, ?_, ?_, ?_⟩ <;> split <;> split <;> omega
  · intro x c _ _
    exact mem_regionCores_iff

end Sys2Proof.Machine
end

section
/-!
O57. A step and the commands (log 2; 01 R47): what the front of the queue does, and the one check
behind which every command has its effect.
-/
namespace Sys2Proof.Machine

/-- Every command has an effect of its own, under the check that the units it names exist. -/
theorem exec_eq_need (i : Instr) : ∃ f, ∀ s, exec i s = need i.WellFormed s f := by
  unfold exec
  cases i <;> exact ⟨_, fun _ => rfl⟩

/-- Settles O57: every command is an effect under the one check of `need`. -/
theorem stepRunsFront : Obligations.StepRunsFront := by
  unfold Obligations.StepRunsFront
  refine ⟨?_, ?_, ?_⟩
  · intro s i rest h
    simp [step, h]
  · intro s h
    simp [step, h]
  · intro i s
    obtain ⟨f, hf⟩ := exec_eq_need i
    constructor
    · intro h
      exact ⟨f s, by rw [hf, need_of h]⟩
    · intro h
      rw [hf, h, need_false]

end Sys2Proof.Machine
end

section
/-!
O39. What the host does besides its accesses (01 R45; 16 R481, R491, R493-R495; log 11): link-up,
configuration requests, doorbells, unmasked vectors, failed reads and Function Level Reset, with
the frame of the semaphore engines that the host's last SIGNALs need.
-/
namespace Sys2Proof.Machine

/-! ## What a change leaves alone -/

theorem Part.same_refl (p : Part) (s : State) : p.same s s := by cases p <;> rfl

theorem Part.same_trans {p : Part} {s t u : State} (hst : p.same s t) (htu : p.same t u) : p.same s u := by
  cases p <;> exact Eq.trans htu hst

theorem SameBut.refl (l : List Part) (s : State) : SameBut l s s := fun p _ => p.same_refl s

theorem SameBut.trans {l : List Part} {s t u : State} (hst : SameBut l s t) (htu : SameBut l t u) : SameBut l s u :=
  fun p hp => Part.same_trans (hst p hp) (htu p hp)

theorem SameBut.mono {l m : List Part} {s t : State} (h : SameBut l s t) (hlm : l ⊆ m) : SameBut m s t :=
  fun p hp => h p fun hl => hp (hlm hl)

/-! ## One part changed -/

theorem State.setCore_sameBut (s : State) (c : Nat) (k : Core) : SameBut [.cores] s (s.setCore c k) := by
  intro p hp
  cases p <;> simp [Part.same] at hp ⊢

theorem State.setSem_sameBut (s : State) (i : Nat) (m : Sem) : SameBut [.sems] s (s.setSem i m) := by
  intro p hp
  cases p <;> simp [Part.same] at hp ⊢

theorem State.setQueue_sameBut (s : State) (q : Nat) (k : Queue) : SameBut [.queues] s (s.setQueue q k) := by
  intro p hp
  cases p <;> simp [Part.same] at hp ⊢

theorem State.emit_sameBut (s : State) (o : Output) : SameBut [.out] s (s.emit o) := by
  intro p hp
  cases p <;> simp [Part.same] at hp ⊢

theorem State.setHi_sameBut (s : State) (h : HostIf) : SameBut [.hi] s { s with hi := h } := by
  intro p hp
  cases p <;> simp [Part.same] at hp ⊢

theorem State.setMl_sameBut (s : State) (m : Moriq) : SameBut [.ml] s { s with ml := m } := by
  intro p hp
  cases p <;> simp [Part.same] at hp ⊢

theorem State.setEc_sameBut (s : State) (e : Errors) : SameBut [.ec] s { s with ec := e } := by
  intro p hp
  cases p <;> simp [Part.same] at hp ⊢

/-! ## What the semaphore engines leave alone -/

/-- What the semaphore engines and their notifications leave alone (13 R396-R416): besides
whole parts of the device, whether it is ready for the host. -/
def SemFrame (s t : State) : Prop :=
  SameBut [.sems, .cores, .ml, .ec, .hi, .out] s t ∧ t.hi.ready = s.hi.ready

namespace SemFrame
variable {s t : State}

theorem refl (s : State) : SemFrame s s := ⟨.refl _ s, rfl⟩

theorem trans {u : State} (hst : SemFrame s t) (htu : SemFrame t u) : SemFrame s u :=
  ⟨hst.1.trans htu.1, htu.2.trans hst.2⟩

theorem ite {c : Prop} [Decidable c] {u : State} (ht : SemFrame s t) (hu : SemFrame s u) : SemFrame s (if c then t else u) := by
  split <;> assumption

/-- A change of none but semaphores, cores, links, log and output. -/
theorem then_sameBut {u : State} (h : SemFrame s t) (htu : SameBut [.sems, .cores, .ml, .ec, .out] t u) : SemFrame s u :=
  h.trans ⟨htu.mono (by decide), congrArg HostIf.ready (htu .hi (by decide))⟩

theorem setSem (h : SemFrame s t) (i : Nat) (m : Sem) : SemFrame s (t.setSem i m) :=
  h.then_sameBut ((t.setSem_sameBut i m).mono (by decide))

theorem modCore (h : SemFrame s t) (c : Nat) (f : Core → Core) : SemFrame s (t.modCore c f) :=
  h.then_sameBut ((t.setCore_sameBut c _).mono (by decide))

theorem hostWrite (h : SemFrame s t) (bus : Nat) (bs : List Byte) (b : Bool) : SemFrame s (t.hostWrite bus bs b) :=
  h.then_sameBut fun p hp => by cases p <;> simp [Part.same] at hp ⊢

theorem setMl (h : SemFrame s t) (m : Moriq) : SemFrame s { t with ml := m } :=
  h.then_sameBut ((t.setMl_sameBut m).mono (by decide))

theorem setEc (h : SemFrame s t) (e : Errors) : SemFrame s { t with ec := e } :=
  h.then_sameBut ((t.setEc_sameBut e).mono (by decide))

theorem sendMsix (h : SemFrame s t) (v : Nat) : SemFrame s (t.sendMsix v) :=
  h.trans ⟨fun p hp => by cases p <;> simp [Part.same] at hp ⊢, by
    unfold State.sendMsix
    simp only
    (repeat' split) <;> rfl⟩

theorem hostEvent (h : SemFrame s t) (e : Nat) : SemFrame s (t.hostEvent e) := by
  unfold State.hostEvent
  exact .ite (h.sendMsix _) h

theorem log (h : SemFrame s t) (kind die : Nat) (region : Option Nat) (src : Source) (addr detail : Nat) :
    SemFrame s (t.log kind die region src addr detail) := by
  have notify (sev : Nat) : SemFrame s (t.notifyLog sev) := by
    unfold State.notifyLog
    exact .ite (h.hostEvent 0) (.ite h ((h.setEc _).hostEvent 0))
  unfold State.log State.writeLog
  exact .ite ((notify _).setEc _) ((notify _).setEc _)

theorem launch {u : State} {vc dest ptype : Nat} {op : LinkOp} {addr id : Nat} {carry : Bool} {payload : List Byte}
    (h : SemFrame s t) (hu : t.launch vc dest ptype op addr id carry payload = some u) : SemFrame s u := by
  unfold State.launch at hu
  split at hu
  · cases hu
  · cases hu
    exact h.then_sameBut fun p hp => by cases p <;> simp [Part.same, State.enqueue] at hp ⊢

theorem answer (h : SemFrame s t) (dest addr id : Nat) (st : RespStatus) (payload : List Byte) :
    SemFrame s (t.answer dest addr id st payload) := by
  unfold State.answer
  split
  · next u hu => exact .ite ((h.launch hu).setMl _) (h.launch hu)
  · exact (h.setMl _).log _ _ _ _ _ _

theorem wake (h : SemFrame s t) (sem : Nat) (w : Waiter) (r : W64) : SemFrame s (t.wake sem w r) := by
  unfold State.wake
  split
  · exact h.answer _ _ _ _ _
  · exact h.modCore _ _

theorem semNotify (h : SemFrame s t) (sem : Nat) : SemFrame s (t.semNotify sem) := by
  unfold State.semNotify
  dsimp only
  split <;> split
  · exact ((h.setSem _ _).hostWrite _ _ _).sendMsix _
  · exact (h.setSem _ _).sendMsix _
  · exact (h.setSem _ _).hostWrite _ _ _
  · exact h.setSem _ _

theorem semServe (h : SemFrame s t) (sem : Nat) : SemFrame s (t.semServe sem) :=
  forEach_keeps (h.setSem _ _) fun _ _ _ hu => hu.wake _ _ _

theorem semCount (h : SemFrame s t) (sem : Nat) (v : W32) : SemFrame s (t.semCount sem v) :=
  .ite (((h.setSem _ _).semServe _).semNotify _) ((h.setSem _ _).semServe _)

theorem semExpireN (n sem : Nat) (h : SemFrame s t) : SemFrame s (State.semExpireN n sem t) := by
  induction n generalizing t with
  | zero => exact h
  | succ n ih =>
    unfold State.semExpireN
    split
    · exact ih (.semServe (forEach_keeps (h.setSem _ _) fun _ _ _ hu => hu.wake _ _ _) _)
    · exact h

theorem semSignal (h : SemFrame s t) (sem : Nat) (caller : Source) (n : Nat) : SemFrame s (t.semSignal sem caller n).1 := by
  have expired : SemFrame s (t.semExpire sem) := h.semExpireN _ _
  unfold State.semSignal
  dsimp only
  split
  · exact expired
  · exact .ite (expired.setSem _ _) ((expired.setSem _ _).semCount _ _)

theorem hostSignals (n : Nat) (h : SemFrame s t) : SemFrame s (t.hostSignals n) := by
  induction n generalizing t with
  | zero => exact h
  | succ n ih =>
    unfold State.hostSignals
    split
    · exact h
    · next x rest _ =>
      have taken : SemFrame s { t with hi := { t.hi with signals := rest } } :=
        h.trans ⟨(t.setHi_sameBut _).mono (by decide), rfl⟩
      exact .ite h (ih (taken.semSignal _ _ _))

end SemFrame

/-! ## The host's failed reads (16 R491) -/

theorem Core.foldl_deliver_frame (id : Nat) (l : List (Nat × W64)) (k : Core) :
    (l.foldl (fun k q => k.deliver id q.1 q.2) k).accs = k.accs ∧ (l.foldl (fun k q => k.deliver id q.1 q.2) k).due = k.due := by
  induction l generalizing k with
  | nil => exact ⟨rfl, rfl⟩
  | cons q t ih =>
    obtain ⟨haccs, hdue⟩ := ih (k.deliver id q.1 q.2)
    have hq : (k.deliver id q.1 q.2).accs = k.accs ∧ (k.deliver id q.1 q.2).due = k.due := by
      unfold Core.deliver
      split <;> exact ⟨rfl, rfl⟩
    exact ⟨haccs.trans hq.1, hdue.trans hq.2⟩

@[simp] theorem Core.finish_accs (k : Core) (o : Op) (vs : List W64) : (k.finish o vs).accs = k.accs :=
  (Core.foldl_deliver_frame _ _ _).1

@[simp] theorem Core.finish_due (k : Core) (o : Op) (vs : List W64) : (k.finish o vs).due = k.due :=
  (Core.foldl_deliver_frame _ _ _).2

theorem firstIf_mapIf {α : Type} {p : α → Bool} {f : α → α} (hf : ∀ x, p (f x) = p x) (l : List α) :
    firstIf p (mapIf p f l) = (firstIf p l).map f := by
  induction l with
  | nil => rfl
  | cons x t ih =>
    rw [mapIf] at ih ⊢
    cases hx : p x <;> simp [firstIf, hf, hx, ih]

@[simp] theorem Core.finish_acc (k : Core) (o : Op) (vs : List W64) (id : Nat) : (k.finish o vs).acc id = k.acc id := by
  rw [Core.acc, Core.finish_accs, Core.acc]

@[simp] theorem Core.fault_acc (k : Core) (d : Due) (id : Nat) : (k.fault d).acc id = k.acc id := rfl

@[simp] theorem Core.dropAcc_acc_same (k : Core) (id : Nat) : (k.dropAcc id).acc id = none := by
  simp [Core.acc, Core.dropAcc, firstIf_eq_find?]

theorem Core.modAcc_acc_same (k : Core) (id : Nat) {f : Access → Access} (hf : ∀ x, (f x).id = x.id) :
    (k.modAcc id f).acc id = (k.acc id).map f :=
  firstIf_mapIf (fun x => by rw [hf]) k.accs

@[simp] theorem Core.cancelCarried_acc (k : Core) (move id : Nat) : (k.cancelCarried move).acc id = k.acc id := by
  unfold Core.cancelCarried
  split
  · dsimp only
    split
    · exact Core.finish_acc _ _ _ _
    · rfl
  · rfl

/-- A refused access holds the refusal as its answer, until it is delivered (05 R160). -/
theorem Core.refuseAcc_waiting {k : Core} {id : Nat} (st : RespStatus) {a : Access} (ha : k.acc id = some a)
    (h : a.accepted = false) :
    k.refuseAcc id st = k.modAcc id fun a => { a with stage := .served, status := st } := by
  simp [Core.refuseAcc, ha, h]

theorem Core.refuseAcc_waiting_acc {k : Core} {id : Nat} (st : RespStatus) {a : Access} (ha : k.acc id = some a)
    (h : a.accepted = false) : (k.refuseAcc id st).acc id = some { a with stage := .served, status := st } := by
  rw [Core.refuseAcc_waiting st ha h, Core.modAcc_acc_same, ha]
  · rfl
  · exact fun _ => rfl

/-- A refused store that its core counts as accepted leaves at once (05 R160). -/
theorem Core.refuseAcc_accepted {k : Core} {id : Nat} (st : RespStatus) {a : Access} (ha : k.acc id = some a)
    (h : a.accepted = true) : (k.refuseAcc id st).acc id = none := by
  simp only [Core.refuseAcc, ha, h, if_true]
  split <;> simp

theorem Core.refuseAcc_status {k : Core} {id : Nat} {st : RespStatus} {a : Access}
    (h : (k.refuseAcc id st).acc id = some a) : a.status = st := by
  cases hk : k.acc id with
  | none => simp [Core.refuseAcc, hk] at h
  | some x =>
    cases hx : x.accepted with
    | false =>
      rw [Core.refuseAcc_waiting_acc st hk hx] at h
      cases h
      rfl
    | true =>
      rw [Core.refuseAcc_accepted st hk hx] at h
      cases h

theorem State.emit_core (s : State) (o : Output) (c : Nat) : (s.emit o).core c = s.core c := rfl

/-- An answer without poison reaches nothing but its core. -/
theorem State.deliverId_sameBut {s : State} {c id : Nat} (h : ∀ a, (s.core c).acc id = some a → a.status ≠ .poisoned) :
    SameBut [.cores] s (s.deliverId c id) := by
  unfold State.deliverId
  split
  · next a ha =>
    split
    · unfold State.deliverAcc
      dsimp only
      split
      · exact s.setCore_sameBut _ _
      · split
        · split
          · exact s.setCore_sameBut _ _
          · exact .refl _ s
        · next hp => exact absurd hp (h a ha)
        · exact s.setCore_sameBut _ _
    · exact .refl _ s
  · exact .refl _ s

/-- A read that the host fails becomes the fault of its operation. -/
theorem State.deliverId_failed {s : State} {c id : Nat} {a : Access} {o : Op} (ha : (s.core c).acc id = some a)
    (hdone : a.done = true) (hst : a.status = .hostError) (ho : (s.core c).opOf a.op = some o) :
    s.deliverId c id = s.setCore c ((s.core c).accFault o a) := by
  simp [State.deliverId, State.deliverAcc, ha, hdone, hst, ho]

theorem State.refuse_deliver_sameBut (s : State) (c id : Nat) {st : RespStatus} (h : st ≠ .poisoned) :
    SameBut [.cores] s ((s.modCore c fun k => k.refuseAcc id st).deliverId c id) := by
  refine (s.setCore_sameBut c _).trans (State.deliverId_sameBut fun a ha => ?_)
  rw [State.core_setCore_same] at ha
  rwa [Core.refuseAcc_status ha]

/-- A read of the host that its core has issued is sent out, and fails. -/
theorem State.hostReadFailure_issued {s : State} {c id : Nat} {a : Access} (ha : (s.core c).acc id = some a)
    (h : a.stage = .issued ∧ s.blocked c a = false ∧ a.kind = .load ∧ s.destOf a.addr = .host) :
    ∃ o, s.hostReadFailure c id = ((s.emit o).modCore c fun k => k.refuseAcc id .hostError).deliverId c id := by
  simp only [State.hostReadFailure, ha]
  rw [if_pos h]
  exact ⟨_, rfl⟩

theorem State.hostReadFailure_sameBut (s : State) (c id : Nat) : SameBut [.cores, .out] s (s.hostReadFailure c id) := by
  cases ha : (s.core c).acc id with
  | none => simp [State.hostReadFailure, ha, SameBut.refl]
  | some a =>
    by_cases h : a.stage = .issued ∧ s.blocked c a = false ∧ a.kind = .load ∧ s.destOf a.addr = .host
    · obtain ⟨o, ho⟩ := State.hostReadFailure_issued ha h
      rw [ho]
      exact ((s.emit_sameBut o).mono (by decide)).trans ((State.refuse_deliver_sameBut _ c id (by decide)).mono (by decide))
    · simp only [State.hostReadFailure, ha]
      rw [if_neg h]
      exact .refl _ s

theorem State.hostReadsFail_sameBut (s : State) (c : Nat) : SameBut [.cores, .out] s (s.hostReadsFail c) :=
  forEach_keeps (.refl _ s) fun _ _ t ht => ht.trans (t.hostReadFailure_sameBut _ _)

/-- The failed load of a core: its result port is free again and an exception is due (05 R160). -/
theorem Core.accFault_load (k : Core) {o : Op} (a : Access) (ho : isLoadPort o.port = true) :
    k.accFault o a = Core.fault ((k.dropAcc a.id).finish o [0]) { code := 3, addr := a.addr } := by
  have hunit : longUnit o.port = none := by
    simp only [isLoadPort, inRange, Bool.and_eq_true, decide_eq_true_eq] at ho
    simp only [longUnit, inRange, Bool.and_eq_true, decide_eq_true_eq]
    grind
  have hstore : isStorePort o.port = false := by
    simp only [isLoadPort, inRange, Bool.and_eq_true, decide_eq_true_eq] at ho
    simp only [isStorePort, inRange, Bool.and_eq_false_iff, decide_eq_false_iff_not]
    omega
  simp only [Core.accFault, hunit, hstore]
  rfl

/-- The failure of a load that its core has issued: the access leaves it, and ACCESS is due. -/
theorem State.hostReadFailure_load {s : State} {c id : Nat} {a : Access} {o : Op} (ha : (s.core c).acc id = some a)
    (hid : a.id = id) (hst : a.stage = .issued) (hb : s.blocked c a = false) (hk : a.kind = .load) (hacc : a.accepted = false)
    (hd : s.destOf a.addr = .host) (ho : (s.core c).opOf a.op = some o) (hp : isLoadPort o.port = true) :
    ((s.hostReadFailure c id).core c).due = (s.core c).due ++ [{ code := 3, addr := a.addr }]
      ∧ ((s.hostReadFailure c id).core c).acc id = none := by
  obtain ⟨out, hfailure⟩ := State.hostReadFailure_issued ha ⟨hst, hb, hk, hd⟩
  have hrefused := Core.refuseAcc_waiting .hostError ha hacc
  have hanswer := Core.refuseAcc_waiting_acc .hostError ha hacc
  have hop : ((s.core c).refuseAcc id .hostError).opOf a.op = some o := by
    rw [hrefused]
    exact ho
  have hfail : (s.hostReadFailure c id).core c
      = ((s.core c).refuseAcc id .hostError).accFault o { a with stage := .served, status := .hostError } := by
    rw [hfailure, State.deliverId_failed (o := o), State.core_setCore_same, State.core_modCore_same, State.emit_core]
    · rw [State.core_modCore_same, State.emit_core, hanswer]
    · rfl
    · rfl
    · rw [State.core_modCore_same, State.emit_core]
      exact hop
  rw [hfail, Core.accFault_load _ _ hp]
  constructor
  · simp [Core.fault, Core.dropAcc, hrefused, Core.modAcc]
  · rw [Core.fault_acc, Core.finish_acc, hid, Core.dropAcc_acc_same]

theorem exec_hostReadFailure_up {s : State} (h : s.pw.perst = true) {c : Nat} (hc : c < 25600) (id : Nat) :
    exec (.hostReadFailure c id) s = .next (s.hostReadFailure c id) := by
  change need (decide (c < 25600)) s (fun s => whenUp s fun s => s.hostReadFailure c id) = _
  rw [need_of (decide_eq_true hc), whenUp_up h]

/-! ## Function Level Reset (16 R494) -/

/-- What the default and every entry of a table satisfy, each reading of it satisfies. -/
theorem nget_of_forall {α : Type} {P : α → Prop} {d : α} {m : NMap α} (hd : P d) (h : ∀ p, p ∈ m → P p.2) (k : Nat) :
    P (nget d m k) := by
  induction m with
  | nil => exact hd
  | cons q t ih =>
    unfold nget
    split
    · exact h q List.mem_cons_self
    · exact ih fun p hp => h p (List.mem_cons_of_mem _ hp)

/-- No DMA queue has a descriptor under way or one that RESET ended and that waits. -/
def State.DmaIdle (s : State) : Prop := ∀ p, p ∈ s.queues → p.2.cur = none ∧ p.2.aborted = none

theorem State.DmaIdle.queue {s : State} (h : s.DmaIdle) (q : Nat) : (s.queue q).cur = none ∧ (s.queue q).aborted = none :=
  nget_of_forall (P := fun k : Queue => k.cur = none ∧ k.aborted = none) ⟨rfl, rfl⟩ h q

theorem State.DmaIdle.setQueue {s : State} (h : s.DmaIdle) (q : Nat) {k : Queue} (hcur : k.cur = none)
    (hab : k.aborted = none) : (s.setQueue q k).DmaIdle := by
  intro p hp
  rcases mem_nset hp with rfl | hp
  · exact ⟨hcur, hab⟩
  · exact h p hp

/-- RESET of a queue without a descriptor under way ends none (16 R500). -/
theorem State.resetDma_noJob {s : State} {q : Nat} (h : (s.queue q).cur = none) :
    s.resetDma q = State.setQueue { s with ml := { s.ml with waits := s.ml.waits.filter fun w => w.queue != some q } } q
      { s.queue q with enable := false, head := 0, tail := 0, cur := none, carried := none, carriedSent := false } := by
  simp only [State.resetDma, h]
  rfl

theorem State.DmaIdle.resetDma {s : State} (h : s.DmaIdle) (q : Nat) :
    (s.resetDma q).DmaIdle ∧ SameBut [.ml, .queues] s (s.resetDma q) := by
  rw [State.resetDma_noJob (h.queue q).1]
  constructor
  · exact State.DmaIdle.setQueue (s := { s with ml := _ }) h q rfl (h.queue q).2
  · exact ((s.setMl_sameBut _).mono (by decide)).trans ((State.setQueue_sameBut _ q _).mono (by decide))

/-- The first part of a Function Level Reset: every queue is reset, every read of the host
fails, and requests of the host to other packages lose their requester. -/
def State.dropHostTraffic (s : State) : State :=
  let s := forN 64 (fun q s => if nhas s.queues q then s.resetDma q else s) s
  let s := forEach (s.cores.map Prod.fst) (fun c s => s.hostReadsFail c) s
  { s with ml := { s.ml with waits := s.ml.waits.filter fun w => w.core.isSome || w.queue.isSome } }

/-- The second part: the SIGNALs that waited for posted writes of the host are applied. -/
def State.drainHost (s : State) : State := s.dropHostTraffic.hostSignals s.dropHostTraffic.hi.signals.length

/-- The last part clears the interface and the queues (16 R494). -/
theorem State.functionLevelReset_eq (s : State) : s.functionLevelReset = { s.drainHost with
    hi := { ({} : HostIf) with flit := s.drainHost.hi.flit, speed := s.drainHost.hi.speed, width := s.drainHost.hi.width
                               subsys := s.drainHost.hi.subsys, ready := s.drainHost.hi.ready }
    queues := s.drainHost.queues.filterMap fun p => p.2.aborted.map fun j => (p.1, ({ aborted := some j } : Queue)) } := by
  unfold State.functionLevelReset State.drainHost State.dropHostTraffic
  generalize forN 64 _ s = t
  rfl

theorem State.DmaIdle.resetQueues {s : State} (h : s.DmaIdle) (n : Nat) :
    (forN n (fun q s => if nhas s.queues q then s.resetDma q else s) s).DmaIdle
      ∧ SameBut [.ml, .queues] s (forN n (fun q s => if nhas s.queues q then s.resetDma q else s) s) := by
  refine forN_keeps (p := fun t => t.DmaIdle ∧ SameBut [.ml, .queues] s t) ⟨h, .refl _ s⟩ fun q _ t ⟨hidle, hsame⟩ => ?_
  split
  · obtain ⟨hidle', hsame'⟩ := hidle.resetDma q
    exact ⟨hidle', hsame.trans hsame'⟩
  · exact ⟨hidle, hsame⟩

theorem State.DmaIdle.dropHostTraffic {s : State} (h : s.DmaIdle) :
    s.dropHostTraffic.DmaIdle ∧ SameBut [.queues, .ml, .cores, .out] s s.dropHostTraffic := by
  obtain ⟨hidle, hreset⟩ := h.resetQueues 64
  have hreads {t : State} (l : List Nat) : SameBut [.cores, .out] t (forEach l (fun c s => s.hostReadsFail c) t) :=
    forEach_keeps (.refl _ t) fun c _ u hu => hu.trans (u.hostReadsFail_sameBut c)
  unfold State.dropHostTraffic
  generalize forN 64 _ s = t at hidle hreset
  constructor
  · intro p hp
    exact hidle p (hreads _ .queues (by decide) ▸ hp)
  · exact (hreset.mono (by decide)).trans (((hreads _).mono (by decide)).trans ((State.setMl_sameBut _ _).mono (by decide)))

theorem State.drainHost_semFrame (s : State) : SemFrame s.dropHostTraffic s.drainHost :=
  (SemFrame.refl _).hostSignals _

theorem State.DmaIdle.drainHost_sameBut {s : State} (h : s.DmaIdle) :
    SameBut [.queues, .ml, .cores, .sems, .ec, .hi, .out] s s.drainHost :=
  (h.dropHostTraffic.2.mono (by decide)).trans (s.drainHost_semFrame.1.mono (by decide))

theorem State.DmaIdle.dropHostTraffic_hi {s : State} (h : s.DmaIdle) : s.dropHostTraffic.hi = s.hi :=
  h.dropHostTraffic.2 .hi (by decide)

theorem State.DmaIdle.drainHost_ready {s : State} (h : s.DmaIdle) : s.drainHost.hi.ready = s.hi.ready := by
  rw [s.drainHost_semFrame.2, h.dropHostTraffic_hi]

/-- Without a waiting SIGNAL of the host, no semaphore is touched (13 R411). -/
theorem State.DmaIdle.drainHost_sems {s : State} (h : s.DmaIdle) (hsig : s.hi.signals = []) : s.drainHost.sems = s.sems := by
  unfold State.drainHost
  rw [h.dropHostTraffic_hi, hsig]
  exact h.dropHostTraffic.2 .sems (by decide)

/-- Idle queues leave no completion word behind that RESET owes. -/
theorem State.DmaIdle.drainHost_aborted {s : State} (h : s.DmaIdle) :
    (s.drainHost.queues.filterMap fun p => p.2.aborted.map fun j => (p.1, ({ aborted := some j } : Queue))) = [] := by
  rw [s.drainHost_semFrame.1 .queues (by decide), List.filterMap_eq_nil_iff]
  intro p hp
  rw [(h.dropHostTraffic.1 p hp).2]
  rfl

theorem exec_functionLevelReset_up {s : State} (h : s.pw.perst = true) :
    exec .functionLevelReset s = .next s.functionLevelReset := by
  change need true s (fun s => whenUp s fun s => s.functionLevelReset) = _
  rw [need_true, whenUp_up h]

/-! ## Link-up and configuration requests (01 R45, 16 R481; log 11) -/

theorem exec_pcieLinkUp_up {s : State} (h : s.pw.perst = true) (speed : BitVec 4) (width : BitVec 5) (flit : Bool) :
    exec (.pcieLinkUp speed width flit) s
      = .next { s with hi := { s.hi with speed := speed, width := width, flit := flit, ready := true } } := by
  change need true s (fun s => whenUp s fun s =>
    { s with hi := { s.hi with speed := speed, width := width, flit := flit, ready := true } }) = _
  rw [need_true, whenUp_up h]

theorem exec_configRequest_up {s : State} (h : s.pw.perst = true) {o n : Nat} {w : Option W32}
    (hwf : (Instr.configRequest o n w).WellFormed = true) :
    exec (.configRequest o n w) s = .next (s.configRequest o n w) := by
  change need _ s (fun s => whenUp s fun s => s.configRequest o n w) = _
  rw [need_of hwf, whenUp_up h]

theorem State.configRequest_retry {s : State} (h : s.hi.ready = false) (o n : Nat) (w : Option W32) :
    s.configRequest o n w = s.emit (.completion .retry []) := by
  simp [State.configRequest, h]

theorem State.configRequest_read {s : State} (hr : s.hi.ready = true) (hb : s.cc.boot ≠ .idle) (o n : Nat) :
    s.configRequest o n none = s.emit (.completion .success (toBytes n ((s.cfgRead (o / 4)).toNat >>> (8 * (o % 4))))) := by
  simp [State.configRequest, hr, hb]

/-- A write of a whole doubleword leaves nothing of what it held. -/
theorem State.configRequest_writeDword {s : State} (hr : s.hi.ready = true) (hb : s.cc.boot ≠ .idle) (i : Nat) (v : W32) :
    s.configRequest (4 * i) 4 (some v) = (s.emit (.completion .success [])).cfgWrite i v := by
  have hmask : v &&& 4294967295#32 = v := BitVec.and_allOnes
  simp [State.configRequest, hr, hb, hmask]

/-- The capabilities stand behind the header, whose registers only hold what is written. -/
theorem State.cfgWrite_header (s : State) {i : Nat} (hi : i < 16) (v : W32) :
    s.cfgWrite i v = { s with hi := { s.hi with pci := nset i v s.hi.pci } } := by
  have h16 : ¬ 16 ≤ i := by omega
  simp [State.cfgWrite, h16]

theorem State.cfgRead_identity (s : State) : s.cfgRead 0 = 0x7020_1F9A := rfl

theorem State.cfgRead_revision (s : State) : s.cfgRead 2 = 0x1200_0001 := rfl

/-- SUBSYSTEM_ID is the upper half of doubleword 11. -/
theorem State.cfgRead_subsystem (s : State) : (s.cfgRead 11).toNat >>> (8 * 2) = s.hi.subsys.toNat := by
  have hw := s.hi.subsys.isLt
  change (BitVec.ofNat 32 _).toNat >>> (8 * 2) = _
  rw [BitVec.toNat_ofNat, Nat.shiftRight_eq_div_pow]
  omega

/-! ## Doorbells and vectors (16 R493, R495) -/

theorem exec_hiCoreDbWrite_up {s : State} (h : s.pw.perst = true) (v : W64) :
    exec (.hiCoreDbWrite v) s = .next (s.coreDoorbell (v.toNat % 2 ^ 15)) := by
  change need true s (fun s => whenUp s fun s => s.coreDoorbell (bits v 14 0)) = _
  rw [need_true, whenUp_up h]
  rfl

theorem State.coreDoorbell_raised {s : State} {c : Nat} (hc : c < 25600) (hi : s.isolated c = false) :
    s.coreDoorbell c = s.modCore c fun k => { k with intPending := k.intPending ||| 4 } := by
  unfold State.coreDoorbell
  rw [if_pos ⟨hc, by simp [hi]⟩]
  rfl

theorem State.coreDoorbell_dropped {s : State} {c : Nat} (h : 25600 ≤ c ∨ s.isolated c = true) :
    s.coreDoorbell c = { s with hi := { s.hi with
      dbIsolated := satInc s.hi.dbIsolated, errKind := 2, errAddr := Config.doorbellAddr c } } := by
  unfold State.coreDoorbell
  rw [if_neg]
  rintro ⟨hc, hi⟩
  rcases h with h | h
  · exact absurd hc (by unfold numCores; omega)
  · simp [h] at hi

theorem State.sendMsix_sends {s : State} {v : Nat} (hen : s.hi.msixEnable = true) (hf : s.hi.funcMask = false)
    (hm : (nget {} s.hi.msix v).mask = false) (hb : s.busMaster = true) :
    s.sendMsix v = s.emit (.msix (nget {} s.hi.msix v).addr (nget {} s.hi.msix v).data) := by
  unfold State.sendMsix
  rw [if_neg (by simp [hen]), if_neg (by rw [hf, hm]; decide), if_pos hb]

theorem State.msixFlush_sends {s : State} {v : Nat} (hen : s.hi.msixEnable = true) (hf : s.hi.funcMask = false)
    (hm : (nget {} s.hi.msix v).mask = false) (hv : v ∈ s.hi.pba) (hb : s.busMaster = true) :
    s.msixFlush v = State.emit { s with hi := { s.hi with pba := s.hi.pba.filter (· != v) } }
      (.msix (nget {} s.hi.msix v).addr (nget {} s.hi.msix v).data) := by
  unfold State.msixFlush
  rw [if_pos (by rw [hen, hf, hm, List.contains_iff_mem.2 hv]; rfl)]
  exact State.sendMsix_sends (s := { s with hi := { s.hi with pba := s.hi.pba.filter (· != v) } }) hen hf hm hb

theorem exec_msixUnmask_up {s : State} (h : s.pw.perst = true) {v : Nat} (hv : v < 2048) :
    exec (.msixUnmask v) s = .next (State.msixFlush { s with hi := { s.hi with
      msix := nset v { nget {} s.hi.msix v with mask := false } s.hi.msix } } v) := by
  change need (decide (v < 2048)) s (fun s => whenUp s fun s => State.msixFlush { s with hi := { s.hi with
      msix := nset v { nget {} s.hi.msix v with mask := false } s.hi.msix } } v) = _
  rw [need_of (decide_eq_true hv), whenUp_up h]

/-! ## The statement -/

/-- Settles O39: each clause is the law of its command above. With idle queues, what a Function
Level Reset does before it clears the interface and the queues stays within `drainHost_sameBut`. -/
theorem hostControl : Obligations.HostControl := by
  unfold Obligations.HostControl
  intro s hs
  refine ⟨exec_pcieLinkUp_up hs, ?retry, ?answer, ?doorbell, ?dropped, ?unmask, ?readFails, ?reset⟩
  case retry =>
    intro hr i w hi
    rw [exec_configRequest_up hs (by simp [Instr.WellFormed]; omega), State.configRequest_retry hr]
  case answer =>
    intro hr hb
    have hread (i n b : Nat) (hwf : (Instr.configRequest (4 * i + b) n none).WellFormed = true) (hb4 : b < 4) :
        exec (.configRequest (4 * i + b) n none) s
          = .next (s.emit (.completion .success (toBytes n ((s.cfgRead i).toNat >>> (8 * b))))) := by
      rw [exec_configRequest_up hs hwf, State.configRequest_read hr hb, show (4 * i + b) / 4 = i by omega,
        show (4 * i + b) % 4 = b by omega]
    refine ⟨?_, ?_, ?_, fun v => ?_⟩
    · rw [hread 0 4 0 rfl (by decide), State.cfgRead_identity]
      rfl
    · rw [hread 2 4 0 rfl (by decide), State.cfgRead_revision]
      rfl
    · rw [hread 11 2 2 rfl (by decide), State.cfgRead_subsystem]
    · refine ⟨_, (exec_configRequest_up hs rfl).trans (congrArg _ (State.configRequest_writeDword hr hb 1 v)), ?_⟩
      rw [State.cfgWrite_header _ (by decide)]
      refine ⟨?_, rfl, ((s.emit_sameBut _).mono (by decide)).trans ((State.setHi_sameBut _ _).mono (by decide))⟩
      simp [State.busMaster, bit]
  case doorbell =>
    intro v hv hi
    rw [exec_hiCoreDbWrite_up hs, State.coreDoorbell_raised hv hi]
  case dropped =>
    intro v hv
    refine ⟨_, (exec_hiCoreDbWrite_up hs v).trans (congrArg _ (State.coreDoorbell_dropped hv)), rfl, rfl,
      s.setHi_sameBut _⟩
  case unmask =>
    intro v hv hen hf hpba hb
    refine ⟨_, (exec_msixUnmask_up hs hv).trans (congrArg _ (State.msixFlush_sends hen hf (by simp) hpba hb)), ?_⟩
    exact ⟨by simp, by simp, by simp [State.emit],
      ((s.setHi_sameBut _).mono (by decide)).trans ((State.emit_sameBut _ _).mono (by decide))⟩
  case readFails =>
    intro c id a o hc ha hid hst hb hk hacc hd ho hp
    obtain ⟨hdue, hgone⟩ := State.hostReadFailure_load ha hid hst hb hk hacc hd ho hp
    exact ⟨_, exec_hostReadFailure_up hs hc id, hdue, hgone, s.hostReadFailure_sameBut c id⟩
  case reset =>
    intro hidle
    have hidle : s.DmaIdle := hidle
    have hsame := hidle.drainHost_sameBut
    have hregions : s.drainHost.regions = s.regions := hsame .regions (by decide)
    refine ⟨_, exec_functionLevelReset_up hs, ?_⟩
    rw [State.functionLevelReset_eq]
    dsimp only [State.region]
    rw [hidle.drainHost_aborted, hregions]
    exact ⟨rfl, rfl, rfl, rfl, rfl, rfl, hidle.drainHost_ready, hsame .mem (by decide), hidle.drainHost_sems,
      hsame .dx (by decide), fun _ => rfl⟩

end Sys2Proof.Machine
end

section
/-!
O1, O3 and O4. Power and the timebase (02 R59, R61; 04 R108, R580; 19 R546, R547): what the loss of
TB_REFCLK, the reset and the loss of a rail do and leave alone, and the commands that bring them about.
-/
namespace Sys2Proof.Machine

/-! ## What a change leaves alone -/

theorem SameBut.ite {l : List Part} {c : Prop} [Decidable c] {s t u : State} (ht : SameBut l s t) (hu : SameBut l s u) :
    SameBut l s (if c then t else u) := by
  split <;> assumption

theorem State.mapCores_sameBut (s : State) (p : Nat → Bool) (f : Nat → Core → Core) : SameBut [.cores] s (s.mapCores p f) := by
  intro q hq
  cases q <;> simp [Part.same] at hq ⊢

theorem State.setTb_sameBut (s : State) (b : Timebase) : SameBut [.tb] s { s with tb := b } := by
  intro p hp
  cases p <;> simp [Part.same] at hp ⊢

theorem State.setPw_sameBut (s : State) (w : Power) : SameBut [.pw] s { s with pw := w } := by
  intro p hp
  cases p <;> simp [Part.same] at hp ⊢

theorem State.setSd_sameBut (s : State) (d : Sideband) : SameBut [.sd] s { s with sd := d } := by
  intro p hp
  cases p <;> simp [Part.same] at hp ⊢

theorem State.raDrive_sameBut (s : State) : SameBut [.ra] s s.raDrive := by
  intro p hp
  cases p <;> simp [Part.same] at hp ⊢

theorem State.log_sameBut (s : State) (kind die : Nat) (region : Option Nat) (src : Source) (addr detail : Nat) :
    SameBut [.ec, .hi, .out] s (s.log kind die region src addr detail) := by
  intro p hp
  cases p <;> simp [Part.same] at hp ⊢

/-! ## The reference clock (02 R61) -/

@[simp] theorem State.loseRef_tb (s : State) : s.loseRef.tb = { s.tb with refLost := true, locked := false } := by
  simp [State.loseRef]

theorem State.loseRef_sameBut (s : State) : SameBut [.tb, .ec, .hi, .out] s s.loseRef :=
  ((s.setTb_sameBut _).mono (by decide)).trans ((State.log_sameBut _ _ _ _ _ _ _).mono (by decide))

/-- A loss makes one REF_LOST entry, stamped with the count, which stands. -/
theorem State.loseRef_logged {s : State} (h : LogRoom s) : Logged s s.loseRef 0x0D := by
  obtain ⟨htail, hentry⟩ :=
    State.log_entry { s with tb := { s.tb with refLost := true, locked := false } } 0x0D 31 none srcErrorLog 0 0 h
  exact ⟨htail, _, hentry, rfl, rfl⟩

theorem State.clearRefLost_locked {s : State} (h : s.tb.locked = true) :
    s.clearRefLost = { s with tb := { s.tb with refLost := false } } := if_pos h

theorem State.clearRefLost_unlocked {s : State} (h : s.tb.locked = false) : s.clearRefLost = s := by
  simp [State.clearRefLost, h]

theorem exec_refLost_up {s : State} (h : s.pw.perst = true) : exec .refLost s = .next s.loseRef :=
  congrArg Host.Outcome.next (whenUp_up h State.loseRef)

theorem exec_refclkLock_up {s : State} (h : s.pw.perst = true) :
    exec .refclkLock s = .next { s with tb := { s.tb with locked := true } } :=
  congrArg Host.Outcome.next (whenUp_up h fun s => { s with tb := { s.tb with locked := true } })

theorem exec_refLostClear_up {s : State} (h : s.pw.perst = true) : exec .refLostClear s = .next s.clearRefLost :=
  congrArg Host.Outcome.next (whenUp_up h State.clearRefLost)

/-- Settles O4: a loss is `State.loseRef`, and LOCKED decides what a write to REF_LOST does. -/
theorem referenceClock : Obligations.ReferenceClock := by
  unfold Obligations.ReferenceClock
  intro s hup
  refine ⟨fun hroom => ?lost, exec_refclkLock_up hup, fun hlocked => ?cleared, fun hunlocked => ?kept⟩
  case lost =>
    refine ⟨_, exec_refLost_up hup, ?_⟩
    rw [State.loseRef_tb]
    exact ⟨rfl, rfl, rfl, rfl, State.loseRef_logged hroom, s.loseRef_sameBut⟩
  case cleared => rw [exec_refLostClear_up hup, State.clearRefLost_locked hlocked]
  case kept => rw [exec_refLostClear_up hup, State.clearRefLost_unlocked hunlocked]

/-! ## The rise of PERST_N (04 R103, R108, R580) -/

/-- The absence of TB_REFCLK at PERST_N is one loss after the reset (02 R61). -/
theorem State.afterPerst_noClock (s : State) (b p : BitVec 2) (store : Option Flash) :
    s.afterPerst b p false store = (s.afterPerst b p true store).loseRef := rfl

theorem State.afterPerst_tb (s : State) (b p : BitVec 2) (refclk : Bool) (store : Option Flash) :
    (s.afterPerst b p refclk store).tb = { refLost := !refclk } := by
  cases refclk with
  | false => rw [State.afterPerst_noClock, State.loseRef_tb]; rfl
  | true => rfl

/-- Besides the timebase and the log with its notification, the rise leaves the same with and
without TB_REFCLK. -/
theorem State.afterPerst_sameBut (s : State) (b p : BitVec 2) (refclk : Bool) (store : Option Flash) :
    SameBut [.tb, .ec, .hi, .out] (s.afterPerst b p true store) (s.afterPerst b p refclk store) := by
  cases refclk with
  | false => exact State.loseRef_sameBut _
  | true => exact .refl _ _

theorem State.running_of_unloaded {s : State} {c : Nat} (h : (s.region (regionOf c)).st = .unloaded) :
    s.running c = false := by
  simp [State.running, h, RegionSt.isRunning]

theorem exec_perstNRise_powered {s : State} (h : ∀ x, x ∈ allRails → x ∈ s.pw.rails) (b p : BitVec 2) (refclk : Bool)
    (store : Option Flash) : exec (.perstNRise b p refclk store) s = .next (s.afterPerst b p refclk store) := by
  have hall : (allRails.all fun r => s.pw.rails.contains r) = true := by simpa [List.all_eq_true] using h
  change need true s (onlyIf _ fun s => s.afterPerst b p refclk store) = _
  rw [need_true, hall, onlyIf_true]

/-- Settles O1: the state with TB_REFCLK present shows every part but the timebase, and those
parts are the same without it. -/
theorem perstRiseResets : Obligations.PerstRiseResets := by
  unfold Obligations.PerstRiseResets
  intro s b p refclk store hrails
  refine ⟨_, exec_perstNRise_powered hrails b p refclk store, ?_⟩
  have htb := s.afterPerst_tb b p refclk store
  have hsame := s.afterPerst_sameBut b p refclk store
  generalize s.afterPerst b p refclk store = t at htb hsame
  have hpw : t.pw = (s.afterPerst b p true store).pw := hsame .pw (by decide)
  have hra : t.ra = (s.afterPerst b p true store).ra := hsame .ra (by decide)
  have hcc : t.cc = (s.afterPerst b p true store).cc := hsame .cc (by decide)
  have hsb : t.sb = (s.afterPerst b p true store).sb := hsame .sb (by decide)
  have hsd : t.sd = (s.afterPerst b p true store).sd := hsame .sd (by decide)
  have hregions : t.regions = [] := hsame .regions (by decide)
  have hunloaded (r : Nat) : (t.region r).st = .unloaded := by rw [State.region, hregions]; rfl
  rw [htb, hpw, hra, hcc, hsb, hsd]
  exact ⟨rfl, rfl, rfl, rfl, rfl, rfl, rfl, rfl, hunloaded, fun c => State.running_of_unloaded (hunloaded _),
    hsame .mem (by decide), hsame .memEpoch (by decide), rfl, rfl, rfl, rfl, hsame .pending (by decide), rfl, rfl, rfl⟩

/-! ## Rails (19 R546, R547) and time (02 R59) -/

/-- VIO18 coming in range samples SMBADDR and drives RIGHT_AWAY low (19 Tables 19.1, 19.3). -/
theorem exec_railInRange_vio18 {s : State} (h : Rail.vio18 ∉ s.pw.rails) (b : BitVec 2) :
    exec (.railInRange .vio18 b) s
      = .next (State.raDrive { s with pw := { s.pw with rails := .vio18 :: s.pw.rails, smbAddr := b } }) :=
  congrArg Host.Outcome.next (if_neg (by simpa using h))

theorem exec_railInRange_other {s : State} {x : Rail} (h : x ∉ s.pw.rails) (hx : x ≠ .vio18) (b : BitVec 2) :
    exec (.railInRange x b) s = .next { s with pw := { s.pw with rails := x :: s.pw.rails } } :=
  congrArg Host.Outcome.next ((if_neg (by simpa using h)).trans (if_neg hx))

theorem State.forgetContents_sameBut (s : State) : SameBut [.mem, .memEpoch, .co, .cores] s s.forgetContents := by
  intro p hp
  cases p <;> simp [Part.same, State.forgetContents] at hp ⊢

/-- Whatever the loss of a rail brings about (19 R547), it stays within the cores, the contents
and the configuration store. -/
theorem State.railLoss_sameBut (s : State) : SameBut [.free, .cores, .mem, .memEpoch, .co, .sd] s s.railLoss := by
  have hfresh : SameBut [.free, .cores, .mem, .memEpoch, .co, .sd] s s.fresh.2 := by
    intro p hp
    cases p <;> simp [Part.same, State.fresh] at hp ⊢
  have hstops {t : State} : SameBut [.free, .cores, .mem, .memEpoch, .co, .sd] t
      (t.mapCores (fun _ => true) fun _ k => { k with stopped := true }) := (t.mapCores_sameBut _ _).mono (by decide)
  have hforgets {t : State} : SameBut [.free, .cores, .mem, .memEpoch, .co, .sd] t t.forgetContents :=
    t.forgetContents_sameBut.mono (by decide)
  have hcuts {t : State} (d : Sideband) : SameBut [.free, .cores, .mem, .memEpoch, .co, .sd] t { t with sd := d } :=
    (t.setSd_sameBut d).mono (by decide)
  have hstopped := SameBut.ite (c := Config.railStops s.fresh.1 = true) (hfresh.trans hstops) hfresh
  have hforgotten := SameBut.ite (c := Config.railChangesContents s.fresh.1 = true) (hstopped.trans hforgets) hstopped
  exact SameBut.ite (hforgotten.trans (hcuts _)) hforgotten

/-- The power state that a rail leaving its range leaves: the SMBus target stops with VIO18 and
with VIN_FAB (19 R553). -/
def Power.without (w : Power) (x : Rail) : Power :=
  { w with
    rails := w.rails.filter (· != x)
    smbReady := if x == Rail.vio18 || x == Rail.vinFab then false else w.smbReady }

theorem exec_railOutOfRange_up {s : State} {x : Rail} (h : x ∈ s.pw.rails) (hup : s.pw.perst = true) :
    exec (.railOutOfRange x) s = .next (State.railLoss { s with pw := s.pw.without x }) :=
  congrArg Host.Outcome.next ((if_pos (by simpa using h)).trans (if_pos hup))

theorem exec_railOutOfRange_down {s : State} {x : Rail} (h : x ∈ s.pw.rails) (hdown : s.pw.perst = false) :
    exec (.railOutOfRange x) s = .next { s with pw := s.pw.without x } :=
  congrArg Host.Outcome.next ((if_pos (by simpa using h)).trans (if_neg (by simp [hdown])))

theorem exec_timebaseTick (n : Nat) (s : State) :
    exec (.timebaseTick n) s = .next { s with
      pw := { s.pw with now := s.pw.now + n }
      tb := if s.pw.perst then { s.tb with now := s.tb.now + BitVec.ofNat 64 n } else s.tb } := rfl

/-- Settles O3: each rail and each tick of time by the equation of its command. -/
theorem railsAndTimePass : Obligations.RailsAndTimePass := by
  unfold Obligations.RailsAndTimePass
  refine ⟨fun s x b hx => ?inRange, fun s x hx => ?outOfRange, fun s n => ?tick⟩
  case inRange =>
    by_cases hvio : x = .vio18
    · subst hvio
      exact ⟨_, exec_railInRange_vio18 hx b, rfl, fun _ => ⟨rfl, rfl⟩, fun h => absurd rfl h,
        ((s.setPw_sameBut _).mono (by decide)).trans ((State.raDrive_sameBut _).mono (by decide))⟩
    · exact ⟨_, exec_railInRange_other hx hvio b, rfl, fun h => absurd h hvio, fun _ => ⟨rfl, rfl⟩,
        (s.setPw_sameBut _).mono (by decide)⟩
  case outOfRange =>
    have hpw := s.setPw_sameBut (s.pw.without x)
    cases hperst : s.pw.perst with
    | false =>
      exact ⟨_, exec_railOutOfRange_down hx hperst, rfl, hperst, fun _ => hpw, hpw.mono (by decide)⟩
    | true =>
      have hloss := State.railLoss_sameBut { s with pw := s.pw.without x }
      have hlossPw : (State.railLoss { s with pw := s.pw.without x }).pw = s.pw.without x := hloss .pw (by decide)
      refine ⟨_, exec_railOutOfRange_up hx hperst, ?_, ?_, fun h => absurd h (by decide), ?_⟩
      · rw [hlossPw]; rfl
      · rw [hlossPw]; exact hperst
      · exact (hpw.mono (by decide)).trans (hloss.mono (by decide))
  case tick =>
    refine ⟨_, exec_timebaseTick n s, rfl, ?now, ?locked, rfl, ?frame⟩
    case now => rw [apply_ite Timebase.now]
    case locked => rw [apply_ite Timebase.locked, ite_self]
    case frame =>
      have hpw := s.setPw_sameBut { s.pw with now := s.pw.now + n }
      exact (hpw.mono (by decide)).trans ((State.setTb_sameBut { s with pw := _ } _).mono (by decide))

end Sys2Proof.Machine
end

section
/-!
O54. Entries (06 R195, R203, R210, R211; log 52): where an access of the core to the bytes of the frame is
still under way, `State.putFrame` queues the frame's words behind it as accesses of the core, and
`State.enter` then writes back the core as it stood before, so that the frame is lost.
-/
namespace Sys2Proof.Machine

/-! ## The accesses of a core that an entry leaves -/

@[simp] theorem Core.toVector_accs (k : Core) (v : Nat) : (k.toVector v).accs = k.accs := rfl

@[simp] theorem Core.taken_accs (k : Core) (i : Nat) : (k.taken i).accs = k.accs := by
  unfold Core.taken
  split <;> rfl

@[simp] theorem Core.raised_accs (k : Core) (t : Trap) : (k.raised t).accs = k.accs := by
  cases h : t.source <;> simp [Core.raised, h]

/-- An entry that has a place for its frame adds no access to its core, also where the frame's words
were to follow an access that is under way. -/
theorem State.enter_accs {s : State} {c off : Nat} (t : Trap) (hplace : s.framePlace c = some off) :
    ((s.enter c t).core c).accs = (s.core c).accs := by
  unfold State.enter
  rw [hplace]
  by_cases hstack : s.stackOk c = true <;> simp [hstack]

/-! ## EXCEPTION_ENTRY -/

theorem State.unpark_eq_self {s : State} {c : Nat} (h : (s.core c).parkFilled = 0) : s.unpark c = s := by
  simp [State.unpark, h]

theorem exec_exceptionEntry {s : State} {c : Nat} (hup : s.pw.perst = true) (hc : c < 25600)
    (hpark : (s.core c).parkFilled = 0) : exec (.exceptionEntry c) s = .next (s.exceptionEntry c) := by
  have hwf : (Instr.exceptionEntry c).WellFormed = true := by simpa [Instr.WellFormed] using hc
  calc exec (.exceptionEntry c) s
      = .next (whenUp s fun s => (s.unpark c).exceptionEntry c) := need_of hwf s _
    _ = .next (s.exceptionEntry c) := by rw [whenUp_up hup, State.unpark_eq_self hpark]

/-- The exceptions due have no part in where a frame goes. -/
theorem State.framePlace_setDue (s : State) (c : Nat) (l : List Due) :
    (s.setCore c { s.core c with due := l }).framePlace c = s.framePlace c := by
  unfold State.framePlace State.stackOk
  rw [State.core_setCore_same]
  rfl

/-- At a boundary the exception chosen is no longer due and is entered (06 R203). -/
theorem State.exceptionEntry_enters {s : State} {c : Nat} {d : Due} (hdue : (s.core c).nextDue = some d)
    (hboundary : s.atBoundary c = true) (hwaiting : (s.core c).waiting = false) :
    ∃ t, s.exceptionEntry c = (s.setCore c { s.core c with due := (s.core c).due.erase d }).enter c t := by
  refine ⟨{ code := d.code, vector := d.code, addr := d.addr, slot := d.slot
            original := if d.origOnly then 0 else d.code, filled := d.filled }, ?_⟩
  simp [State.exceptionEntry, hdue, hboundary, hwaiting]

theorem State.exceptionEntry_accs {s : State} {c off : Nat} {d : Due} (hdue : (s.core c).nextDue = some d)
    (hboundary : s.atBoundary c = true) (hwaiting : (s.core c).waiting = false) (hplace : s.framePlace c = some off) :
    ((s.exceptionEntry c).core c).accs = (s.core c).accs := by
  obtain ⟨t, henter⟩ := State.exceptionEntry_enters hdue hboundary hwaiting
  rw [henter, State.enter_accs t ((s.framePlace_setDue c _).trans hplace), State.core_setCore_same]

/-! ## A store under way to the bytes of a frame -/

/-- The exception that core 0 of `storeUnderFrame` is to take. -/
def misalignedDue : Due := { code := 2, addr := 8 }

/-- Core 0 runs with a good stack pointer, 0x1_0000 above its yard base, and an exception due, while a
store to the first eight bytes of the frame's place is not yet performed. -/
def storeUnderFrame : State :=
  (State.reset.setRegion 0 { st := .running }).setCore 0 { Core.reset 0 0 with
    active := true, gpr := [(62, BitVec.ofNat 64 (yardBase 0 + 0x1_0000))], due := [misalignedDue]
    ops := [{ id := 1, port := 0x173, bundle := 0, b := 0 }]
    accs := [{ id := 2, op := 1, kind := .store, addr := yardBase 0 + 0xFF80, bytes := List.replicate 8 (some 7) }] }

/-- Refutes O54: with a good stack, an exception due and a store under way to the bytes of the frame,
the entry adds no access to the core, so the frame's 128 bytes do not follow the store. -/
theorem not_entriesAndReturn : ¬ Obligations.EntriesAndReturn := by
  unfold Obligations.EntriesAndReturn
  intro h
  have hup : storeUnderFrame.pw.perst = true := rfl
  have hpark : (storeUnderFrame.core 0).parkFilled = 0 := by decide
  have hboundary : storeUnderFrame.atBoundary 0 = true := by decide
  have hwaiting : (storeUnderFrame.core 0).waiting = false := by decide
  have hdue : (storeUnderFrame.core 0).nextDue = some misalignedDue := by decide
  have hstack : storeUnderFrame.stackOk 0 = true := by decide
  have hplace : storeUnderFrame.framePlace 0 = some 0xFF80 := by decide
  have hbusy : storeUnderFrame.frameBusy 0 0xFF80 128 = true := by decide
  obtain ⟨hentries, -, -⟩ := h storeUnderFrame 0 hup (by decide) hpark (by decide)
  obtain ⟨hexception, -, -, -⟩ := hentries hboundary (by decide)
  obtain ⟨hgood, -, -⟩ := hexception misalignedDue hwaiting hdue rfl (by decide) (by decide) (by decide) rfl
  obtain ⟨t, hexec, -, -, ⟨-, hqueued⟩, -⟩ := hgood hstack
  obtain ⟨-, new, haccs, -, hbytes⟩ := hqueued hbusy
  obtain rfl : storeUnderFrame.exceptionEntry 0 = t :=
    Host.Outcome.next.inj ((exec_exceptionEntry hup (by decide) hpark).symm.trans hexec)
  rw [State.exceptionEntry_accs hdue hboundary hwaiting hplace] at haccs
  obtain rfl : new = [] := List.self_eq_append_right.1 haccs
  exact absurd hbytes (by decide)

end Sys2Proof.Machine
end

section
/-!
O55. Vector operations and conversions (07 R236, R241; 08 R249-R256; 09 R278, R281): the rule of the
element loop, what the elements written leave of a vector register, and the results of the operations.
-/
namespace Sys2Proof.Machine

/-! ## The events of one core -/

theorem State.modCore_onlyCore (s : State) (c : Nat) (f : Core → Core) : OnlyCore c s (s.modCore c f) :=
  ⟨s.setCore_sameBut c _, fun d hd => s.core_setCore_other c d _ hd⟩

theorem exec_vectorOpComplete_up {s : State} (h : s.pw.perst = true) {c : Nat} (hc : c < 25600) :
    ∃ t, exec (.vectorOpComplete c) s = .next t ∧ OnlyCore c s t ∧ t.core c = (s.core c).vecStep := by
  refine ⟨s.modCore c Core.vecStep, ?_, s.modCore_onlyCore c _, s.core_modCore_same c _⟩
  change need (decide (c < 25600)) s (fun s => whenUp s fun s => s.modCore c Core.vecStep) = _
  rw [need_of (decide_eq_true hc), whenUp_up h]

theorem exec_convertComplete_up {s : State} (h : s.pw.perst = true) {c : Nat} (hc : c < 25600) {o : Op}
    (ho : (s.core c).oldest (isUnit .cv) = some o) :
    ∃ t, exec (.convertComplete c) s = .next t ∧ OnlyCore c s t
      ∧ t.core c = if (s.core c).regBusy o.id o.regSets.1 o.regSets.2 then s.core c else (s.core c).cvDone o := by
  have hwf : (Instr.convertComplete c).WellFormed = true := decide_eq_true hc
  refine ⟨_, ?_, s.modCore_onlyCore c fun k => if k.regBusy o.id o.regSets.1 o.regSets.2 then k else k.cvDone o,
    s.core_modCore_same c _⟩
  change execConvertComplete c s = _
  rw [execConvertComplete, need_of hwf, whenUp_up h]
  simp only [State.modCore, ho]

theorem Core.vecStep_waits {k : Core} {o : Op} (ho : k.oldest (isUnit .vec) = some o) (hr : k.vecReady o = false)
    (hq : o.stage = .queued → o.maskWaits k = true) : k.vecStep = k := by
  unfold Core.vecStep
  rw [ho]
  by_cases h : o.stage = .queued
  · simp [h, hq h]
  · simp [h, hr]

theorem Core.vecStep_sendsOut {k : Core} {o : Op} (ho : k.oldest (isUnit .vec) = some o) (hq : o.stage = .queued)
    (hm : o.maskWaits k = false) :
    k.vecStep = (k.modOp o.id fun _ => { o with stage := .running }).sendOut { o with stage := .running } none := by
  unfold Core.vecStep
  rw [ho]
  simp [hq, hm]

theorem Core.vecStep_performs {k : Core} {o : Op} (ho : k.oldest (isUnit .vec) = some o) (hr : k.vecReady o = true) :
    k.vecStep = k.vecDone o := by
  have hq : o.stage ≠ .queued := by
    rintro h
    simp [Core.vecReady, h] at hr
  unfold Core.vecStep
  rw [ho]
  simp [hq, hr]

/-! ## An operation that sends its accesses out (08 R256) -/

theorem isUnit_vec_iff {o : Op} : isUnit .vec o = true ↔ 0x200 ≤ o.port ∧ o.port ≤ 0x3FF := by
  by_cases h : 0x200 ≤ o.port ∧ o.port ≤ 0x3FF
  · simp [isUnit, longUnit, inRange, h]
  · simp only [isUnit, longUnit, inRange, ← Bool.decide_and, decide_eq_true_eq, h, if_false, iff_false]
    repeat' split
    all_goals simp

theorem Core.foldl_addAcc_frame {α : Type} (op : Nat) (kind : AccKind) (a : α → Nat) (bs : α → List (Option Byte)) (l : List α)
    (k : Core) : ∃ n as, l.foldl (fun k p => k.addAcc op kind (a p) (bs p) 0 0) k = { k with nextId := n, accs := as } := by
  induction l generalizing k with
  | nil => exact ⟨k.nextId, k.accs, rfl⟩
  | cons p t ih => exact ih (k.addAcc op kind (a p) (bs p) 0 0)

theorem Core.vecAccesses_frame (k : Core) (o : Op) : ∃ n as, (k.vecAccesses o).1 = { k with nextId := n, accs := as } :=
  Core.foldl_addAcc_frame _ _ _ _ _ _

theorem Core.sendOut_vec {k : Core} {o : Op} (hu : isUnit .vec o = true) (resume : Option Nat) :
    (k.sendOut o resume).vreg = k.vreg ∧ (k.sendOut o resume).ports = k.ports
      ∧ ((k.vecAccesses o).2 = none → (k.sendOut o resume).ops = k.ops ∧ (k.sendOut o resume).due = k.due) := by
  have hp : o.port ≠ 0x428 := by
    have := isUnit_vec_iff.1 hu
    omega
  obtain ⟨n, as, hacc⟩ := k.vecAccesses_frame o
  unfold Core.sendOut
  rw [if_neg hp]
  split
  · dsimp only
    rw [hacc]
    split
    · next i hi => exact ⟨rfl, rfl, fun h => by simp [hi] at h⟩
    · exact ⟨rfl, rfl, fun _ => ⟨rfl, rfl⟩⟩
  · exact ⟨rfl, rfl, fun _ => ⟨rfl, rfl⟩⟩

theorem Core.modOp_opOf {k : Core} {o p : Op} (ho : o ∈ k.ops) (hid : p.id = o.id) :
    (k.modOp o.id fun _ => p).opOf o.id = some p := by
  change firstIf (fun q => q.id == o.id) (mapIf (fun q => q.id == o.id) (fun _ => p) k.ops) = _
  generalize k.ops = l at ho
  induction l with
  | nil => cases ho
  | cons q t ih =>
    rw [mapIf, List.map_cons, ← mapIf, firstIf]
    by_cases hq : q.id = o.id
    · simp [hq, hid]
    · have ht : o ∈ t := (List.mem_cons.1 ho).resolve_left fun h => hq (h ▸ rfl)
      simp [hq, ih ht]

/-! ## An operation that leaves flight (05 R151) -/

theorem Core.foldl_deliver_ports (id : Nat) (l : List (Nat × W64)) (k : Core) :
    ∃ p, l.foldl (fun k q => k.deliver id q.1 q.2) k = { k with ports := p } := by
  induction l generalizing k with
  | nil => exact ⟨k.ports, rfl⟩
  | cons q t ih =>
    have hq : ∃ p, k.deliver id q.1 q.2 = { k with ports := p } := by
      unfold Core.deliver
      split
      · exact ⟨_, rfl⟩
      · exact ⟨k.ports, rfl⟩
    obtain ⟨p, hp⟩ := hq
    rw [List.foldl_cons, hp]
    exact ih { k with ports := p }

theorem Core.finish_frame (k : Core) (o : Op) (vs : List W64) :
    ∃ p, k.finish o vs = { k with ops := k.ops.filter fun q => q.id != o.id, ports := p } :=
  Core.foldl_deliver_ports _ _ _

@[simp] theorem Core.finish_vreg (k : Core) (o : Op) (vs : List W64) : (k.finish o vs).vreg = k.vreg := by
  obtain ⟨p, hp⟩ := k.finish_frame o vs
  rw [hp]

@[simp] theorem Core.finish_mreg (k : Core) (o : Op) (vs : List W64) : (k.finish o vs).mreg = k.mreg := by
  obtain ⟨p, hp⟩ := k.finish_frame o vs
  rw [hp]

@[simp] theorem Core.finish_pennant (k : Core) (o : Op) (vs : List W64) : (k.finish o vs).pennant = k.pennant := by
  obtain ⟨p, hp⟩ := k.finish_frame o vs
  rw [hp]

@[simp] theorem Core.finish_lanes (k : Core) (o : Op) (vs : List W64) : (k.finish o vs).lanes = k.lanes := by
  obtain ⟨p, hp⟩ := k.finish_frame o vs
  rw [hp]

@[simp] theorem Core.finish_vregOf (k : Core) (o : Op) (vs : List W64) (r : Nat) : (k.finish o vs).vregOf r = k.vregOf r := by
  rw [Core.vregOf, Core.finish_vreg, Core.vregOf]

@[simp] theorem Core.finish_elem (k : Core) (o : Op) (vs : List W64) (r w i : Nat) :
    (k.finish o vs).elem r w i = k.elem r w i := by
  rw [Core.elem, Core.finish_vregOf, Core.elem]

@[simp] theorem Core.finish_opOf_same (k : Core) (o : Op) (vs : List W64) : (k.finish o vs).opOf o.id = none := by
  obtain ⟨p, hp⟩ := k.finish_frame o vs
  simp [hp, Core.opOf, Core.oldest, firstIf_eq_find?]

/-- The last result delivered stands in its port, unless a later operation owns that. -/
theorem Core.finish_port {k : Core} {o : Op} {vs : List W64} {l : List (Nat × W64)} {p : Nat} {x : W64}
    (hzip : (resultPorts o.port o.cap).zip vs = l ++ [(p, x)]) (hown : nget o.id k.portLast p = o.id) :
    nget 0 (k.finish o vs).ports p = x := by
  have hdeliver (j : Core) (hj : nget o.id j.portLast p = o.id) : nget 0 (j.deliver o.id p x).ports p = x := by
    simp [Core.deliver, hj]
  unfold Core.finish
  rw [hzip, List.foldl_append, List.foldl_cons, List.foldl_nil]
  obtain ⟨q, hq⟩ := Core.foldl_deliver_ports o.id l { k with ops := k.ops.filter fun q => q.id != o.id }
  exact hdeliver _ (by rw [hq]; exact hown)

/-! ## Elements of a vector register (08 R243) -/

/-- A number whose bits from `a`, `w` of them, hold the low bits of `x`, the others those of `n`. -/
theorem testBit_putBits (n a w x j : Nat) :
    (n - n >>> a % 2 ^ w * 2 ^ a + x % 2 ^ w * 2 ^ a).testBit j
      = if j < a then n.testBit j else if j < a + w then x.testBit (j - a) else n.testBit j := by
  have hlow : n % 2 ^ a < 2 ^ a := Nat.mod_lt _ (Nat.two_pow_pos a)
  have hnew : x % 2 ^ w < 2 ^ w := Nat.mod_lt _ (Nat.two_pow_pos w)
  have hsplit : n = 2 ^ a * (2 ^ w * (n >>> a / 2 ^ w) + n >>> a % 2 ^ w) + n % 2 ^ a := by
    rw [Nat.div_add_mod, Nat.shiftRight_eq_div_pow, Nat.div_add_mod]
  have hput : n - n >>> a % 2 ^ w * 2 ^ a + x % 2 ^ w * 2 ^ a
      = 2 ^ a * (2 ^ w * (n >>> a / 2 ^ w) + x % 2 ^ w) + n % 2 ^ a := by
    have : n >>> a % 2 ^ w * 2 ^ a = 2 ^ a * (n >>> a % 2 ^ w) := Nat.mul_comm _ _
    have : x % 2 ^ w * 2 ^ a = 2 ^ a * (x % 2 ^ w) := Nat.mul_comm _ _
    rw [Nat.mul_add] at hsplit ⊢
    omega
  rw [hput, Nat.testBit_two_pow_mul_add _ hlow, Nat.testBit_two_pow_mul_add _ hnew]
  by_cases h : j < a
  · simp [h, Nat.testBit_mod_two_pow]
  · by_cases hw : j < a + w
    · have : j - a < w := by omega
      simp [h, hw, this, Nat.testBit_mod_two_pow]
    · have hj : ¬ j - a < w := by omega
      have hpos : a + (w + (j - a - w)) = j := by omega
      simp [h, hw, hj, ← Nat.shiftRight_eq_div_pow, Nat.testBit_shiftRight, hpos]

theorem Core.testBit_elem (k : Core) (r w i b : Nat) :
    (k.elem r w i).testBit b = (decide (b < w) && (k.vregOf r).getLsbD (w * i + b)) := by
  rw [Core.elem, Nat.testBit_mod_two_pow, Nat.testBit_shiftRight, BitVec.testBit_toNat]

theorem Core.getLsbD_putElem (k : Core) (r w i x b : Nat) :
    ((k.putElem r w i x).vregOf r).getLsbD b = (decide (b < 8192) && if b < w * i then (k.vregOf r).getLsbD b
      else if b < w * i + w then x.testBit (b - w * i) else (k.vregOf r).getLsbD b) := by
  rw [Core.vregOf, Core.putElem, nget_nset_same, BitVec.getLsbD_ofNat, testBit_putBits, BitVec.testBit_toNat]

/-- An element written, read back with the others of its register. -/
theorem Core.elem_putElem (k : Core) (r w i x j : Nat) (hi : w * (i + 1) ≤ 8192) :
    (k.putElem r w i x).elem r w j = if j = i then x % 2 ^ w else k.elem r w j := by
  refine Nat.eq_of_testBit_eq fun b => ?_
  rw [Core.testBit_elem, Core.getLsbD_putElem, apply_ite (Nat.testBit · b), Nat.testBit_mod_two_pow, Core.testBit_elem]
  by_cases hb : b < w
  · rw [Nat.mul_succ] at hi
    rcases Nat.lt_trichotomy j i with h | rfl | h
    · have hlt : w * (j + 1) ≤ w * i := Nat.mul_le_mul_left w h
      rw [Nat.mul_succ] at hlt
      have hin : w * j + b < 8192 := by omega
      have hbelow : w * j + b < w * i := by omega
      simp [hb, hin, hbelow, Nat.ne_of_lt h]
    · have hin : w * j + b < 8192 := by omega
      have hnotBelow : ¬ w * j + b < w * j := by omega
      simp [hb, hin, hnotBelow]
    · have hlt : w * (i + 1) ≤ w * j := Nat.mul_le_mul_left w h
      rw [Nat.mul_succ] at hlt
      have hnotBelow : ¬ w * j + b < w * i := by omega
      have hnotIn : ¬ w * j + b < w * i + w := by omega
      simpa [hb, hnotBelow, hnotIn, Nat.ne_of_gt h] using BitVec.lt_of_getLsbD
  · simp [hb]

theorem Core.vregOf_putElem_other (k : Core) {r q : Nat} (w i x : Nat) (h : q ≠ r) : (k.putElem r w i x).vregOf q = k.vregOf q :=
  nget_nset_other _ _ _ _ _ h

theorem Core.elem_of_vregOf {j k : Core} {r : Nat} (h : j.vregOf r = k.vregOf r) (w i : Nat) : j.elem r w i = k.elem r w i := by
  rw [Core.elem, h, Core.elem]

/-! ## The element loop (08 R249, R255) -/

/-- `k` is `j` once the elements of register `dst` below `n`, `w` bits wide, have their values. -/
structure ElemsDone (j k : Core) (dst w : Nat) (value : Nat → Nat) (n : Nat) : Prop where
  elem : ∀ i, k.elem dst w i = if i < n then value i else j.elem dst w i
  others : ∀ r, r ≠ dst → k.vregOf r = j.vregOf r

namespace ElemsDone
variable {j k : Core} {dst w n : Nat} {value : Nat → Nat}

theorem start (k : Core) (dst w : Nat) (value : Nat → Nat) : ElemsDone k k dst w value 0 :=
  ⟨fun i => by simp, fun _ _ => rfl⟩

theorem put (h : ElemsDone j k dst w value n) (hn : w * (n + 1) ≤ 8192) {x : Nat} (hx : x % 2 ^ w = value n) :
    ElemsDone j (k.putElem dst w n x) dst w value (n + 1) where
  elem i := by
    rw [Core.elem_putElem _ _ _ _ _ _ hn, h.elem]
    by_cases hi : i = n
    · simp [hi, hx]
    · have : i < n + 1 ↔ i < n := by omega
      simp [hi, this]
  others r hr := (k.vregOf_putElem_other w n x hr).trans (h.others r hr)

theorem skip (h : ElemsDone j k dst w value n) (hn : j.elem dst w n = value n) : ElemsDone j k dst w value (n + 1) where
  elem i := by
    rw [h.elem]
    by_cases hi : i = n
    · simp [hi, hn]
    · have : i < n + 1 ↔ i < n := by omega
      simp [this]
  others := h.others

/-- The elements not yet done are read as they were, whatever register they are of. -/
theorem unread (h : ElemsDone j k dst w value n) (r : Nat) : k.elem r w n = j.elem r w n := by
  by_cases hr : r = dst
  · rw [hr, h.elem, if_neg (Nat.lt_irrefl n)]
  · exact Core.elem_of_vregOf (h.others r hr) w n

theorem congr {l : Core} (h : ElemsDone j k dst w value n) (hl : l.vreg = k.vreg) : ElemsDone j l dst w value n := by
  have hreg (r : Nat) : l.vregOf r = k.vregOf r := by rw [Core.vregOf, hl, Core.vregOf]
  exact ⟨fun i => (Core.elem_of_vregOf (hreg dst) w i).trans (h.elem i), fun r hr => (hreg r).trans (h.others r hr)⟩

end ElemsDone

theorem foldl_add_eq {α : Type} (f : α → Nat) (l : List α) (n : Nat) : l.foldl (fun a x => a + f x) n = n + sumBy f l := by
  induction l generalizing n with
  | nil => rfl
  | cons a t ih => rw [sumBy, List.foldl_cons, List.foldl_cons, ih, ih, Nat.zero_add, Nat.add_assoc]

theorem sumBy_cons {α : Type} (f : α → Nat) (a : α) (l : List α) : sumBy f (a :: l) = f a + sumBy f l := by
  rw [sumBy, List.foldl_cons, foldl_add_eq, Nat.zero_add]

theorem sumBy_le_length {α : Type} {f : α → Nat} (hf : ∀ a, f a ≤ 1) (l : List α) : sumBy f l ≤ l.length := by
  induction l with
  | nil => exact Nat.le_refl 0
  | cons a t ih =>
    have ha := hf a
    rw [sumBy_cons, List.length_cons]
    omega

/-- Where each element goes on from what the ones before it left, without a trap, the loop
comes to its end and counts the elements written. -/
theorem eachLane_runs {f : Core → Nat → Lane} {P : Nat → Core → Prop} {on : Nat → Bool} {stop : Nat}
    (hstep : ∀ i k, i < stop → P i k → ∃ k', f k i = .inl (k', on i) ∧ P (i + 1) k') :
    ∀ n i k, i + n = stop → P i k →
      ∃ k', eachLane f n i k = (k', stop, sumBy (fun j => b2n (on j)) (List.range' i n), none) ∧ P stop k' := by
  intro n
  induction n with
  | zero =>
    rintro i k rfl hP
    exact ⟨k, rfl, hP⟩
  | succ n ih =>
    intro i k hi hP
    obtain ⟨k₁, hf, hP₁⟩ := hstep i k (by omega) hP
    obtain ⟨k', hrun, hP'⟩ := ih (i + 1) k₁ (by omega) hP₁
    refine ⟨k', ?_, hP'⟩
    simp only [eachLane, hf, hrun, List.range'_succ, sumBy_cons, Nat.add_comm]

theorem Core.runLanes_runs {k : Core} {o : Op} {f : Core → Nat → Lane} {P : Nat → Core → Prop} {on : Nat → Bool} {stop : Nat}
    (hi : o.index = 0) (hP : P 0 k) (hstep : ∀ i k, i < stop → P i k → ∃ k', f k i = .inl (k', on i) ∧ P (i + 1) k') :
    ∃ k', k.runLanes o f stop
      = (k', { o with index := stop, pos := o.pos + sumBy (fun j => b2n (on j)) (List.range stop) }, [], none) ∧ P stop k' := by
  obtain ⟨k', hrun, hP'⟩ := eachLane_runs hstep stop 0 k (Nat.zero_add stop) hP
  refine ⟨k', ?_, hP'⟩
  simp [Core.runLanes, hi, hrun, List.range_eq_range']

/-! ## Two's complement (00 R6) -/

theorem sval_emod (w x : Nat) : sval w x % (2 ^ w : Nat) = x % (2 ^ w : Nat) := by
  unfold sval
  dsimp only
  split
  · rw [Int.natCast_emod, Int.emod_emod]
  · rw [Int.sub_emod_right, Int.natCast_emod, Int.emod_emod]

theorem uval_of_emod {w n : Nat} {z : Int} (h : z % (2 ^ w : Nat) = n % (2 ^ w : Nat)) : uval w z = n % 2 ^ w := by
  rw [uval, h, ← Int.natCast_emod, Int.toNat_natCast]

theorem uval_mod (w : Nat) (z : Int) : uval w z % 2 ^ w = uval w z := by
  have hpos := Nat.two_pow_pos w
  have hlt : z % (2 ^ w : Nat) < (2 ^ w : Nat) := Int.emod_lt_of_pos z (by omega)
  refine Nat.mod_eq_of_lt ?_
  unfold uval
  omega

theorem ofNat_uval (w : Nat) (z : Int) : BitVec.ofNat w (uval w z) = BitVec.ofInt w z := by
  refine BitVec.eq_of_toNat_eq ?_
  rw [BitVec.toNat_ofNat, uval_mod, BitVec.toNat_ofInt, uval]

/-! ## INT32 arithmetic (08 R249, R250, Table 8.3) -/

/-- VADD, VSUB and VMUL. -/
def isBasicArith (p : Nat) : Prop := p = 0x218 ∨ p = 0x219 ∨ p = 0x21A

/-- The low 32 bits of the sum, difference or product of INT32 elements. -/
def int32Result (p x y : Nat) : Nat := (if p = 0x218 then x + y else if p = 0x219 then x + 2 ^ 32 - y else x * y) % 2 ^ 32

/-- What element `i` of the destination holds after VADD, VSUB or VMUL of INT32. -/
def Core.int32Elem (k : Core) (v : VecCfg) (i : Nat) : Nat :=
  if k.laneOn v i then
    int32Result v.port (k.elem v.src1 32 i) (if v.scalar2 then v.scalar.toNat % 2 ^ 32 else k.elem v.src2 32 i)
  else if v.mzero then 0
  else k.elem v.dst 32 i

theorem Op.vec_w_int32 {o : Op} (h : o.vec.code = 0xE) : o.vec.w = 32 := by
  change (fmtWidth o.vec.code).getD _ = 32
  rw [h]
  rfl

theorem Op.vec_vl_int32 {o : Op} (h : o.vec.code = 0xE) : o.vec.vl ≤ 256 := by
  change min _ (8192 / o.vec.w) ≤ 256
  rw [Op.vec_w_int32 h]
  exact Nat.min_le_right _ _

theorem intOp_basic {p : Nat} (hp : isBasicArith p) (x d : Nat) {y : Nat} (hy : y < 2 ^ 32) :
    intOp 32 p x y d = { bits := int32Result p x y } := by
  have hx := sval_emod 32 x
  have hy' := sval_emod 32 y
  obtain rfl | rfl | rfl := hp
  · have hadd : (sval 32 x + sval 32 y) % (2 ^ 32 : Nat) = ((x + y : Nat) : Int) % (2 ^ 32 : Nat) := by
      rw [Int.add_emod, hx, hy', ← Int.add_emod, Int.natCast_add]
    exact congrArg (Num.mk · 0) (uval_of_emod hadd)
  · have hsub : (sval 32 x - sval 32 y) % (2 ^ 32 : Nat) = ((x + 2 ^ 32 - y : Nat) : Int) % (2 ^ 32 : Nat) := by
      have hcast : ((x + 2 ^ 32 - y : Nat) : Int) = x - y + (2 ^ 32 : Nat) := by omega
      rw [Int.sub_emod, hx, hy', ← Int.sub_emod, hcast, Int.add_emod_right]
    exact congrArg (Num.mk · 0) (uval_of_emod hsub)
  · have hmul : (sval 32 x * sval 32 y) % (2 ^ 32 : Nat) = ((x * y : Nat) : Int) % (2 ^ 32 : Nat) := by
      rw [Int.mul_emod, hx, hy', ← Int.mul_emod, Int.natCast_mul]
    exact congrArg (Num.mk · 0) (uval_of_emod hmul)

theorem Core.flag_zero (k : Core) : k.flag 0 = k := by
  simp [Core.flag]

theorem Core.laneTrap_zero (k : Core) : k.laneTrap 0 = none := by
  simp [Core.laneTrap, bit]

theorem Core.second_lt {k : Core} {v : VecCfg} (i : Nat) : k.second v i < 2 ^ v.w := by
  unfold Core.second Core.elem
  split <;> exact Nat.mod_lt _ (Nat.two_pow_pos v.w)

theorem Core.laneStep_int32 (k : Core) {v : VecCfg} (hp : isBasicArith v.port) (hc : v.code = 0xE) (hw : v.w = 32) (i : Nat) :
    k.laneStep v i = .inl
      (if k.laneOn v i || v.mzero then k.putElem v.dst 32 i (k.int32Elem v i) else k, k.laneOn v i || v.mzero) := by
  have hcmp : isCompare v.port = false := by
    obtain h | h | h := hp <;> rw [h] <;> rfl
  have hdraw : k.laneDraw v i = (k, 0) := by simp [Core.laneDraw, vecDraws, hc]
  have hcalc (rd : Rnd) (x d : Nat) : vecCalc v rd x (k.second v i) d = { bits := int32Result v.port x (k.second v i) } := by
    have hy : k.second v i < 2 ^ 32 := hw ▸ k.second_lt i
    rw [← intOp_basic hp x d hy, ← hw]
    obtain h | h | h := hp <;> simp [vecCalc, vecFmt, h, hc]
  unfold Core.laneStep
  rw [hcmp, if_neg Bool.false_ne_true]
  cases hon : k.laneOn v i
  · cases hz : v.mzero <;> simp [Core.int32Elem, hon, hz, hw]
  · simp only [hdraw, hcalc, Core.laneTrap_zero, Core.flag_zero]
    simp [Core.int32Elem, Core.second, hon, hw]

theorem Core.runVec_int32 {k : Core} {o : Op} (hp : isBasicArith o.port) (stop next : Nat) :
    k.runVec o stop next = k.runLanes o (fun k i => k.laneStep o.vec i) stop := by
  obtain h | h | h := hp <;> simp [Core.runVec, isMaskOp, isReduction, inRange, h]

theorem Op.vecStop_of_noLimit {o : Op} (h : o.limit = none) : o.vecStop = o.vec.vl := by
  rw [Op.vecStop, h]

theorem Core.vecDone_ends {k k' : Core} {o o' : Op} {vs : List W64} (hlim : o.limit = none)
    (hrun : k.runVec o o.vec.vl o.vec.vl = (k', o', vs, none)) : k.vecDone o = k'.vecEnd o' vs := by
  simp [Core.vecDone, Op.vecStop_of_noLimit hlim, hrun, hlim]

theorem Core.vecEnd_eq_finish (k : Core) {o : Op} (hp : o.port ≠ 0x23D) (vs : List W64) :
    k.vecEnd o vs = k.finish o (BitVec.ofNat 64 o.pos :: vs) := by
  simp [Core.vecEnd, hp]

/-- What the elements of VADD, VSUB and VMUL of INT32 leave before the operation `o` leaves flight. -/
theorem Core.runVec_int32_elems {k : Core} {o : Op} (hp : isBasicArith o.port) (hc : o.vec.code = 0xE) (hi : o.index = 0)
    (hpos : o.pos = 0) : ∃ k', k.runVec o o.vec.vl o.vec.vl = (k', { o with
        index := o.vec.vl
        pos := sumBy (fun i => if k.laneOn o.vec i || o.vec.mzero then 1 else 0) (List.range o.vec.vl) }, [], none)
      ∧ ElemsDone k k' o.vec.dst 32 (k.int32Elem o.vec) o.vec.vl ∧ k' = { k with vreg := k'.vreg } := by
  have hstep (i : Nat) (j : Core) (hlt : i < o.vec.vl)
      (hj : ElemsDone k j o.vec.dst 32 (k.int32Elem o.vec) i ∧ j = { k with vreg := j.vreg }) :
      ∃ j', j.laneStep o.vec i = .inl (j', k.laneOn o.vec i || o.vec.mzero)
        ∧ ElemsDone k j' o.vec.dst 32 (k.int32Elem o.vec) (i + 1) ∧ j' = { k with vreg := j'.vreg } := by
    obtain ⟨hdone, hframe⟩ := hj
    have hvl := Op.vec_vl_int32 hc
    have hon : j.laneOn o.vec i = k.laneOn o.vec i := by rw [hframe]; rfl
    have helem : j.int32Elem o.vec i = k.int32Elem o.vec i := by
      simp only [Core.int32Elem, hon, hdone.unread]
    refine ⟨_, by rw [← hon]; exact j.laneStep_int32 hp hc (Op.vec_w_int32 hc) i, ?_⟩
    rw [hon, helem]
    split
    · refine ⟨hdone.put (by omega) (Nat.mod_eq_of_lt ?_), by rw [hframe]; rfl⟩
      unfold Core.int32Elem int32Result Core.elem
      split
      · exact Nat.mod_lt _ (by decide)
      · split
        · decide
        · exact Nat.mod_lt _ (by decide)
    · next h =>
      refine ⟨hdone.skip ?_, hframe⟩
      simp only [Bool.or_eq_true, not_or, Bool.not_eq_true] at h
      simp [Core.int32Elem, h]
  obtain ⟨k', hrun, hk'⟩ := Core.runLanes_runs hi ⟨ElemsDone.start k _ _ _, rfl⟩ hstep
  refine ⟨k', ?_, hk'⟩
  rw [Core.runVec_int32 hp, hrun, hpos, Nat.zero_add]
  rfl

/-- VADD, VSUB and VMUL of INT32 (08 R249, R250, R258). -/
theorem Core.vecDone_int32 {k : Core} {o : Op} (hp : isBasicArith o.port) (hc : o.vec.code = 0xE) (hlim : o.limit = none)
    (hi : o.index = 0) (hpos : o.pos = 0) :
    (k.vecDone o).opOf o.id = none ∧ ElemsDone k (k.vecDone o) o.vec.dst 32 (k.int32Elem o.vec) o.vec.vl
      ∧ (k.vecDone o).mreg = k.mreg ∧ (k.vecDone o).pennant = k.pennant ∧ (k.vecDone o).due = k.due
      ∧ (k.vecDone o).lanes = k.lanes
      ∧ (nget o.id k.portLast 0x209 = o.id → (nget 0 (k.vecDone o).ports 0x209).toNat
          = sumBy (fun i => if k.laneOn o.vec i || o.vec.mzero then 1 else 0) (List.range o.vec.vl)) := by
  obtain ⟨k', hrun, hdone, hframe⟩ := k.runVec_int32_elems hp hc hi hpos
  have hport : o.port ≠ 0x23D := by
    obtain h | h | h := hp <;> omega
  have hresults : resultPorts o.port o.cap = [0x209] := by
    obtain h | h | h := hp <;> rw [h] <;> rfl
  rw [Core.vecDone_ends hlim hrun, Core.vecEnd_eq_finish _ (by exact hport)]
  refine ⟨Core.finish_opOf_same k' _ _, hdone.congr (Core.finish_vreg _ _ _), ?_, ?_, ?_, ?_, fun hown => ?_⟩
  · rw [Core.finish_mreg, hframe]
  · rw [Core.finish_pennant, hframe]
  · rw [Core.finish_due, hframe]
  · rw [Core.finish_lanes, hframe]
  · have hle := sumBy_le_length (f := fun i => if k.laneOn o.vec i || o.vec.mzero then 1 else 0)
      (fun i => by split <;> decide) (List.range o.vec.vl)
    rw [List.length_range] at hle
    have hvl := Op.vec_vl_int32 hc
    rw [Core.finish_port (l := []) (by rw [hresults]; rfl) (by rw [hframe]; exact hown), BitVec.toNat_ofNat]
    exact Nat.mod_eq_of_lt (Nat.lt_of_le_of_lt (Nat.le_trans hle hvl) (by decide))

/-! ## Mask operations (08 Table 8.3) -/

/-- VMAND, VMOR, VMXOR and VMNOT. -/
def isMaskLogic (p : Nat) : Prop := p = 0x238 ∨ p = 0x239 ∨ p = 0x23A ∨ p = 0x23B

/-- What a mask operation gives for a bit of each of its sources. -/
def maskLogic (p : Nat) (a b : Bool) : Bool :=
  if p = 0x238 then a && b else if p = 0x239 then a || b else if p = 0x23A then a != b else !a

theorem Core.maskOp_logic (k : Core) {v : VecCfg} (hp : isMaskLogic v.port) :
    ∃ x, k.maskOp v = ({ k with mreg := nset (v.dst % 8) x k.mreg }, [])
      ∧ ∀ i, i < 1024 → bit x i = maskLogic v.port (k.maskBit (v.src1 % 8) i) (k.maskBit (v.src2 % 8) i) := by
  unfold Core.maskOp
  obtain h | h | h | h := hp <;> rw [h]
  · exact ⟨_, rfl, fun i _ => BitVec.getLsbD_and⟩
  · exact ⟨_, rfl, fun i _ => BitVec.getLsbD_or⟩
  · exact ⟨_, rfl, fun i _ => BitVec.getLsbD_xor⟩
  · exact ⟨_, rfl, fun i hi => by simp [bit, maskLogic, Core.maskBit, hi]⟩

theorem Core.vecDone_maskLogic {k : Core} {o : Op} (hp : isMaskLogic o.port) (hlim : o.limit = none) :
    (k.vecDone o).opOf o.id = none
      ∧ (∀ i, i < 1024 → (k.vecDone o).maskBit (o.vec.dst % 8) i
          = maskLogic o.port (k.maskBit (o.vec.src1 % 8) i) (k.maskBit (o.vec.src2 % 8) i))
      ∧ (∀ r, r ≠ o.vec.dst % 8 → (k.vecDone o).mregOf r = k.mregOf r) ∧ (k.vecDone o).vreg = k.vreg
      ∧ (nget o.id k.portLast 0x209 = o.id → nget 0 (k.vecDone o).ports 0x209 = 1024) := by
  obtain ⟨x, hmask, hx⟩ := k.maskOp_logic (v := o.vec) hp
  have hport : o.port ≠ 0x23D := by
    obtain h | h | h | h := hp <;> omega
  have hresults : resultPorts o.port o.cap = [0x209] := by
    obtain h | h | h | h := hp <;> rw [h] <;> rfl
  have hrun : k.runVec o o.vec.vl o.vec.vl
      = ({ k with mreg := nset (o.vec.dst % 8) x k.mreg }, { o with pos := 1024, index := o.vec.vl }, [], none) := by
    obtain h | h | h | h := hp <;> simp [Core.runVec, isMaskOp, inRange, h, hmask]
  rw [Core.vecDone_ends hlim hrun, Core.vecEnd_eq_finish _ (by exact hport)]
  refine ⟨Core.finish_opOf_same _ _ _, fun i hi => ?_, fun r hr => ?_, Core.finish_vreg _ _ _, fun hown => ?_⟩
  · rw [Core.maskBit, Core.mregOf, Core.finish_mreg, nget_nset_same, hx i hi]
    rfl
  · rw [Core.mregOf, Core.finish_mreg, nget_nset_other _ _ _ _ _ hr, Core.mregOf]
  · exact Core.finish_port (l := []) (by rw [hresults]; rfl) hown

/-! ## The tree of an INT32 sum (09 R278, R281, Table 9.3) -/

/-- The sum modulo 2^64 of leaves, those of inactive elements being none. -/
def leafSum (l : List (Option Nat)) : W64 := (l.map fun x => BitVec.ofNat 64 (x.getD 0)).sum

theorem redPair_int32 (rd : Rnd) (x y : Option Nat) :
    BitVec.ofNat 64 ((redPair 0xE 0 rd x y).1.getD 0) = BitVec.ofNat 64 (x.getD 0) + BitVec.ofNat 64 (y.getD 0)
      ∧ (redPair 0xE 0 rd x y).2 = 0 := by
  match x, y with
  | none, y => simp [redPair]
  | some a, none => simp [redPair]
  | some a, some b =>
    refine ⟨BitVec.eq_of_toNat_eq ?_, rfl⟩
    simp [redPair, redNode, accFmt]

theorem redLevel_int32 (rd : Rnd) (l : List (Option Nat)) :
    leafSum (redLevel 0xE 0 rd l).1 = leafSum l ∧ (redLevel 0xE 0 rd l).2 = 0
      ∧ (redLevel 0xE 0 rd l).1.length = (l.length + 1) / 2 := by
  match l with
  | [] => exact ⟨rfl, rfl, rfl⟩
  | [a] => exact ⟨rfl, rfl, by simp [redLevel]⟩
  | a :: b :: t =>
    obtain ⟨hsum, hfl, hlen⟩ := redLevel_int32 rd t
    obtain ⟨hpair, hpairFl⟩ := redPair_int32 rd a b
    simp only [leafSum] at hsum
    refine ⟨?_, ?_, ?_⟩
    · simp only [redLevel, leafSum, List.map_cons, List.sum_cons, hpair, hsum, BitVec.add_assoc]
    · simp [redLevel, hfl, hpairFl]
    · simp only [redLevel, List.length_cons, hlen]
      omega

theorem leafSum_of_length_le_one {l : List (Option Nat)} (h : l.length ≤ 1) :
    BitVec.ofNat 64 ((l.headD none).getD 0) = leafSum l := by
  match l, h with
  | [], _ => rfl
  | [a], _ => simp [leafSum]

theorem redTree_int32 (rd : Rnd) (n : Nat) (l : List (Option Nat)) (h : l.length ≤ 2 ^ n) :
    BitVec.ofNat 64 ((redTree 0xE 0 rd n l).1.getD 0) = leafSum l ∧ (redTree 0xE 0 rd n l).2 = 0 := by
  induction n generalizing l with
  | zero => exact ⟨leafSum_of_length_le_one h, rfl⟩
  | succ n ih =>
    rw [redTree]
    split
    · next hone => exact ⟨leafSum_of_length_le_one hone, rfl⟩
    · obtain ⟨hsum, hfl, hlen⟩ := redLevel_int32 rd l
      have hhalf : (redLevel 0xE 0 rd l).1.length ≤ 2 ^ n := by
        rw [Nat.pow_succ] at h
        omega
      obtain ⟨hroot, hrootFl⟩ := ih _ hhalf
      exact ⟨hroot.trans hsum, by simp [hfl, hrootFl]⟩

theorem reduce_int32 (rd : Rnd) {l : List (Option Nat)} (h : l.length ≤ 2 ^ 12) :
    BitVec.ofNat 64 (reduce 0xE 0 rd l).bits = leafSum l ∧ (reduce 0xE 0 rd l).fl = 0 :=
  redTree_int32 rd 12 l h

theorem widenLeaves_int32 {v : VecCfg} (hc : v.code = 0xE) (l : List (Option W64)) :
    widenLeaves v l = (l.map fun x => x.map fun b => uval 64 (sval v.w b.toNat), 0) := by
  have hwiden (x : Nat) : widen v.code v.w x = { bits := uval 64 (sval v.w x) } := by rw [hc]; rfl
  induction l with
  | nil => rfl
  | cons a t ih =>
    unfold widenLeaves at ih ⊢
    rw [List.foldr_cons, ih]
    cases a <;> simp [hwiden]

theorem ofInt_foldl_filter (f : Nat → Int) (p : Nat → Bool) (l : List Nat) (z : Int) :
    BitVec.ofInt 64 ((l.filter p).foldl (fun a i => a + f i) z)
      = BitVec.ofInt 64 z + (l.map fun i => if p i then BitVec.ofInt 64 (f i) else 0).sum := by
  induction l generalizing z with
  | nil => simp
  | cons i t ih =>
    cases hi : p i <;> simp [hi, ih, BitVec.ofInt_add, BitVec.add_assoc]

/-- The leaves of an INT32 row from its first element on add up to the sum of its active elements. -/
theorem Core.leafSum_int32 (k : Core) {v : VecCfg} (hc : v.code = 0xE) (hw : v.w = 32) :
    leafSum (widenLeaves v (k.leavesFrom v 0 v.vl)).1
      = BitVec.ofInt 64 (((List.range v.vl).filter fun i => k.laneOn v i).foldl (fun a i => a + sval 32 (k.elem v.src1 32 i)) 0) := by
  have hleaf (i : Nat) : (BitVec.ofNat 64 (k.elem v.src1 32 i)).toNat = k.elem v.src1 32 i :=
    (BitVec.toNat_ofNat _ _).trans (Nat.mod_eq_of_lt (Nat.lt_trans (Nat.mod_lt _ (by decide)) (by decide : 2 ^ 32 < 2 ^ 64)))
  have hzero : BitVec.ofInt 64 0 = 0#64 := rfl
  rw [ofInt_foldl_filter, hzero, BitVec.zero_add, widenLeaves_int32 hc, leafSum, Core.leavesFrom, hw]
  simp only [List.map_map, Nat.sub_zero]
  refine congrArg List.sum (List.map_congr_left fun i _ => ?_)
  cases hi : k.laneOn v i
  · simp [hi]
  · simp [hi, hleaf, ofNat_uval]

/-- VREDSUM of INT32 (09 R281). -/
theorem Core.vecDone_redSum {k : Core} {o : Op} (hp : o.port = 0x340) (hc : o.vec.code = 0xE) (hlim : o.limit = none)
    (hi : o.index = 0) (hl : o.leaves = []) (hown : nget o.id k.portLast 0x350 = o.id) :
    (k.vecDone o).opOf o.id = none ∧ (k.vecDone o).vreg = k.vreg ∧ (k.vecDone o).mreg = k.mreg
      ∧ (k.vecDone o).pennant = k.pennant
      ∧ nget 0 (k.vecDone o).ports 0x350 = BitVec.ofInt 64 (((List.range o.vec.vl).filter fun i => k.laneOn o.vec i).foldl
          (fun a i => a + sval 32 (k.elem o.vec.src1 32 i)) 0) := by
  have hlen : (widenLeaves o.vec (k.leavesFrom o.vec 0 o.vec.vl)).1.length ≤ 2 ^ 12 := by
    have hvl := Op.vec_vl_int32 hc
    simp only [widenLeaves_int32 hc, Core.leavesFrom, List.length_map, List.length_range]
    omega
  obtain ⟨hsum, hfl⟩ := reduce_int32 o.vec.round hlen
  have hfl' : (widenLeaves o.vec (k.leavesFrom o.vec 0 o.vec.vl)).2 = 0 := by rw [widenLeaves_int32 hc]
  have hflag : k.flag 0#10 = k := k.flag_zero
  have hleaves : k.runLeaves o o.vec o.vec.vl = { o with leaves := k.leavesFrom o.vec 0 o.vec.vl, index := o.vec.vl } := by
    simp [Core.runLeaves, hl, hi]
  have hrun : k.runVec o o.vec.vl o.vec.vl = (k, { o with leaves := k.leavesFrom o.vec 0 o.vec.vl, index := o.vec.vl },
      [BitVec.ofInt 64 (((List.range o.vec.vl).filter fun i => k.laneOn o.vec i).foldl
        (fun a i => a + sval 32 (k.elem o.vec.src1 32 i)) 0)], none) := by
    rw [← k.leafSum_int32 hc (Op.vec_w_int32 hc), ← hsum]
    simp [Core.runVec, isMaskOp, isReduction, inRange, hp, hleaves, hc, hfl, hfl', hflag]
  rw [Core.vecDone_ends hlim hrun, Core.vecEnd_eq_finish _ (by simp [hp])]
  exact ⟨Core.finish_opOf_same _ _ _, Core.finish_vreg _ _ _, Core.finish_mreg _ _ _, Core.finish_pennant _ _ _,
    Core.finish_port (l := [(0x209, BitVec.ofNat 64 o.pos)]) (by simp [resultPorts, isLoadPort, isAtomicPort, inRange, hp]) hown⟩

/-! ## Conversions of INT8 (07 R236, R241, Table 7.5) -/

theorem roundAt_whole (rd : Rnd) (neg : Bool) (m : Nat) : roundAt rd neg m 0 0 false = (m, false) := by
  simp [roundAt, atUnit, roundsUp]

/-- A whole number converted to an integer of `w` bits saturates, and sets no OVERFLOW. -/
theorem toInteger_intVal (w : Nat) (rd : Rnd) (z : Int) :
    (toInteger w 0 rd (intVal z 0)).bits = uval w (max (-(2 ^ (w - 1) - 1) - 1) (min (2 ^ (w - 1) - 1) z))
      ∧ (toInteger w 0 rd (intVal z 0)).fl &&& flOverflow = 0 := by
  have hz : (if decide (z < 0) then -(z.natAbs : Int) else z.natAbs) = z := by
    split
    · next h => rw [Int.ofNat_natAbs_of_nonpos (Int.le_of_lt (of_decide_eq_true h)), Int.neg_neg]
    · next h => exact Int.natAbs_of_nonneg (Int.not_lt.1 fun hz => h (decide_eq_true hz))
  have hpos : (0 : Int) < 2 ^ (w - 1) := Int.pow_pos (by decide)
  have hsat : (flSaturated ||| flInexact) &&& flOverflow = 0 := by decide
  simp only [toInteger, intVal, roundAt_whole, hz]
  generalize (2 : Int) ^ (w - 1) = n at hpos
  by_cases hhigh : n - 1 < z
  · rw [if_pos hhigh]
    exact ⟨congrArg (uval w) (by omega), hsat⟩
  · rw [if_neg hhigh]
    by_cases hlow : z < -(n - 1) - 1
    · rw [if_pos hlow]
      exact ⟨congrArg (uval w) (by omega), hsat⟩
    · rw [if_neg hlow]
      exact ⟨congrArg (uval w) (by omega), BitVec.zero_and⟩

/-- The conversion is one of INT8 to INT8 or INT4, unscaled and without a mask. -/
structure CvCfg.FromInt8 (v : CvCfg) : Prop where
  source : v.sc = 0xC
  target : v.dc = 0xC ∨ v.dc = 0xD
  unscaled : v.k = 0
  unmasked : v.men = false

/-- What such a conversion gives for element `i`. -/
def CvCfg.int8Result (v : CvCfg) (i : Nat) : Nat :=
  uval (codeWidth v.dc) (max (-(2 ^ (codeWidth v.dc - 1) - 1) - 1) (min (2 ^ (codeWidth v.dc - 1) - 1)
    (sval 8 (v.from_.toNat / 2 ^ (8 * i) % 2 ^ 8))))

theorem CvCfg.FromInt8.value {v : CvCfg} (h : v.FromInt8) (i : Nat) :
    v.value i = intVal (sval 8 (v.from_.toNat / 2 ^ (8 * i) % 2 ^ 8)) 0 := by
  simp [CvCfg.value, codeValue, codeWidth, isMx, inRange, fmtOf, h.source, Nat.shiftRight_eq_div_pow]

theorem CvCfg.FromInt8.toCode_int8Result {v : CvCfg} (h : v.FromInt8) (rd : Rnd) (i : Nat) :
    (toCode v.dc rd ((v.value i).scale v.k)).bits = v.int8Result i
      ∧ (toCode v.dc rd ((v.value i).scale v.k)).fl &&& flOverflow = 0 := by
  have hscale (z : Int) : (intVal z 0).scale 0 = intVal z 0 := rfl
  have hcode (x : Val) : toCode v.dc rd x = toInteger (codeWidth v.dc) 0 rd x := by
    obtain hd | hd := h.target <;> rw [hd] <;> rfl
  rw [h.unscaled, h.value, hscale, hcode]
  exact toInteger_intVal _ rd _

theorem Core.cvDraw_frame (k : Core) (v : CvCfg) (i : Nat) : ∃ l, (k.cvDraw v i).1 = { k with lanes := l } := by
  unfold Core.cvDraw
  split
  · split
    · exact ⟨_, rfl⟩
    · exact ⟨k.lanes, rfl⟩
  · exact ⟨k.lanes, rfl⟩

theorem Core.observe_frame (k : Core) (a : Nat) (x : Val) :
    (k.observe a x).vreg = k.vreg ∧ (k.observe a x).due = k.due ∧ (k.observe a x).portLast = k.portLast := by
  cases x <;> exact ⟨rfl, rfl, rfl⟩

/-- An element of such a conversion is written without a trap. -/
theorem Core.cvStep_int8 (k : Core) {v : CvCfg} (h : v.FromInt8) (i : Nat) :
    ∃ j, Core.cvStep v k i = .inl (j, true) ∧ j.vreg = (k.putElem v.dst (codeWidth v.dc) i (v.int8Result i)).vreg
      ∧ j.due = k.due ∧ j.portLast = k.portLast := by
  have hmx : isMx v.dc = false := by
    obtain hd | hd := h.target <;> rw [hd] <;> rfl
  have hactive : k.cvActive v i = true := by simp [Core.cvActive, h.unmasked]
  obtain ⟨l, hdraw⟩ := k.cvDraw_frame v i
  obtain ⟨hbits, hfl⟩ := h.toCode_int8Result { v.round with r := (k.cvDraw v i).2 } i
  unfold Core.cvStep
  simp only [hmx, Bool.false_and, Bool.false_eq_true, if_false, hactive, if_true, hfl, Core.laneTrap_zero, hbits, hdraw]
  split
  · obtain ⟨hvreg, hdue, hlast⟩ := Core.observe_frame ((({ k with lanes := l } : Core).putElem v.dst (codeWidth v.dc) i
      (v.int8Result i)).flag (toCode v.dc { v.round with r := (k.cvDraw v i).2 } ((v.value i).scale v.k)).fl)
      v.amax (v.value i)
    exact ⟨_, rfl, hvreg, hdue, hlast⟩
  · exact ⟨_, rfl, rfl, rfl, rfl⟩

theorem Core.cvOf_count_le (k : Core) (o : Op) : (k.cvOf o).count ≤ 8192 / codeWidth (k.cvOf o).dc :=
  Nat.le_trans (Nat.min_le_right _ _) (Nat.min_le_right _ _)

/-- CONVERT of INT8 to INT8 or INT4 (07 R236, R241). -/
theorem Core.cvDone_int8 {k : Core} {o : Op} (hp : o.port = 0x610) (hi : o.index = 0) (h : (k.cvOf o).FromInt8)
    (hown : nget o.id k.portLast 0x608 = o.id) :
    (k.cvDone o).opOf o.id = none
      ∧ ElemsDone k (k.cvDone o) (k.cvOf o).dst (codeWidth (k.cvOf o).dc) (k.cvOf o).int8Result (k.cvOf o).count
      ∧ (k.cvDone o).due = k.due ∧ nget 0 (k.cvDone o).ports 0x608 = BitVec.ofNat 64 (k.cvOf o).count := by
  have hstep (i : Nat) (j : Core) (hlt : i < (k.cvOf o).count)
      (hj : ElemsDone k j (k.cvOf o).dst (codeWidth (k.cvOf o).dc) (k.cvOf o).int8Result i
        ∧ j.due = k.due ∧ j.portLast = k.portLast) :
      ∃ j', Core.cvStep (k.cvOf o) j i = .inl (j', true)
        ∧ ElemsDone k j' (k.cvOf o).dst (codeWidth (k.cvOf o).dc) (k.cvOf o).int8Result (i + 1)
        ∧ j'.due = k.due ∧ j'.portLast = k.portLast := by
    obtain ⟨hdone, hdue, hlast⟩ := hj
    obtain ⟨j', hj', hvreg, hdue', hlast'⟩ := j.cvStep_int8 h i
    have hfits : codeWidth (k.cvOf o).dc * (i + 1) ≤ 8192 :=
      Nat.le_trans (Nat.mul_le_mul_left _ (Nat.lt_of_lt_of_le hlt (k.cvOf_count_le o))) (Nat.mul_div_le _ _)
    exact ⟨j', hj', (hdone.put hfits (uval_mod _ _)).congr hvreg, hdue'.trans hdue, hlast'.trans hlast⟩
  obtain ⟨k', hrun, hdone, hdue, hlast⟩ := Core.runLanes_runs
    (o := { o with held := some ((k.cvOf o).from_, (k.cvOf o).scales) }) hi ⟨ElemsDone.start k _ _ _, rfl, rfl⟩ hstep
  have hfinish : k.cvDone o = k'.finish o [BitVec.ofNat 64 (k.cvOf o).count] := by
    have hcount : cvCount (o.operand 0x603) o.b = (k.cvOf o).count := rfl
    rw [Core.cvDone, if_neg (by simp [hp])]
    simp only [Core.runCv, hcount, hrun]
  rw [hfinish]
  refine ⟨Core.finish_opOf_same _ _ _, hdone.congr (Core.finish_vreg _ _ _), (Core.finish_due _ _ _).trans hdue, ?_⟩
  exact Core.finish_port (l := []) (by rw [hp]; rfl) (by rw [hlast]; exact hown)

/-! ## The statement -/

/-- Settles O55: each event's core is the one that `Core.vecStep` or `Core.cvDone` makes of it, and the
element loop's rule says what that core holds. -/
theorem vectorAndConversionResults : Obligations.VectorAndConversionResults := by
  unfold Obligations.VectorAndConversionResults
  intro s c hup hc
  dsimp only
  obtain ⟨t, hexec, honly, hcore⟩ := exec_vectorOpComplete_up hup hc
  refine ⟨fun o ho => ⟨fun hr hq => ?waits, fun hq hm => ?sends, fun hr hlim hi hpos => ⟨fun hp hcode => ?arith,
    fun hp => ?mask, fun hp hcode hl hown => ?sum⟩⟩, fun o ho => ?convert⟩
  case waits => exact ⟨t, hexec, honly, hcore.trans (Core.vecStep_waits ho hr hq)⟩
  case sends =>
    obtain ⟨hmem, hunit⟩ := firstIf_some ho
    rw [Core.vecStep_sendsOut ho hq hm] at hcore
    obtain ⟨hvreg, hports, hgood⟩ := Core.sendOut_vec (k := (s.core c).modOp o.id fun _ => { o with stage := .running })
      (o := { o with stage := .running }) hunit none
    refine ⟨t, hexec, honly, by rw [hcore, hvreg]; rfl, by rw [hcore, hports]; rfl, fun hbad => ?_⟩
    obtain ⟨hops, hdue⟩ := hgood hbad
    rw [hcore, Core.opOf, Core.oldest, hops, hdue]
    exact ⟨Core.modOp_opOf hmem rfl, rfl⟩
  case arith =>
    obtain ⟨hop, hdone, hmreg, hpennant, hdue, hlanes, hport⟩ := Core.vecDone_int32 (k := s.core c) hp hcode hlim hi hpos
    rw [← Core.vecStep_performs ho hr, ← hcore] at hop hdone hmreg hpennant hdue hlanes hport
    exact ⟨t, hexec, honly, hop, fun i h => (hdone.elem i).trans (if_pos h),
      fun i h => (hdone.elem i).trans (if_neg (Nat.not_lt.2 h)), hdone.others, hmreg, hpennant, hdue, hlanes, hport⟩
  case mask =>
    rw [Core.vecStep_performs ho hr] at hcore
    exact ⟨t, hexec, honly, by rw [hcore]; exact Core.vecDone_maskLogic hp hlim⟩
  case sum =>
    rw [Core.vecStep_performs ho hr] at hcore
    exact ⟨t, hexec, honly, by rw [hcore]; exact Core.vecDone_redSum hp hcode hlim hi hl hown⟩
  case convert =>
    obtain ⟨t, hexec, honly, hcore⟩ := exec_convertComplete_up hup hc ho
    refine ⟨fun hbusy => ⟨t, hexec, honly, hcore.trans (if_pos hbusy)⟩, fun hfree hp hi hsc hk hmen hdc hown => ?_⟩
    obtain ⟨hop, hdone, hdue, hport⟩ := Core.cvDone_int8 hp hi ⟨hsc, hdc, hk, hmen⟩ hown
    rw [if_neg (by simp [hfree])] at hcore
    rw [← hcore] at hop hdone hdue hport
    have hwidth : (if ((s.core c).cvOf o).dc = 0xC then 8 else 4) = codeWidth ((s.core c).cvOf o).dc := by
      obtain h | h := hdc <;> rw [h] <;> rfl
    have htop : (if ((s.core c).cvOf o).dc = 0xC then (127 : Int) else 7) = 2 ^ (codeWidth ((s.core c).cvOf o).dc - 1) - 1 := by
      obtain h | h := hdc <;> rw [h] <;> rfl
    rw [hwidth, htop]
    refine ⟨fun i hheld _ => ?_, t, hexec, honly, hop, fun i h => (hdone.elem i).trans (if_pos h),
      fun i h => (hdone.elem i).trans (if_neg (Nat.not_lt.2 h)), hdone.others, hdue, hport⟩
    simp [Core.cvOf, Core.elem, hheld, Nat.shiftRight_eq_div_pow]

end Sys2Proof.Machine
end

section
/-!
O56. The matrix array and the tile mover (10 R299-R306, R317-R322, R329, Table 10.4; 13 R409): how a
ladder counts, what trains and completions leave, the exact sum of an interval of INT8 products, and
what the writes of a step leave of the yard.
-/
namespace Sys2Proof.Machine

/-! ## The events of one core -/

theorem exec_trainHeader_up {s : State} (h : s.pw.perst = true) {c : Nat} (hc : c < 25600) :
    exec (.trainHeader c) s = .next ((s.headerFor c false).headerFor c true) := by
  change need (decide (c < 25600)) s (fun s => whenUp s fun s => (s.headerFor c false).headerFor c true) = _
  rw [need_of (decide_eq_true hc), whenUp_up h]

theorem exec_matrixOpComplete_up {s : State} (h : s.pw.perst = true) {c : Nat} (hc : c < 25600) (ecc : Ecc) :
    exec (.matrixOpComplete c ecc) s = .next (s.matrixComplete c ecc) := by
  change need (decide (c < 25600)) s (fun s => whenUp s fun s => s.matrixComplete c ecc) = _
  rw [need_of (decide_eq_true hc), whenUp_up h]

theorem exec_intervalStep_up {s : State} (h : s.pw.perst = true) {c : Nat} (hc : c < 25600) (ecc : Ecc) :
    exec (.intervalStep c ecc) s = .next (s.intervalStep c ecc) := by
  change need (decide (c < 25600)) s (fun s => whenUp s fun s => s.intervalStep c ecc) = _
  rw [need_of (decide_eq_true hc), whenUp_up h]

theorem exec_tmoveComplete_up {s : State} (h : s.pw.perst = true) {c : Nat} (hc : c < 25600) :
    exec (.tmoveComplete c) s = .next (s.modCore c Core.moveComplete) := by
  change need (decide (c < 25600)) s (fun s => whenUp s fun s => s.modCore c Core.moveComplete) = _
  rw [need_of (decide_eq_true hc), whenUp_up h]

theorem Core.finish_nil (k : Core) (o : Op) : k.finish o [] = { k with ops := k.ops.filter fun q => q.id != o.id } := by
  simp [Core.finish]

theorem Core.opOf_of_dropped {k : Core} {l : List Op} {id : Nat} (h : k.ops = l.filter fun q => q.id != id) :
    k.opOf id = none := by
  simp [Core.opOf, Core.oldest, h, firstIf_eq_find?]

/-! ## The ladder as a counter (R306) -/

theorem fullFrom_spec (occ l n : Nat) :
    l ≤ fullFrom occ l n ∧ fullFrom occ l n ≤ l + n ∧ (∀ i, l ≤ i → i < fullFrom occ l n → occ.testBit i = true)
      ∧ (fullFrom occ l n < l + n → occ.testBit (fullFrom occ l n) = false) := by
  induction n generalizing l with
  | zero => exact ⟨Nat.le_refl l, Nat.le_refl l, fun i h1 h2 => absurd h2 (Nat.not_lt.2 h1),
    fun h => absurd h (Nat.lt_irrefl l)⟩
  | succ n ih =>
    unfold fullFrom
    cases hl : occ.testBit l with
    | false => exact ⟨Nat.le_refl l, Nat.le_add_right .., fun i h1 h2 => absurd h2 (Nat.not_lt.2 h1), fun _ => hl⟩
    | true =>
      obtain ⟨hlow, hhigh, hfull, hstop⟩ := ih (l + 1)
      simp only [if_true]
      refine ⟨by omega, by omega, fun i h1 h2 => ?_, fun h => hstop (by omega)⟩
      rcases Nat.eq_or_lt_of_le h1 with rfl | h1
      · exact hl
      · exact hfull i h1 h2

/-- A ladder with room below its last level takes an interval as a binary counter takes one. -/
theorem carrying_of_lt {occ depth : Nat} (h : occ < 2 ^ depth) :
    (carrying occ depth).occ = occ + 1 ∧ (carrying occ depth).folds = false := by
  obtain ⟨-, hhigh, hfull, hstop⟩ := fullFrom_spec occ 0 depth
  unfold carrying
  generalize fullFrom occ 0 depth = c at hhigh hfull hstop
  have hclear : occ.testBit c = false := by
    rcases Nat.lt_or_ge c (0 + depth) with hc | hc
    · exact hstop hc
    · exact Nat.testBit_lt_two_pow (Nat.lt_of_lt_of_le h (Nat.pow_le_pow_right (by decide) (by omega)))
  have hones : occ % 2 ^ c = 2 ^ c - 1 := by
    refine Nat.eq_of_testBit_eq fun i => ?_
    rw [Nat.testBit_mod_two_pow, Nat.testBit_two_pow_sub_one]
    by_cases hi : i < c
    · simp [hi, hfull i (Nat.zero_le i) hi]
    · simp [hi]
  have hsplit := Nat.div_add_mod' occ (2 ^ c)
  have hpos := Nat.two_pow_pos c
  simp only [hclear, Bool.false_eq_true, if_false]
  exact ⟨by omega, trivial⟩

theorem evolve_empty {depth n : Nat} (h : n ≤ 2 ^ depth) : evolve depth n (0, false) = (n, false) := by
  induction n with
  | zero => rfl
  | succ n ih =>
    obtain ⟨hocc, hfolds⟩ := carrying_of_lt (Nat.lt_of_succ_le h)
    have hn := ih (Nat.le_of_succ_le h)
    unfold evolve at hn ⊢
    simp only [forN, hn, hocc, hfolds, Bool.or_false]

/-! ## Descriptors (R296, Table 10.2) -/

theorem testBit_bits {n : Nat} (w : BitVec n) (hi lo i : Nat) :
    (bits w hi lo).testBit i = (decide (i < hi + 1 - lo) && w.getLsbD (lo + i)) := by
  rw [bits, Nat.testBit_mod_two_pow, Nat.testBit_shiftRight, BitVec.testBit_toNat]

/-- A field that a write covers, and that is not reserved, reads as written. -/
theorem bits_written {m r : W64} {hi lo : Nat}
    (h : ∀ i, i < hi + 1 - lo → m.getLsbD (lo + i) = true ∧ r.getLsbD (lo + i) = true) (old v : W64) :
    bits (mergeMask old v m &&& r) hi lo = bits v hi lo := by
  refine Nat.eq_of_testBit_eq fun i => ?_
  rw [testBit_bits, testBit_bits]
  by_cases hi : i < hi + 1 - lo
  · obtain ⟨hm, hr⟩ := h i hi
    simp [mergeMask, hm, hr]
  · simp [hi]

theorem bits_lt {n : Nat} (w : BitVec n) (hi lo : Nat) : bits w hi lo < 2 ^ (hi + 1 - lo) := Nat.mod_lt _ (Nat.two_pow_pos _)

theorem Core.tile_occ (k : Core) (d : Nat) : (k.tile d).occ = bits (k.tileWord d 2) 41 25 := rfl
theorem Core.tile_fold (k : Core) (d : Nat) : (k.tile d).fold = bit (k.tileWord d 2) 42 := rfl
theorem Core.tile_count (k : Core) (d : Nat) : (k.tile d).count = bits (k.tileWord d 3) 23 0 := rfl

theorem Core.tileWord_putTile_same (k : Core) (d w : Nat) (v : W64) : (k.putTile d w v).tileWord d w = v &&& tileMask w :=
  nget_nset_same _ _ _ _

theorem Core.tileWord_putTile_other (k : Core) {d e w x : Nat} (v : W64) (h : 8 * e + x ≠ 8 * d + w) :
    (k.putTile d w v).tileWord e x = k.tileWord e x := nget_nset_other _ _ _ _ _ h

/-- The words that `Core.putLadder` writes into a descriptor (R329). -/
theorem Core.tileWord_putLadder (k : Core) (d occ count : Nat) (fold : Bool) :
    (k.putLadder d occ count fold).tileWord d 2
        = mergeMask (k.tileWord d 2) (pack [(25, occ), (42, b2n fold)]) 0x0000_07FF_FE00_0000 &&& tileMask 2
      ∧ (k.putLadder d occ count fold).tileWord d 3
        = mergeMask (k.tileWord d 3) (BitVec.ofNat 64 count) 0xFF_FFFF &&& tileMask 3 := by
  unfold Core.putLadder
  rw [Core.tileWord_putTile_other _ _ (by omega), Core.tileWord_putTile_same, Core.tileWord_putTile_same]
  exact ⟨rfl, rfl⟩

theorem toNat_pack_two (a b x y : Nat) : (pack [(a, x), (b, y)]).toNat = (x * 2 ^ a + y * 2 ^ b) % 2 ^ 64 := by
  simp [pack]

theorem pack_occ_fold {occ : Nat} (h : occ < 2 ^ 17) (fold : Bool) :
    bits (pack [(25, occ), (42, b2n fold)]) 41 25 = occ ∧ bits (pack [(25, occ), (42, b2n fold)]) 42 42 = b2n fold := by
  have hfold : b2n fold ≤ 1 := by cases fold <;> decide
  rw [bits, bits, toNat_pack_two, Nat.shiftRight_eq_div_pow, Nat.shiftRight_eq_div_pow]
  simp only [Nat.reducePow, Nat.reduceAdd, Nat.reduceSub] at h ⊢
  omega

theorem bit_eq_bits {n : Nat} (w : BitVec n) (i : Nat) : bit w i = decide (bits w i i = 1) := by
  rw [bit, bits, ← BitVec.testBit_toNat, Nat.testBit_eq_decide_div_mod_eq, Nat.shiftRight_eq_div_pow, Nat.add_sub_cancel_left,
    Nat.pow_one]

theorem Core.putLadder_occ (k : Core) (d : Nat) {occ : Nat} (count : Nat) (fold : Bool) (h : occ < 2 ^ 17) :
    ((k.putLadder d occ count fold).tile d).occ = occ ∧ ((k.putLadder d occ count fold).tile d).fold = fold := by
  obtain ⟨hocc, hfold⟩ := pack_occ_fold h fold
  rw [Core.tile_occ, Core.tile_fold, bit_eq_bits, (k.tileWord_putLadder d occ count fold).1, bits_written (by decide),
    bits_written (by decide), hocc, hfold]
  cases fold <;> exact ⟨rfl, rfl⟩

theorem Core.putLadder_count (k : Core) (d occ : Nat) {count : Nat} (fold : Bool) (h : count < 2 ^ 24) :
    ((k.putLadder d occ count fold).tile d).count = count := by
  rw [Core.tile_count, (k.tileWord_putLadder d occ count fold).2, bits_written (by decide)]
  simp only [bits, BitVec.toNat_ofNat, Nat.shiftRight_eq_div_pow]
  omega

theorem Core.putLadder_tile_other (k : Core) {d e : Nat} (occ count : Nat) (fold : Bool) (h : e ≠ d) :
    (k.putLadder d occ count fold).tile e = k.tile e := by
  have hwords : (k.putLadder d occ count fold).tileWords e = k.tileWords e := by
    refine List.map_congr_left fun x hx => ?_
    have hx := List.mem_range.1 hx
    unfold Core.putLadder
    rw [Core.tileWord_putTile_other _ _ (by omega), Core.tileWord_putTile_other _ _ (by omega)]
  rw [Core.tile, hwords, Core.tile]

/-! ## Completion (R309, R313, R329) -/

theorem Core.mxBegin_frame (k : Core) (o : Op) :
    (k.mxBegin o).id = o.id ∧ (k.mxBegin o).port = o.port ∧ (k.mxBegin o).b = o.b ∧ (k.mxBegin o).index = o.index
      ∧ (k.mxBegin o).pos = o.pos := by
  unfold Core.mxBegin
  split <;> exact ⟨rfl, rfl, rfl, rfl, rfl⟩

theorem Core.mxBegin_begun {k : Core} {o : Op} (h : o.pass.testBit 2 = true) : k.mxBegin o = o := if_pos h

theorem Core.mxBegin_res {k : Core} {o : Op} (h : o.pass.testBit 2 = false) :
    (k.mxBegin o).res.toNat = (k.tile (mxLadder o.port o.b)).count := by
  rw [Core.mxBegin, if_neg (by simp [h])]
  exact (BitVec.toNat_ofNat _ _).trans (Nat.mod_eq_of_lt (Nat.lt_trans (bits_lt _ 23 0) (by decide)))

/-- What a completed matrix operation leaves of its core, once `j` holds its ladder's descriptor. -/
def Core.mxLeaves (j : Core) (p : Op) : Core :=
  { j with ops := j.ops.filter fun q => q.id != p.id, ports := nset 0x402 (BitVec.ofNat 64 p.committed) j.ports }

theorem Core.mxLeaves_tile (j : Core) (p : Op) (d : Nat) : (j.mxLeaves p).tile d = j.tile d := rfl

theorem Core.mxLeaves_port (j : Core) (p : Op) :
    nget 0 (j.mxLeaves p).ports 0x402 = BitVec.ofNat 64 p.committed := nget_nset_same _ _ _ _

theorem Core.mxLeaves_opOf (j : Core) {p : Op} {id : Nat} (h : p.id = id) : (j.mxLeaves p).opOf id = none :=
  Core.opOf_of_dropped (l := j.ops) (by rw [← h]; rfl)

theorem Core.mxFinish_tmma {k : Core} {o : Op} (hp : o.port = 0x410) :
    let p := k.mxBegin o
    let st := evolve p.ladder.depth p.mxPer p.mxStart
    k.mxFinish o = (k.putLadder (bits o.b 11 8) st.1 (p.res.toNat + p.mxPer) st.2).mxLeaves p := by
  obtain ⟨-, hport, hb, -, -⟩ := k.mxBegin_frame o
  simp only [Core.mxFinish, Core.finish_nil, mxLadder, hport, hb, hp, if_true, Core.mxLeaves]

theorem Core.mxFinish_tclear {k : Core} {o : Op} (hp : o.port = 0x413) :
    k.mxFinish o = (k.putLadder (bits o.b 3 0) 0 0 false).mxLeaves (k.mxBegin o) := by
  obtain ⟨-, hport, hb, -, -⟩ := k.mxBegin_frame o
  simp [Core.mxFinish, Core.finish_nil, mxLadder, hport, hb, hp, Core.mxLeaves]

theorem State.matrixComplete_waits {s : State} {c : Nat} {o : Op} (ho : (s.core c).oldest (isUnit .mx) = some o)
    (hw : s.mxWaits c o = true) (ecc : Ecc) : s.matrixComplete c ecc = s := by
  simp [State.matrixComplete, ho, hw]

/-- A TMMA whose positions are done, or a TCLEAR, which has none, is finished as it stands. -/
theorem State.matrixComplete_done {s : State} {c : Nat} {o : Op} (ho : (s.core c).oldest (isUnit .mx) = some o)
    (hop : (s.core c).opOf o.id = some o) (hw : s.mxWaits c o = false) (hdone : o.mxPositions ≤ o.index) (ecc : Ecc) :
    s.matrixComplete c ecc = s.modCore c fun k => k.mxFinish o := by
  have hnone : o.mxPositions - o.index = 0 := Nat.sub_eq_zero_of_le hdone
  simp [State.matrixComplete, ho, hw, hnone, State.runPositions, hop, hdone]

/-- A completed TMMA (R309, R329). -/
theorem Core.mxFinish_tmma_leaves {k : Core} {o : Op} (hp : o.port = 0x410)
    (hcount : (k.mxBegin o).res.toNat + (k.mxBegin o).mxPer < 2 ^ 24) :
    let p := k.mxBegin o
    let d := bits o.b 11 8
    (k.mxFinish o).opOf o.id = none ∧ ((k.mxFinish o).tile d).count = p.res.toNat + p.mxPer
      ∧ (p.res2 = 0 → p.ladder.depth ≤ 16 → p.mxPer ≤ 2 ^ p.ladder.depth →
          ((k.mxFinish o).tile d).occ = p.mxPer ∧ ((k.mxFinish o).tile d).fold = false)
      ∧ (∀ e, e ≠ d → (k.mxFinish o).tile e = k.tile e)
      ∧ nget 0 (k.mxFinish o).ports 0x402 = BitVec.ofNat 64 p.committed := by
  obtain ⟨hid, -, -, -, -⟩ := k.mxBegin_frame o
  have hfin := Core.mxFinish_tmma (k := k) hp
  dsimp only at hfin ⊢
  rw [hfin, Core.mxLeaves_tile, Core.mxLeaves_port]
  refine ⟨Core.mxLeaves_opOf _ hid, Core.putLadder_count _ _ _ _ hcount, fun hz hdepth hper => ?_,
    fun e he => (Core.mxLeaves_tile _ _ e).trans (Core.putLadder_tile_other _ _ _ _ he), rfl⟩
  have hstart : (k.mxBegin o).mxStart = (0, false) := by rw [Op.mxStart, hz]; rfl
  have hpow : 2 ^ (k.mxBegin o).ladder.depth ≤ 2 ^ 16 := Nat.pow_le_pow_right (by decide) hdepth
  rw [hstart, evolve_empty hper]
  exact Core.putLadder_occ _ _ _ _ (Nat.lt_of_le_of_lt (Nat.le_trans hper hpow) (by decide))

/-- A completed TCLEAR (R313). -/
theorem Core.mxFinish_tclear_leaves {k : Core} {o : Op} (hp : o.port = 0x413) (hi : o.index = 0) (hpos : o.pos = 0) :
    (k.mxFinish o).opOf o.id = none ∧ ((k.mxFinish o).tile (bits o.b 3 0)).occ = 0
      ∧ ((k.mxFinish o).tile (bits o.b 3 0)).count = 0 ∧ ((k.mxFinish o).tile (bits o.b 3 0)).fold = false
      ∧ nget 0 (k.mxFinish o).ports 0x402 = 0 := by
  obtain ⟨hid, -, -, hindex, hposition⟩ := k.mxBegin_frame o
  obtain ⟨hocc, hfold⟩ := k.putLadder_occ (bits o.b 3 0) (occ := 0) 0 false (by decide)
  have hcommitted : (k.mxBegin o).committed = 0 := by
    rw [Op.committed, hindex, hposition, hi, hpos, Nat.zero_mul]
  rw [Core.mxFinish_tclear hp, Core.mxLeaves_tile, Core.mxLeaves_port, hcommitted]
  exact ⟨Core.mxLeaves_opOf _ hid, hocc, Core.putLadder_count _ _ _ _ (by decide), hfold, rfl⟩

/-! ## Train headers (R318, R319) -/

theorem State.headerFor_none {s : State} {c : Nat} (h : (s.core c).oldest (isUnit .mx) = none) (isB : Bool) :
    s.headerFor c isB = s := by
  simp [State.headerFor, h]

theorem State.headerFor_notTrain {s : State} {c : Nat} {o : Op} {isB : Bool} (h : (s.core c).oldest (isUnit .mx) = some o)
    (hsrc : (o.tileAt (b2n isB)).src ≠ 1) : s.headerFor c isB = s := by
  simp [State.headerFor, h, hsrc]

/-- What a header tells of its operation (R318): the operand's rows, columns and format, and the
ladder's rows and columns. -/
def Op.headerFits (o : Op) (rows cols fmt lrows lcols : Nat) : Prop :=
  rows = (o.tileAt 0).rows ∧ cols = (o.tileAt 0).cols ∧ fmt = (o.tileAt 0).fmt
    ∧ lrows = o.ladder.rows ∧ lcols = o.ladder.cols

/-- An operation of which operand A's header has come. -/
def Op.headed (o : Op) : Op := { o with pass := o.pass + 1 }

theorem Op.headed_tileAt (o : Op) (i : Nat) : o.headed.tileAt i = o.tileAt i := rfl

/-- A core whose operation `id` has taken operand A's header, before the items `rest`. -/
def Core.takesHeader (k : Core) (id : Nat) (rest : List TrainItem) : Core := { k with
  trainIn := rest, ops := mapIf (fun o => o.id == id) Op.headed k.ops }

theorem Core.takesHeader_oldest {k : Core} {p : Op → Bool} (hp : ∀ x : Op, p x.headed = p x) (id : Nat)
    (rest : List TrainItem) :
    (k.takesHeader id rest).oldest p = (k.oldest p).map fun x => if x.id == id then x.headed else x := by
  have hkeeps : p ∘ (fun x => if x.id == id then x.headed else x) = p := by
    funext x
    rw [Function.comp_apply, apply_ite p, hp, ite_self]
  simp only [Core.oldest, Core.takesHeader, mapIf, firstIf_eq_find?, List.find?_map, hkeeps]

theorem State.setCore_onlyCore (s : State) (c : Nat) (k : Core) : OnlyCore c s (s.setCore c k) :=
  ⟨s.setCore_sameBut c k, fun d hd => s.core_setCore_other c d k hd⟩

/-- A matrix operation that faults while its suspend slot is free (R328; 06 R194). -/
theorem Core.mxFault_leaves {k : Core} {o : Op} (hslot : k.slotMx = none) (code addr : Nat) :
    (k.mxFault o code addr).opOf o.id = none ∧ (k.mxFault o code addr).slotMx = some o
      ∧ (k.mxFault o code addr).trainMismatch = k.trainMismatch
      ∧ (k.mxFault o code addr).ops = k.ops.filter (fun q => q.id != o.id)
      ∧ ∃ d, (k.mxFault o code addr).due.getLast? = some d ∧ d.code = code ∧ d.waitOp = some o.id ∧ d.filled = 2 := by
  have hfault : k.mxFault o code addr = { k with
      ports := nset 0x402 (BitVec.ofNat 64 o.committed) k.ports, ops := k.ops.filter fun q => q.id != o.id, slotMx := some o
      due := mapIf (fun d => d.waitOp == some o.id) (fun d => { d with filled := d.filled ||| 2 })
        (k.due ++ [{ code := code, addr := addr, waitOp := some o.id }]) } := by
    simp [Core.mxFault, Core.toMxSlot, Core.fault, hslot]
  rw [hfault]
  exact ⟨Core.opOf_of_dropped rfl, rfl, rfl, rfl, _, by simp [mapIf]; rfl, rfl, rfl, by simp⟩

section
variable {s : State} {c : Nat} {o : Op} {rows cols fmt lrows lcols : Nat} {rest : List TrainItem}
  (ho : (s.core c).oldest (isUnit .mx) = some o) (hport : o.port = 0x410) (hsrc : (o.tileAt 0).src = 1)
  (hpass : o.pass.testBit 0 = false) (hin : (s.core c).trainIn = .header false rows cols fmt lrows lcols :: rest)
include ho hport hsrc hpass hin

theorem State.headerFor_fits (hfit : o.headerFits rows cols fmt lrows lcols) :
    s.headerFor c false = s.setCore c ((s.core c).takesHeader o.id rest) := by
  simp only [State.headerFor, ho, hport, b2n, hsrc, hpass, hin, dropStream, Bool.false_eq_true, if_false]
  exact if_pos hfit

theorem State.headerFor_mismatch (hfit : ¬ o.headerFits rows cols fmt lrows lcols) :
    ∃ items skip addr, s.headerFor c false
      = s.setCore c (({ s.core c with trainIn := items, trainMismatch := true, trainSkip := skip } : Core).mxFault o 3 addr) := by
  simp only [State.headerFor, ho, hport, b2n, hsrc, hpass, hin, dropStream, Bool.false_eq_true, if_false]
  exact ⟨_, _, _, if_neg hfit⟩

theorem State.trainHeader_fits (hop : (s.core c).opOf o.id = some o) (hsrcB : (o.tileAt 1).src ≠ 1)
    (hfit : o.headerFits rows cols fmt lrows lcols) :
    let t := (s.headerFor c false).headerFor c true
    OnlyCore c s t ∧ (t.core c).trainIn = rest ∧ (t.core c).opOf o.id = some o.headed
      ∧ (t.core c).trainMismatch = (s.core c).trainMismatch := by
  have hheader := State.headerFor_fits ho hport hsrc hpass hin hfit
  have hnext : ((s.headerFor c false).core c).oldest (isUnit .mx) = some o.headed := by
    rw [hheader, State.core_setCore_same, Core.takesHeader_oldest (fun _ => rfl), ho]
    simp
  have hsame : (s.headerFor c false).headerFor c true = s.setCore c ((s.core c).takesHeader o.id rest) :=
    (State.headerFor_notTrain (isB := true) hnext (by rw [Op.headed_tileAt]; exact hsrcB)).trans hheader
  dsimp only
  rw [hsame, State.core_setCore_same]
  refine ⟨s.setCore_onlyCore c _, rfl, ?_, rfl⟩
  rw [Core.opOf, Core.takesHeader_oldest (fun _ => rfl), ← Core.opOf, hop]
  simp

theorem State.trainHeader_mismatch (hfit : ¬ o.headerFits rows cols fmt lrows lcols)
    (hops : (s.core c).ops.filter (isUnit .mx) = [o]) (hslot : (s.core c).slotMx = none) :
    let t := (s.headerFor c false).headerFor c true
    OnlyCore c s t ∧ (t.core c).trainMismatch = true ∧ (t.core c).opOf o.id = none ∧ (t.core c).slotMx = some o
      ∧ ∃ d, (t.core c).due.getLast? = some d ∧ d.code = 3 ∧ d.waitOp = some o.id ∧ d.filled = 2 := by
  obtain ⟨items, skip, addr, hheader⟩ := State.headerFor_mismatch ho hport hsrc hpass hin hfit
  obtain ⟨hgone, hheld, hmismatch, hleft, hdue⟩ := Core.mxFault_leaves
    (k := { s.core c with trainIn := items, trainMismatch := true, trainSkip := skip }) (o := o) hslot 3 addr
  have hnone : ((s.headerFor c false).core c).oldest (isUnit .mx) = none := by
    rw [hheader, State.core_setCore_same, Core.oldest, hleft, firstIf_eq_find?, List.find?_eq_none]
    intro q hq hunit
    obtain ⟨hq, hid⟩ := List.mem_filter.1 hq
    have hqo : q ∈ [o] := hops ▸ List.mem_filter.2 ⟨hq, hunit⟩
    rw [List.mem_singleton.1 hqo, bne_self_eq_false] at hid
    cases hid
  dsimp only
  rw [State.headerFor_none hnone, hheader, State.core_setCore_same]
  exact ⟨s.setCore_onlyCore c _, hmismatch, hgone, hheld, hdue⟩

end

/-! ## The tile mover (R322; 13 R409) -/

theorem Core.moveComplete_written {k : Core} {o : Op} (ho : k.oldest (isUnit .mv) = some o) (hrows : o.mvRows ≤ o.index)
    (hacc : k.accsDone o.id = true) :
    k.moveComplete.opOf o.id = none ∧ nget 0 k.moveComplete.ports 0x429 = BitVec.ofNat 64 o.mvRows
      ∧ k.moveComplete.carriedDue = k.carriedDue ++ o.carry.toList := by
  have hleft : ¬ o.index < o.mvRows := Nat.not_lt.2 hrows
  simp only [Core.moveComplete, ho, hacc, hleft, decide_false, Bool.false_and, Bool.not_true, Bool.or_self, Bool.false_eq_true,
    if_false, Core.finish_nil]
  cases o.carry <;> exact ⟨Core.opOf_of_dropped rfl, nget_nset_same _ _ _ _, by simp⟩

theorem Core.moveComplete_stays {k : Core} {o : Op} (ho : k.oldest (isUnit .mv) = some o) (hrows : o.index < o.mvRows)
    (hbytes : o.mvBytes ≠ 0) : k.moveComplete = k := by
  simp [Core.moveComplete, ho, hrows, hbytes]

/-! ## Exact sums of INT8 products (R301, R304) -/

/-- A value is the integer `z`, held in units. -/
def Val.IsInt (v : Val) (z : Int) : Prop := ∃ neg m, v = .fin neg m 0 ∧ scaled neg m 0 0 = z

theorem scaled_units (neg : Bool) (m : Nat) : scaled neg m 0 0 = if neg then -(m : Int) else m := by
  simp [scaled]

theorem intVal_isInt (z : Int) : (intVal z 0).IsInt z := by
  refine ⟨_, _, rfl, ?_⟩
  rw [scaled_units]
  by_cases h : z < 0
  · simp only [h, decide_true, if_true]
    omega
  · simp only [h, decide_false, Bool.false_eq_true, if_false]
    omega

namespace Val.IsInt
variable {v w : Val} {x y : Int}

theorem mul (hv : v.IsInt x) (hw : w.IsInt y) : (mulVal v w).1.IsInt (x * y) := by
  obtain ⟨s, m, rfl, rfl⟩ := hv
  obtain ⟨t, n, rfl, rfl⟩ := hw
  refine ⟨s != t, m * n, rfl, ?_⟩
  simp only [scaled_units, Int.natCast_mul]
  match s, t with
  | false, false => rfl
  | false, true => exact (Int.mul_neg _ _).symm
  | true, false => exact (Int.neg_mul _ _).symm
  | true, true => exact (Int.neg_mul_neg _ _).symm

theorem add (hv : v.IsInt x) (hw : w.IsInt y) : (addVal 0 v w).1.IsInt (x + y) := by
  obtain ⟨s, m, rfl, rfl⟩ := hv
  obtain ⟨t, n, rfl, rfl⟩ := hw
  simp only [addVal, Int.min_self]
  generalize scaled s m 0 0 + scaled t n 0 0 = z
  split
  · next hz => exact ⟨_, 0, rfl, by rw [hz, scaled_units]; simp⟩
  · exact intVal_isInt z

theorem finite (hv : v.IsInt x) : v.isNan = false ∧ (v == .inf false) = false ∧ (v == .inf true) = false := by
  obtain ⟨s, m, rfl, -⟩ := hv
  exact ⟨rfl, rfl, rfl⟩

theorem plainZero (hv : v.IsInt x) : (if v.isZero then .fin false 0 0 else v : Val).IsInt x := by
  split
  · next h =>
    obtain ⟨s, m, rfl, rfl⟩ := hv
    obtain rfl : m = 0 := by simpa [Val.isZero] using h
    exact ⟨false, 0, rfl, by cases s <;> rfl⟩
  · exact hv

/-- An INT32 promotion wraps (R304). -/
theorem promote_int32 (hv : v.IsInt x) (rd : Rnd) : promote 0xE rd v = { bits := uval 32 x } := by
  obtain ⟨s, m, rfl, rfl⟩ := hv
  rfl

end Val.IsInt

theorem foldl_addVal_isInt {α : Type} {l : List α} {f : α → Val} {g : α → Int} (h : ∀ e ∈ l, (f e).IsInt (g e)) {v : Val}
    {z : Int} (hv : v.IsInt z) : ((l.map f).foldl (fun v p => (addVal 0 v p).1) v).IsInt (l.foldl (fun z e => z + g e) z) := by
  induction l generalizing v z with
  | nil => exact hv
  | cons e t ih => exact ih (fun x hx => h x (List.mem_cons_of_mem _ hx)) (hv.add (h e List.mem_cons_self))

/-- An interval of exact integers has their sum, and sets no flag (R301). -/
theorem intervalSum_isInt {α : Type} {l : List α} {f : α → Val} {g : α → Int} (h : ∀ e ∈ l, (f e).IsInt (g e)) :
    (intervalSum none (l.map f)).1.IsInt (l.foldl (fun z e => z + g e) 0) ∧ (intervalSum none (l.map f)).2 = 0 := by
  have hany {p : Val → Bool} (hp : ∀ e ∈ l, p (f e) = false) : (l.map f).any p = false := by
    rw [List.any_map, List.any_eq_false]
    exact fun e he => by simp [hp e he]
  have hnan : (l.map f).any Val.isNan = false := hany fun e he => (h e he).finite.1
  have hplus : ((l.map f).any fun p => p == .inf false) = false := hany fun e he => (h e he).finite.2.1
  have hminus : ((l.map f).any fun p => p == .inf true) = false := hany fun e he => (h e he).finite.2.2
  have hsum := foldl_addVal_isInt h (v := .fin false 0 0) (z := 0) ⟨false, 0, rfl, rfl⟩
  simp only [intervalSum, hnan, hplus, hminus, Bool.and_self, Bool.or_self, Bool.false_eq_true, if_false]
  exact ⟨hsum.plainZero, trivial⟩

/-! ## Bytes of the yard -/

theorem State.byteVals_getElem? (s : State) (l : List (Option Byte)) (a i : Nat) :
    (s.byteVals a l)[i]? = l[i]?.map (s.byteVal (a + i)) := by
  induction l generalizing a i with
  | nil => rfl
  | cons b t ih =>
    cases i with
    | zero => rfl
    | succ i =>
      have e : a + (i + 1) = a + 1 + i := by omega
      rw [State.byteVals, List.getElem?_cons_succ, List.getElem?_cons_succ, ih, e]

theorem Memory.readN_getElem? (m : Memory) (n a i : Nat) : (m.readN a n)[i]? = if i < n then some (m.read (a + i)) else none := by
  induction n generalizing a i with
  | zero => simp [Memory.readN]
  | succ n ih =>
    cases i with
    | zero => simp [Memory.readN]
    | succ i =>
      have e : a + (i + 1) = a + 1 + i := by omega
      rw [Memory.readN, List.getElem?_cons_succ, ih, e]
      simp

theorem Memory.readN_eq_map (m : Memory) (a n : Nat) : m.readN a n = (List.range n).map fun i => m.read (a + i) := by
  refine List.ext_getElem? fun i => ?_
  rw [Memory.readN_getElem?, List.getElem?_map]
  by_cases h : i < n <;> simp [h]

theorem State.byteVals_readN_eq_map (s : State) (a n : Nat) :
    s.byteVals a (s.mem.readN a n) = (List.range n).map fun i => s.byteAt (a + i) := by
  refine List.ext_getElem? fun i => ?_
  rw [State.byteVals_getElem?, Memory.readN_getElem?, List.getElem?_map]
  by_cases h : i < n <;> simp [h, State.byteAt]

theorem ofBytes_byte {l : List Byte} {i : Nat} {b : Byte} (h : l[i]? = some b) : ofBytes l >>> (8 * i) % 2 ^ 8 = b.toNat := by
  induction l generalizing i with
  | nil => cases h
  | cons a t ih =>
    have ha := a.isLt
    cases i with
    | zero =>
      obtain rfl : a = b := by simpa using h
      simp only [ofBytes, Nat.mul_zero, Nat.shiftRight_zero]
      omega
    | succ i =>
      have hrest : (a.toNat + 256 * ofBytes t) >>> 8 = ofBytes t := by
        rw [Nat.shiftRight_eq_div_pow]
        omega
      rw [← ih (by simpa using h), ofBytes, Nat.mul_succ, Nat.add_comm (8 * i), Nat.shiftRight_add, hrest]

theorem State.yardNum_byte (s : State) (c off : Nat) {n i : Nat} (h : i < n) :
    s.yardNum c off n >>> (8 * i) % 2 ^ 8 = (s.byteAt (yardBase c + off + i)).toNat := by
  have hbyte : (s.yardRead (yardBase c + off) n).1[i]? = some (s.byteAt (yardBase c + off + i)) := by
    simp [State.yardRead, State.byteVals_readN_eq_map, h]
  exact ofBytes_byte hbyte

/-! ## A step of INT8 operands (R299, R301, R304, R306) -/

/-- A byte of a yard as an INT8 element. -/
def State.int8At (s : State) (a : Nat) : Int := sval 8 (s.byteAt a).toNat

/-- The sum of the products of output (i, j) over the operation's next interval. -/
def State.int8Sum (s : State) (c : Nat) (o : Op) (i j : Nat) : Int :=
  (List.range (min 8 ((o.tileAt 0).cols - 8 * o.pos))).foldl (fun z e => z
    + s.int8At (yardBase c + (o.tileAt 0).base + i * (o.tileAt 0).pitch + 8 * o.pos + e)
      * s.int8At (yardBase c + (o.tileAt 1).base + j * (o.tileAt 1).pitch + 8 * o.pos + e)) 0

/-- The elements of interval `t` of a row of an INT8 operand. -/
theorem State.rowsOf_int8 (s : State) (c : Nat) {x : Tile} (hx : x.fmt = 0xC) (t : Nat) {rows : List Nat} {n row : Nat}
    (hrow : rows[n]? = some row) :
    (s.rowsOf c x rows t).vals x.fmt n = (List.range (min 8 (x.cols - 8 * t))).map fun e =>
      intVal (s.int8At (yardBase c + x.base + row * x.pitch + 8 * t + e)) 0 := by
  have hcode (b sc : Nat) : codeValue 0xC b sc = intVal (sval 8 b) 0 := by
    simp [codeValue, isMx, inRange, fmtOf, codeWidth]
  have hbytes (m : Nat) : (m * 8 + 7) / 8 = m := by omega
  simp only [Rows.vals, State.rowsOf, hx, codeWidth, Tile.rowAt, nth_eq_getElem?, List.getElem?_map, hrow, Option.map_some,
    Option.getD_some, hcode, hbytes, List.map_map]
  refine List.map_congr_left fun e he => ?_
  have hbyte := s.yardNum_byte c (x.base + row * x.pitch + t * 8) (List.mem_range.1 he)
  have haddr : yardBase c + (x.base + row * x.pitch + t * 8) + e = yardBase c + x.base + row * x.pitch + 8 * t + e := by omega
  simp only [Function.comp_apply, hbyte, haddr, State.int8At]

theorem productsOf_map {α : Type} (l : List α) (f g : α → Val) :
    (productsOf (l.map f) (l.map g)).map Prod.fst = l.map fun e => (mulVal (f e) (g e)).1 := by
  induction l with
  | nil => rfl
  | cons e t ih => exact congrArg (_ :: ·) ih

/-- An empty ladder with a level takes an interval into level 0. -/
theorem carrying_empty {depth : Nat} (h : 1 ≤ depth) :
    carrying 0 depth = { taken := 0, target := 0, folds := false, occ := 1 } := by
  cases depth with
  | zero => exact absurd h (Nat.not_lt_zero 0)
  | succ n => simp [carrying, fullFrom]

theorem StepOut.join_quiet {r : StepOut} (hr : r.trap = none) (k : Core) (place : Nat) (ws : List (Nat × Nat × Nat)) :
    r.join k place ws 0 = { r with writes := r.writes ++ ws } := by
  have htrap : k.laneTrap 0#10 = none := k.laneTrap_zero
  simp [StepOut.join, hr, htrap]

theorem StepOut.foldl_join_quiet {α : Type} {k : Core} {one : StepOut → α → StepOut} {place : α → Nat}
    {w : α → Nat × Nat × Nat} {l : List α} (hone : ∀ p ∈ l, ∀ r, one r p = r.join k (place p) [w p] 0)
    {r : StepOut} (hr : r.trap = none) :
    l.foldl one r = { r with writes := r.writes ++ l.map w } := by
  induction l generalizing r with
  | nil => simp
  | cons p t ih =>
    rw [List.foldl_cons, hone p (List.mem_cons_self ..), StepOut.join_quiet hr,
      ih (fun q hq => hone q (List.mem_cons_of_mem _ hq)) (by exact hr)]
    simp

theorem mem_zip_range {α : Type} {l : List α} {q : α × Nat} : q ∈ l.zip (List.range l.length) ↔ l[q.2]? = some q.1 := by
  rw [List.range_eq_range', ← List.zipIdx_eq_zip_range', List.mem_zipIdx_iff_getElem?]

theorem flatMap_zip_range {α β γ : Type} (l : List α) (m : List β) (f : α → β → γ) :
    ((l.zip (List.range l.length)).flatMap fun i => (m.zip (List.range m.length)).map fun j => f i.1 j.1)
      = l.flatMap fun i => m.map fun j => f i j := by
  have hfst {δ : Type} (l : List δ) : (l.zip (List.range l.length)).map Prod.fst = l :=
    List.map_fst_zip (Nat.le_of_eq List.length_range.symm)
  conv =>
    rhs
    rw [← hfst l, ← hfst m]
  simp only [List.flatMap_map, List.map_map, Function.comp_def]

/-- The next step of an operation is one of a TMMA of INT8 operands that lie in the yard, on an
empty INT32 ladder; nothing is sent downstream and no result tile is written. -/
structure Op.Int8Step (o : Op) : Prop where
  port : o.port = 0x410
  fmtA : (o.tileAt 0).fmt = 0xC
  fmtB : (o.tileAt 1).fmt = 0xC
  ladderFmt : o.ladder.fmt = 0xE
  srcA : (o.tileAt 0).src = 0
  srcB : (o.tileAt 1).src = 0
  cols : (o.tileAt 1).cols = (o.tileAt 0).cols
  empty : o.occ = 0
  deep : 1 ≤ o.ladder.depth
  plain : bits o.b 18 16 = 0

namespace Op.Int8Step
variable {o : Op}

theorem bits_clear (h : o.Int8Step) : bit o.b 16 = false ∧ bit o.b 17 = false ∧ bit o.b 18 = false := by
  have hbit (i : Nat) (hi : i < 3) : bit o.b (16 + i) = false := by
    have := testBit_bits o.b 18 16 i
    rw [h.plain, Nat.zero_testBit, decide_eq_true (by exact hi), Bool.true_and] at this
    exact this.symm
  exact ⟨hbit 0 (by decide), hbit 1 (by decide), hbit 2 (by decide)⟩

theorem operandRows (h : o.Int8Step) (s : State) (c : Nat) (isB : Bool) :
    s.operandRows c o isB = some (s.rowsOf c (o.tileAt (b2n isB))
      (if isB then (o.ladder.cellsAt o.index).2 else (o.ladder.cellsAt o.index).1) o.pos) := by
  have hsrc : (o.tileAt (b2n isB)).src ≠ 1 := by
    cases isB
    · exact fun hs => absurd (h.srcA.symm.trans hs) (by decide)
    · exact fun hs => absurd (h.srcB.symm.trans hs) (by decide)
  exact if_neg hsrc

theorem ladderAdd (h : o.Int8Step) (s : State) (c i j : Nat) {sum : Val × Flags} {z : Int} (hv : sum.1.IsInt z)
    (hfl : sum.2 = 0) : s.ladderAdd c o (carrying o.occ o.ladder.depth) i j sum = { bits := uval 32 z } := by
  rw [h.empty, carrying_empty h.deep]
  simp only [State.ladderAdd, h.ladderFmt, hv.promote_int32, hfl]
  rfl

/-- Output (i, j) of the step, from the rows that hold its operands. -/
theorem output (h : o.Int8Step) (s : State) (c : Nat) {rows cols : List Nat} {n m i j : Nat} (hi : rows[n]? = some i)
    (hj : cols[m]? = some j) :
    s.ladderAdd c o (carrying o.occ o.ladder.depth) i j (intervalSum none ((productsOf
      ((s.rowsOf c (o.tileAt 0) rows o.pos).vals (o.tileAt 0).fmt n)
      ((s.rowsOf c (o.tileAt 1) cols o.pos).vals (o.tileAt 1).fmt m)).map Prod.fst))
      = { bits := uval 32 (s.int8Sum c o i j) } := by
  rw [s.rowsOf_int8 c h.fmtA o.pos hi, s.rowsOf_int8 c h.fmtB o.pos hj, h.cols, productsOf_map]
  obtain ⟨hsum, hfl⟩ := intervalSum_isInt (l := List.range (min 8 ((o.tileAt 0).cols - 8 * o.pos)))
    fun _ _ => (intVal_isInt _).mul (intVal_isInt _)
  exact h.ladderAdd s c i j hsum hfl

end Op.Int8Step

/-- The outputs that such a step writes: offset, bytes and value. -/
def State.int8Writes (s : State) (c : Nat) (o : Op) : List (Nat × Nat × Nat) :=
  (o.ladder.cellsAt o.index).1.flatMap fun i => (o.ladder.cellsAt o.index).2.map fun j =>
    (o.ladder.levelOff 0 i j, 4, uval 32 (s.int8Sum c o i j))

/-- The yard bytes that such a step reads. -/
def Op.int8Reads (o : Op) : List (Nat × Nat) :=
  ((o.ladder.cellsAt o.index).1.map fun r => (o.tileAt 0).rowAt r o.pos)
    ++ (o.ladder.cellsAt o.index).2.map fun r => (o.tileAt 1).rowAt r o.pos

theorem Op.Int8Step.tmmaStep {o : Op} (h : o.Int8Step) (s : State) (c : Nat) :
    s.tmmaStep c o (s.rowsOf c (o.tileAt 0) (o.ladder.cellsAt o.index).1 o.pos)
        (s.rowsOf c (o.tileAt 1) (o.ladder.cellsAt o.index).2 o.pos)
      = { reads := o.int8Reads, writes := s.int8Writes c o } := by
  have hwrites : o.mxWrites = false := by simp [Op.mxWrites, h.port, h.bits_clear.1]
  have hpair : mxPair (o.tileAt 0).fmt (o.tileAt 1).fmt = some (none, 0xE) := by
    rw [h.fmtA, h.fmtB]
    decide
  have hsize : ladSize o.ladder.fmt = 4 := by rw [h.ladderFmt]; rfl
  have hcarry : carrying o.occ o.ladder.depth = { taken := 0, target := 0, folds := false, occ := 1 } := by
    rw [h.empty, carrying_empty h.deep]
  have hreads (x : Tile) (hsrc : x.src = 0) (hfmt : x.fmt = 0xC) (rows : List Nat) :
      x.rowReads rows o.pos = rows.map fun r => x.rowAt r o.pos := by
    simp [Tile.rowReads, hsrc, hfmt, isMx, inRange]
  unfold State.tmmaStep
  simp only [hwrites, hpair, hsize, Bool.false_eq_true, if_false]
  rw [StepOut.foldl_join_quiet (k := s.core c) (place := fun p => o.ladder.levelOff 0 p.1.1 p.2.1)
    (w := fun p => (o.ladder.levelOff 0 p.1.1 p.2.1, 4, uval 32 (s.int8Sum c o p.1.1 p.2.1))) _ rfl]
  · rw [hreads _ h.srcA h.fmtA, hreads _ h.srcB h.fmtB, hcarry]
    simp only [List.map_flatMap, List.map_map, Function.comp_def]
    rw [flatMap_zip_range (o.ladder.cellsAt o.index).1 (o.ladder.cellsAt o.index).2
      fun i j => (o.ladder.levelOff 0 i j, 4, uval 32 (s.int8Sum c o i j))]
    simp [Op.int8Reads, State.int8Writes, Tile.levelReads]
  · intro p hp r
    obtain ⟨q, hq, hp⟩ := List.mem_flatMap.1 hp
    obtain ⟨q', hq', rfl⟩ := List.mem_map.1 hp
    rw [h.output s c (mem_zip_range.1 hq) (mem_zip_range.1 hq'), hcarry]

/-! ## Tables built by writes -/

theorem mem_of_nfind {α : Type} {m : NMap α} {a : Nat} {v : α} (h : nfind m a = some v) : (a, v) ∈ m := by
  induction m with
  | nil => cases h
  | cons p t ih =>
    obtain ⟨b, w⟩ := p
    unfold nfind at h
    split at h
    · next hb =>
      cases h
      exact hb ▸ List.mem_cons_self ..
    · exact List.mem_cons_of_mem _ (ih h)

/-- The table that a list of keys and values leaves, each written over the ones before it. -/
def tableOf {α : Type} (l : List (Nat × α)) : NMap α := l.foldl (fun m q => nset q.1 q.2 m) []

theorem mem_of_mem_foldl_nset {α : Type} {l : List (Nat × α)} {m : NMap α} {q : Nat × α}
    (h : q ∈ l.foldl (fun m q => nset q.1 q.2 m) m) : q ∈ m ∨ q ∈ l := by
  induction l generalizing m with
  | nil => exact .inl h
  | cons p t ih =>
    rcases ih h with h | h
    · rcases mem_nset h with rfl | h
      · exact .inr List.mem_cons_self
      · exact .inl h
    · exact .inr (List.mem_cons_of_mem _ h)

theorem nfind_foldl_nset_isSome {α : Type} {l : List (Nat × α)} {m : NMap α} {k : Nat}
    (h : (∃ v, nfind m k = some v) ∨ ∃ v, (k, v) ∈ l) : ∃ v, nfind (l.foldl (fun m q => nset q.1 q.2 m) m) k = some v := by
  induction l generalizing m with
  | nil => exact h.resolve_right fun ⟨_, hv⟩ => List.not_mem_nil hv
  | cons p t ih =>
    refine ih ?_
    by_cases hk : k = p.1
    · exact .inl ⟨p.2, hk ▸ nfind_nset_same _ _ _⟩
    · rw [nfind_nset_other _ _ _ _ hk]
      refine h.imp_right fun ⟨v, hv⟩ => ⟨v, (List.mem_cons.1 hv).resolve_left fun hp => hk ?_⟩
      rw [← hp]

theorem mem_of_mem_tableOf {α : Type} {l : List (Nat × α)} {q : Nat × α} (h : q ∈ tableOf l) : q ∈ l :=
  (mem_of_mem_foldl_nset h).resolve_left List.not_mem_nil

theorem nfind_tableOf_isSome {α : Type} {l : List (Nat × α)} {q : Nat × α} (h : q ∈ l) :
    ∃ v, nfind (tableOf l) q.1 = some v := nfind_foldl_nset_isSome (.inr ⟨q.2, h⟩)

/-- Where no key is written twice with different values, the table holds what the list lists. -/
theorem nfind_tableOf {α : Type} {l : List (Nat × α)} (h : ∀ a v w, (a, v) ∈ l → (a, w) ∈ l → v = w)
    (a : Nat) (v : α) : nfind (tableOf l) a = some v ↔ (a, v) ∈ l := by
  refine ⟨fun hv => mem_of_mem_tableOf (mem_of_nfind hv), fun hv => ?_⟩
  obtain ⟨w, hw⟩ := nfind_tableOf_isSome hv
  rw [h a v w hv (mem_of_mem_tableOf (mem_of_nfind hw))]
  exact hw

/-! ## Writes into a yard (11 R331) -/

/-- A word of a memory written by lanes: `g` gives the new bytes, by address. -/
theorem Memory.read_writeN_lanes {m : Memory} (hm : m.wf = true) (w : Nat) (g : Nat → Option Byte) (a : Nat) :
    (m.writeN w ((List.range 8).map fun i => g (w + i))).read a
      = if w ≤ a ∧ a < w + 8 then (g a).or (m.read a) else m.read a := by
  split
  · next h =>
    obtain ⟨i, rfl⟩ := Nat.exists_eq_add_of_le h.1
    rw [Memory.read_writeN_at w _ hm i (by simp; omega), List.getElem_map, List.getElem_range]
    cases g (w + i) <;> rfl
  · next h =>
    refine Memory.read_writeN_outside m w a _ ?_
    simp only [List.length_map, List.length_range]
    omega

theorem State.freshBad_iff (s : State) (w : Nat) :
    s.freshBad w = true ↔ (∃ i < 8, s.mem.read (w + i) = none) ∧ Config.freshWordBad s.memEpoch w = true := by
  simp [State.freshBad, Memory.readN_eq_map]

theorem State.setMem_sameBut (s : State) (m : Memory) : SameBut [.mem] s { s with mem := m } := by
  intro p hp
  cases p <;> simp [Part.same] at hp ⊢

/-- `t` is `s` with the bytes that `f` gives laid over its memory. -/
structure State.Overlaid (s t : State) (f : Nat → Option Byte) : Prop where
  frame : SameBut [.mem] s t
  wf : t.mem.wf = true
  written : ∀ a, t.mem.read a = none → s.mem.read a = none
  byte : ∀ a, t.byteAt a = (f a).getD (s.byteAt a)

namespace State.Overlaid
variable {s t u : State} {f g : Nat → Option Byte}

theorem refl (h : s.mem.wf = true) : s.Overlaid s fun _ => none := ⟨.refl _ s, h, fun _ ha => ha, fun _ => rfl⟩

theorem trans (hst : s.Overlaid t f) (htu : t.Overlaid u g) : s.Overlaid u fun a => (g a).or (f a) where
  frame := hst.frame.trans htu.frame
  wf := htu.wf
  written a ha := hst.written a (htu.written a ha)
  byte a := by
    rw [htu.byte, hst.byte]
    cases g a <;> rfl

theorem congr (h : s.Overlaid t f) (hfg : ∀ a, f a = g a) : s.Overlaid t g := (funext hfg : f = g) ▸ h

/-- A word that holds no error holds none once bytes have been written. -/
theorem wordGood (h : s.Overlaid t f) {w : Nat} (hw : s.yardWordBad w = false) : t.yardWordBad w = false := by
  have hbad : t.yardBad = s.yardBad := h.frame .yardBad (by decide)
  have hepoch : t.memEpoch = s.memEpoch := h.frame .memEpoch (by decide)
  obtain ⟨hlisted, hfresh⟩ := Bool.or_eq_false_iff.1 hw
  rw [State.yardWordBad, hbad, hlisted, Bool.false_or, Bool.eq_false_iff, Ne, State.freshBad_iff, hepoch]
  rintro ⟨⟨i, hi, hnone⟩, hconf⟩
  exact Bool.eq_false_iff.1 hfresh ((s.freshBad_iff w).2 ⟨⟨i, hi, h.written _ hnone⟩, hconf⟩)

end State.Overlaid

/-- The bytes of `g` within word `w`. -/
def laneAt (g : Nat → Option Byte) (w a : Nat) : Option Byte := if w ≤ a ∧ a < w + 8 then g a else none

/-- A memory that reads as `f` laid over that of `s`: a byte that `f` leaves out reads as before, or as
the value that it had where it has been written back. -/
theorem State.overlaid_of_read {s : State} {m : Memory} {f : Nat → Option Byte} (hm : m.wf = true)
    (hread : ∀ a, m.read a = (f a).or (s.mem.read a) ∨ m.read a = some ((f a).getD (s.byteAt a))) :
    s.Overlaid { s with mem := m } f where
  frame := s.setMem_sameBut m
  wf := hm
  written a ha := by
    rcases hread a with h | h
    · exact (Option.or_eq_none_iff.1 (h.symm.trans ha)).2
    · cases h.symm.trans ha
  byte a := by
    change s.byteVal a (m.read a) = _
    rcases hread a with h | h
    · rw [h]
      cases f a <;> rfl
    · rw [h]
      rfl

/-- A word that holds no error takes its lanes, whole or merged. -/
theorem State.yardWriteWord_overlaid {s : State} (hs : s.mem.wf = true) {w : Nat} (hw : s.yardWordBad w = false)
    (g : Nat → Option Byte) :
    (s.yardWriteWord w ((List.range 8).map fun i => g (w + i))).2 = false
      ∧ s.Overlaid (s.yardWriteWord w ((List.range 8).map fun i => g (w + i))).1 (laneAt g w) := by
  have hlane := Memory.read_writeN_lanes hs w g
  unfold State.yardWriteWord
  split
  · next hnone =>
    refine ⟨rfl, (State.Overlaid.refl hs).congr fun a => ?_⟩
    unfold laneAt
    split
    · next ha =>
      obtain ⟨i, rfl⟩ := Nat.exists_eq_add_of_le ha.1
      have hi : i ∈ List.range 8 := List.mem_range.2 (by omega)
      exact (Option.isNone_iff_eq_none.1 (List.all_eq_true.1 hnone _ (List.mem_map_of_mem hi))).symm
    · rfl
  · split
    · have hclean : s.yardBad.filter (· != w) = s.yardBad := by
        refine List.filter_eq_self.2 fun x hx => ?_
        rw [bne_iff_ne]
        rintro rfl
        simp [State.yardWordBad, hx] at hw
      rw [hclean]
      refine ⟨rfl, State.overlaid_of_read (Memory.writeN_wf w _ hs) fun a => .inl ?_⟩
      rw [hlane, laneAt]
      split <;> rfl
    · simp only [hw, Bool.false_eq_true, if_false, State.byteVals_readN_eq_map, List.map_map, Function.comp_def]
      have hold := Memory.writeN_wf w ((List.range 8).map fun i => some (s.byteAt (w + i))) hs
      refine ⟨trivial, State.overlaid_of_read (Memory.writeN_wf w _ hold) fun a => ?_⟩
      rw [Memory.read_writeN_lanes hold, Memory.read_writeN_lanes hs w (fun a => some (s.byteAt a)), laneAt]
      split
      · right
        cases g a <;> rfl
      · exact .inl rfl

/-- Words of a yard take the bytes of `g`, one after the other, and whether one met an error. -/
def State.putWords (s : State) (g : Nat → Option Byte) (ws : List Nat) : State × Bool :=
  ws.foldl (fun p w => ((p.1.yardWriteWord w ((List.range 8).map fun i => g (w + i))).1,
    p.2 || (p.1.yardWriteWord w ((List.range 8).map fun i => g (w + i))).2)) (s, false)

theorem State.putWords_overlaid {g : Nat → Option Byte} {ws : List Nat} {s : State} (hs : s.mem.wf = true)
    (hws : ∀ w ∈ ws, s.yardWordBad w = false) :
    (s.putWords g ws).2 = false
      ∧ s.Overlaid (s.putWords g ws).1 fun a => if ∃ w ∈ ws, w ≤ a ∧ a < w + 8 then g a else none := by
  induction ws generalizing s with
  | nil => exact ⟨rfl, (State.Overlaid.refl hs).congr fun a => by simp⟩
  | cons w t ih =>
    obtain ⟨herr, hover⟩ := s.yardWriteWord_overlaid hs (hws w (List.mem_cons_self ..)) g
    obtain ⟨herr', hover'⟩ := ih hover.wf fun v hv => hover.wordGood (hws v (List.mem_cons_of_mem _ hv))
    rw [State.putWords, List.foldl_cons, herr]
    refine ⟨herr', (hover.trans hover').congr fun a => ?_⟩
    simp only [laneAt, List.mem_cons, exists_eq_or_imp]
    by_cases h1 : w ≤ a ∧ a < w + 8 <;> by_cases h2 : ∃ v ∈ t, v ≤ a ∧ a < v + 8 <;> simp [h1, h2]

/-- The bytes of writes into core `c`'s yard, by address. -/
def yardBytes (c : Nat) (ws : List (Nat × Nat × Nat)) : List (Nat × Byte) :=
  ws.flatMap fun w => ((toBytes w.2.1 w.2.2).zip (List.range w.2.1)).map fun b => (yardBase c + w.1 + b.2, b.1)

/-- The words that writes touch. -/
def yardWords (c : Nat) (ws : List (Nat × Nat × Nat)) : List Nat :=
  (tableOf ((tableOf (yardBytes c ws)).map fun b => (b.1 / 8 * 8, ()))).map Prod.fst

theorem State.yardPut_eq (s : State) (c : Nat) (ws : List (Nat × Nat × Nat)) :
    s.yardPut c ws = s.putWords (nfind (tableOf (yardBytes c ws))) (yardWords c ws) := by
  have hbytes : tableOf (yardBytes c ws) = ws.foldl (fun m w =>
      ((toBytes w.2.1 w.2.2).zip (List.range w.2.1)).foldl (fun m b => nset (yardBase c + w.1 + b.2) b.1 m) m) [] := by
    simp only [tableOf, yardBytes, List.foldl_flatMap, List.foldl_map]
  rw [yardWords, hbytes]
  simp only [State.yardPut, State.putWords, tableOf, List.foldl_map]

/-- Writes into words that hold no error, none of them at odds with another. -/
theorem State.yardPut_good {s : State} {c : Nat} {ws : List (Nat × Nat × Nat)} (hs : s.mem.wf = true)
    (hgood : ∀ q ∈ yardBytes c ws, s.yardWordBad (q.1 / 8 * 8) = false)
    (hone : ∀ a v w, (a, v) ∈ yardBytes c ws → (a, w) ∈ yardBytes c ws → v = w) :
    (s.yardPut c ws).2 = false ∧ SameBut [.mem] s (s.yardPut c ws).1
      ∧ (∀ a b, (a, b) ∈ yardBytes c ws → (s.yardPut c ws).1.byteAt a = b)
      ∧ (∀ a, (∀ b, (a, b) ∉ yardBytes c ws) → (s.yardPut c ws).1.byteAt a = s.byteAt a) := by
  have hwords (w : Nat) (hw : w ∈ yardWords c ws) : s.yardWordBad w = false := by
    obtain ⟨q, hq, rfl⟩ := List.mem_map.1 hw
    obtain ⟨b, hb, rfl⟩ := List.mem_map.1 (mem_of_mem_tableOf hq)
    exact hgood b (mem_of_mem_tableOf hb)
  obtain ⟨herr, hover⟩ := State.putWords_overlaid (g := nfind (tableOf (yardBytes c ws))) hs hwords
  rw [← s.yardPut_eq c ws] at herr hover
  refine ⟨herr, hover.frame, fun a b hab => ?_, fun a ha => ?_⟩
  · have hfind := (nfind_tableOf hone a b).2 hab
    obtain ⟨u, hu⟩ := nfind_tableOf_isSome
      (List.mem_map_of_mem (f := fun b : Nat × Byte => (b.1 / 8 * 8, ())) (mem_of_nfind hfind))
    have hcover : ∃ w ∈ yardWords c ws, w ≤ a ∧ a < w + 8 :=
      ⟨a / 8 * 8, List.mem_map.2 ⟨_, mem_of_nfind hu, rfl⟩, by omega, by omega⟩
    rw [hover.byte, if_pos hcover, hfind]
    rfl
  · have hfind : nfind (tableOf (yardBytes c ws)) a = none :=
      Option.eq_none_iff_forall_not_mem.2 fun b hb => ha b ((nfind_tableOf hone a b).1 hb)
    rw [hover.byte, hfind, ite_self]
    rfl

/-! ## The places of a step (R297, R306) -/

/-- No word of core `c`'s yard holds an error (11 R330). -/
def State.YardGood (s : State) (c : Nat) : Prop := ∀ w, w % 8 = 0 → w < 0x2_0000 → s.yardWordBad (yardBase c + w) = false

theorem yardBase_aligned (c : Nat) : yardBase c % 8 = 0 := by
  unfold yardBase
  omega

theorem State.YardGood.word {s : State} {c w : Nat} (h : s.YardGood c) (hw : w % 8 = 0) (hlow : yardBase c ≤ w)
    (hhigh : w < yardBase c + 0x2_0000) : s.yardWordBad w = false := by
  have hbase := yardBase_aligned c
  have hword := h (w - yardBase c) (by omega) (by omega)
  rwa [Nat.add_sub_cancel' hlow] at hword

theorem State.YardGood.firstBadWord {s : State} {c : Nat} (h : s.YardGood c) {off n : Nat} (hfit : off + n ≤ 0x2_0000) :
    s.firstBadWord (yardBase c + off) n = none := by
  rw [State.firstBadWord, firstIf_eq_find?, List.find?_eq_none]
  intro w hw
  obtain ⟨i, hi, rfl⟩ := List.mem_map.1 hw
  have hi := List.mem_range.1 hi
  have hbase := yardBase_aligned c
  simp [h.word (w := ((yardBase c + off) / 8 + i) * 8) (by omega) (by omega) (by omega)]

/-- What lies within the yard, where the operation's next step works: its operands' rows and the
elements of its ladder's level 0, whose rows do not overlap. -/
structure Op.StepFits (o : Op) : Prop where
  left : o.index < o.mxPositions
  started : 8 * o.pos < (o.tileAt 0).cols
  pitch : 4 * o.ladder.cols ≤ o.ladder.pitch
  inYard : ∀ i j, i ∈ (o.ladder.cellsAt o.index).1 → j ∈ (o.ladder.cellsAt o.index).2 →
    o.ladder.levelOff 0 i j + 4 ≤ 0x2_0000 ∧ (o.tileAt 0).base + i * (o.tileAt 0).pitch + (o.tileAt 0).cols ≤ 0x2_0000
      ∧ (o.tileAt 1).base + j * (o.tileAt 1).pitch + (o.tileAt 0).cols ≤ 0x2_0000

theorem Tile.mem_cellsAt_cols {l : Tile} {pos j : Nat} : j ∈ (l.cellsAt pos).2 → j < l.cols := by
  simp only [Tile.cellsAt, List.mem_map, List.mem_range]
  rintro ⟨r, hr, rfl⟩
  omega

theorem Tile.cellsAt_nonempty {l : Tile} {pos : Nat} (h : pos < l.positions) :
    (∃ i, i ∈ (l.cellsAt pos).1) ∧ ∃ j, j ∈ (l.cellsAt pos).2 := by
  have hcols : 0 < l.posCols := Nat.pos_of_ne_zero fun hz => by simp [Tile.positions, hz] at h
  have hlt := Nat.mod_lt pos hcols
  unfold Tile.posCols at hcols hlt
  simp only [Tile.cellsAt, List.mem_map, List.mem_range]
  refine ⟨⟨_, 0, by decide, rfl⟩, ⟨_, 0, ?_, rfl⟩⟩
  unfold Tile.posCols
  omega

theorem Tile.rowAt_int8 {x : Tile} (h : x.fmt = 0xC) (row t : Nat) :
    x.rowAt row t = (x.base + row * x.pitch + t * 8, min 8 (x.cols - 8 * t)) := by
  have hbytes (m : Nat) : (m * 8 + 7) / 8 = m := by omega
  simp [Tile.rowAt, h, codeWidth, hbytes]

/-- The bytes of a step's writes are those of its outputs' sums. -/
theorem State.mem_yardBytes_int8Writes (s : State) (c : Nat) (o : Op) (a : Nat) (b : Byte) :
    (a, b) ∈ yardBytes c (s.int8Writes c o)
      ↔ ∃ i ∈ (o.ladder.cellsAt o.index).1, ∃ j ∈ (o.ladder.cellsAt o.index).2, ∃ n,
        a = yardBase c + o.ladder.levelOff 0 i j + n ∧ (toBytes 4 (uval 32 (s.int8Sum c o i j)))[n]? = some b := by
  have hzip (x n : Nat) (b : Byte) : (b, n) ∈ (toBytes 4 x).zip (List.range 4) ↔ (toBytes 4 x)[n]? = some b := by
    rw [← mem_zip_range (q := (b, n)), length_toBytes]
  simp only [yardBytes, State.int8Writes, List.mem_flatMap, List.mem_map, Prod.exists, Prod.mk.injEq]
  constructor
  · rintro ⟨off, m, v, ⟨i, hi, j, hj, rfl, rfl, rfl⟩, b', n, hbn, rfl, rfl⟩
    exact ⟨i, hi, j, hj, n, rfl, (hzip _ _ _).1 hbn⟩
  · rintro ⟨i, hi, j, hj, n, rfl, hb⟩
    exact ⟨_, _, _, ⟨i, hi, j, hj, rfl, rfl, rfl⟩, b, n, (hzip _ _ _).2 hb, rfl, rfl⟩

namespace Op.Int8Step
variable {o : Op}

theorem levelOff (h : o.Int8Step) (i j : Nat) : o.ladder.levelOff 0 i j = o.ladder.base + i * o.ladder.pitch + j * 4 := by
  have hsize : ladSize o.ladder.fmt = 4 := by rw [h.ladderFmt]; rfl
  rw [Tile.levelOff, hsize, Nat.zero_mul, Nat.add_zero]

/-- Different outputs have different bytes. -/
theorem levelOff_inj (h : o.Int8Step) (hfit : o.StepFits) {i j n i' j' n' : Nat} (hj : j ∈ (o.ladder.cellsAt o.index).2)
    (hj' : j' ∈ (o.ladder.cellsAt o.index).2) (hn : n < 4) (hn' : n' < 4)
    (heq : o.ladder.levelOff 0 i j + n = o.ladder.levelOff 0 i' j' + n') : i = i' ∧ j = j' ∧ n = n' := by
  have hcol := Tile.mem_cellsAt_cols hj
  have hcol' := Tile.mem_cellsAt_cols hj'
  have hpitch := hfit.pitch
  rw [h.levelOff, h.levelOff] at heq
  have hbelow {a b : Nat} (hab : a < b) : a * o.ladder.pitch + o.ladder.pitch ≤ b * o.ladder.pitch := by
    rw [← Nat.succ_mul]
    exact Nat.mul_le_mul_right _ hab
  rcases Nat.lt_trichotomy i i' with hi | rfl | hi
  · have := hbelow hi
    omega
  · omega
  · have := hbelow hi
    omega

theorem yardPut_writes (h : o.Int8Step) (hfit : o.StepFits) {s : State} {c : Nat} (hs : s.mem.wf = true) (hgood : s.YardGood c) :
    (s.yardPut c (s.int8Writes c o)).2 = false ∧ SameBut [.mem] s (s.yardPut c (s.int8Writes c o)).1
      ∧ (∀ i j n, i ∈ (o.ladder.cellsAt o.index).1 → j ∈ (o.ladder.cellsAt o.index).2 → n < 4 →
          some ((s.yardPut c (s.int8Writes c o)).1.byteAt (yardBase c + o.ladder.levelOff 0 i j + n))
            = (toBytes 4 (uval 32 (s.int8Sum c o i j)))[n]?)
      ∧ (∀ a, (∀ i j, i ∈ (o.ladder.cellsAt o.index).1 → j ∈ (o.ladder.cellsAt o.index).2 →
          a < yardBase c + o.ladder.levelOff 0 i j ∨ yardBase c + o.ladder.levelOff 0 i j + 4 ≤ a) →
            (s.yardPut c (s.int8Writes c o)).1.byteAt a = s.byteAt a) := by
  have hlt {x n : Nat} {b : Byte} (hb : (toBytes 4 x)[n]? = some b) : n < 4 := by
    obtain ⟨hn, -⟩ := List.getElem?_eq_some_iff.1 hb
    rwa [length_toBytes] at hn
  obtain ⟨herr, hframe, hin, hout⟩ := State.yardPut_good (c := c) (ws := s.int8Writes c o) hs
    (fun q hq => by
      obtain ⟨i, hi, j, hj, n, ha, hb⟩ := (s.mem_yardBytes_int8Writes c o q.1 q.2).1 hq
      obtain ⟨hoff, -, -⟩ := hfit.inYard i j hi hj
      have hn := hlt hb
      have hbase := yardBase_aligned c
      exact hgood.word (by omega) (by omega) (by omega))
    (fun a v w hv hw => by
      obtain ⟨i, -, j, hj, n, ha, hb⟩ := (s.mem_yardBytes_int8Writes c o a v).1 hv
      obtain ⟨i', -, j', hj', n', ha', hb'⟩ := (s.mem_yardBytes_int8Writes c o a w).1 hw
      obtain ⟨rfl, rfl, rfl⟩ := h.levelOff_inj (i := i) (i' := i') hfit hj hj' (hlt hb) (hlt hb') (by omega)
      exact Option.some.inj (hb.symm.trans hb'))
  refine ⟨herr, hframe, fun i j n hi hj hn => ?_, fun a ha => hout a fun b hb => ?_⟩
  · have hb : (toBytes 4 (uval 32 (s.int8Sum c o i j)))[n]? = some _ := List.getElem?_eq_getElem (by rwa [length_toBytes])
    rw [hb, hin _ _ ((s.mem_yardBytes_int8Writes c o _ _).2 ⟨i, hi, j, hj, n, rfl, hb⟩)]
  · obtain ⟨i, hi, j, hj, n, hn, hb⟩ := (s.mem_yardBytes_int8Writes c o a b).1 hb
    have hlt := hlt hb
    rcases ha i j hi hj with h | h <;> omega

theorem reads_good (h : o.Int8Step) (hfit : o.StepFits) {s : State} {c : Nat} (hgood : s.YardGood c) :
    ∀ q ∈ o.int8Reads, s.firstBadWord (yardBase c + q.1) q.2 = none := by
  have hpos : o.index < o.ladder.positions := by
    have := hfit.left
    rwa [Op.mxPositions, if_neg (by rw [h.port]; decide)] at this
  obtain ⟨⟨i₀, hi₀⟩, j₀, hj₀⟩ := Tile.cellsAt_nonempty hpos
  have hstart := hfit.started
  intro q hq
  rcases List.mem_append.1 hq with hq | hq
  · obtain ⟨i, hi, rfl⟩ := List.mem_map.1 hq
    obtain ⟨-, hrow, -⟩ := hfit.inYard i j₀ hi hj₀
    rw [Tile.rowAt_int8 h.fmtA]
    exact hgood.firstBadWord (by omega)
  · obtain ⟨j, hj, rfl⟩ := List.mem_map.1 hq
    obtain ⟨-, -, hrow⟩ := hfit.inYard i₀ j hi₀ hj
    rw [Tile.rowAt_int8 h.fmtB, h.cols]
    exact hgood.firstBadWord (by omega)

end Op.Int8Step

/-! ## The step takes effect -/

theorem State.mxCommit_writes {s : State} {c : Nat} (was o : Op) {r : StepOut}
    (hreads : ∀ q ∈ r.reads, s.firstBadWord (yardBase c + q.1) q.2 = none) (htrap : r.trap = none)
    (hput : (s.yardPut c r.writes).2 = false) :
    s.mxCommit c was o r .clean = (s.yardPut c r.writes).1.modCore c fun k => (k.flag r.fl).modOp o.id fun _ => o := by
  have hnone : r.reads.filterMap (fun q => s.firstBadWord (yardBase c + q.1) q.2) = [] :=
    List.filterMap_eq_nil_iff.2 hreads
  unfold State.mxCommit
  generalize r.reads.head? = read
  cases read <;> simp [State.yardEcc, hnone, htrap, hput]

/-- An operation with its step counted (Table 10.4). -/
def Op.stepped (o : Op) : Op :=
  { o with
    index := if o.pos + 1 == o.mxPer then o.index + 1 else o.index, pos := if o.pos + 1 == o.mxPer then 0 else o.pos + 1
    occ := if o.pos + 1 == o.mxPer then o.mxStart.1 else (carrying o.occ o.ladder.depth).occ
    fold := if o.pos + 1 == o.mxPer then o.mxStart.2 else o.fold || (carrying o.occ o.ladder.depth).folds, hdr := true }

theorem Core.modOp_ops_any {k : Core} {o p : Op} (h : o ∈ k.ops) (hid : p.id = o.id) :
    ((k.modOp o.id fun _ => p).ops.any fun q => q == p) = true := by
  obtain ⟨hmem, -⟩ := firstIf_some (Core.modOp_opOf h hid)
  exact List.any_eq_true.2 ⟨p, hmem, beq_self_eq_true p⟩

/-- A step whose operands lie in the yard and that sends nothing, once it has been committed. -/
theorem State.doStep_committed {s t : State} {c : Nat} {o : Op} {a b : Rows} {ecc : Ecc} (hA : (o.tileAt 0).src = 0)
    (hB : (o.tileAt 1).src = 0) (ht : s.mxCommit c o o.stepped (s.tmmaStep c o a b) ecc = t)
    (hany : ((t.core c).ops.any fun q => q == o.stepped) = true) :
    s.doStep c o a b none ecc = t.modCore c fun k => k := by
  unfold Op.stepped at ht hany
  unfold State.doStep
  simp only [ht, hany, hA, hB, if_true]
  rfl

namespace Op.Int8Step
variable {o : Op}

theorem doStep_eq (h : o.Int8Step) (hfit : o.StepFits) {s : State} {c : Nat} (hs : s.mem.wf = true) (hgood : s.YardGood c)
    (ho : o ∈ (s.core c).ops) :
    s.doStep c o (s.rowsOf c (o.tileAt 0) (o.ladder.cellsAt o.index).1 o.pos)
        (s.rowsOf c (o.tileAt 1) (o.ladder.cellsAt o.index).2 o.pos) none .clean
      = ((s.yardPut c (s.int8Writes c o)).1.modCore c fun k => k.modOp o.id fun _ => o.stepped).modCore c fun k => k := by
  obtain ⟨herr, hframe, -, -⟩ := h.yardPut_writes hfit hs hgood
  have hcore : (s.yardPut c (s.int8Writes c o)).1.core c = s.core c := by
    rw [State.core, hframe .cores (by decide), hframe .pkg (by decide), State.core]
  refine State.doStep_committed h.srcA h.srcB ?_ ?_
  · rw [h.tmmaStep, State.mxCommit_writes (r := { reads := o.int8Reads, writes := s.int8Writes c o }) o o.stepped
      (h.reads_good hfit hgood) rfl herr]
    simp only [Core.flag_zero]
    rfl
  · rw [State.core_modCore_same, hcore]
    exact Core.modOp_ops_any ho rfl

theorem intervalStep_eq_doStep (h : o.Int8Step) (hfit : o.StepFits) {s : State} {c : Nat}
    (ho : (s.core c).oldest (isUnit .mx) = some o) (hbegun : o.pass.testBit 2 = true) (hw : s.mxWaits c o = false) :
    s.intervalStep c .clean = s.doStep c o (s.rowsOf c (o.tileAt 0) (o.ladder.cellsAt o.index).1 o.pos)
        (s.rowsOf c (o.tileAt 1) (o.ladder.cellsAt o.index).2 o.pos) none .clean := by
  have hleft : ¬ o.mxPositions ≤ o.index := Nat.not_le.2 hfit.left
  obtain ⟨-, h17, h18⟩ := h.bits_clear
  simp [State.intervalStep, ho, Core.mxBegin_begun hbegun, h.port, hleft, hw, h.operandRows, h17, h18, b2n]

/-- The step writes its outputs, and counts itself. -/
theorem intervalStep_leaves (h : o.Int8Step) (hfit : o.StepFits) {s : State} {c : Nat} (hs : s.mem.wf = true)
    (hgood : s.YardGood c) (ho : (s.core c).oldest (isUnit .mx) = some o) (hbegun : o.pass.testBit 2 = true)
    (hw : s.mxWaits c o = false) :
    SameBut [.mem, .cores] s (s.intervalStep c .clean) ∧ (∀ d, d ≠ c → (s.intervalStep c .clean).core d = s.core d)
      ∧ (∀ a, (s.intervalStep c .clean).byteAt a = (s.yardPut c (s.int8Writes c o)).1.byteAt a)
      ∧ (s.intervalStep c .clean).core c = (s.core c).modOp o.id fun _ => o.stepped := by
  obtain ⟨-, hframe, -, -⟩ := h.yardPut_writes hfit hs hgood
  rw [h.intervalStep_eq_doStep hfit ho hbegun hw, h.doStep_eq hfit hs hgood (firstIf_some ho).1]
  generalize (s.yardPut c (s.int8Writes c o)).1 = u at hframe
  have hcore (d : Nat) : u.core d = s.core d := by
    rw [State.core, hframe .cores (by decide), hframe .pkg (by decide), State.core]
  refine ⟨?_, fun d hd => ?_, fun a => rfl, ?_⟩
  · exact ((hframe.mono (by simp)).trans ((u.setCore_sameBut c _).mono (by simp))).trans
      ((State.setCore_sameBut _ c _).mono (by simp))
  · rw [State.core_modCore_other _ _ _ _ hd, State.core_modCore_other _ _ _ _ hd, hcore]
  · rw [State.core_modCore_same, State.core_modCore_same, hcore]

theorem stepped_counts (h : o.Int8Step) :
    (o.pos + 1 = o.mxPer → o.stepped.index = o.index + 1 ∧ o.stepped.pos = 0)
      ∧ (o.pos + 1 ≠ o.mxPer → o.stepped.index = o.index ∧ o.stepped.pos = o.pos + 1 ∧ o.stepped.occ = 1) := by
  refine ⟨fun hlast => ?_, fun hmore => ?_⟩
  · simp [Op.stepped, hlast]
  · simp [Op.stepped, hmore, h.empty, carrying_empty h.deep]

end Op.Int8Step

/-! ## The statement -/

/-- Settles O56: each event's state by the equation of its command; the bytes of a step are those of the exact sums of
its products, a ladder counts its intervals in binary, and a header, a completion and a copy act on their core alone. -/
theorem matrixAndMoverResults : Obligations.MatrixAndMoverResults := by
  unfold Obligations.MatrixAndMoverResults
  intro s c hup hc
  dsimp only
  refine ⟨fun o ho hop => ⟨?step, ?header, ?complete, ?clear, fun hw => ?waits⟩,
    fun o ho => ⟨fun hrows hacc => ?copied, fun hrows hbytes => ?copying⟩⟩
  case step =>
    intro hport hfmtA hfmtB hladder hsrcA hsrcB hcols hbegun hempty hdeep hplain hleft hstart hw hpitch hmem hyard hfits
    have h : o.Int8Step := ⟨hport, hfmtA, hfmtB, hladder, hsrcA, hsrcB, hcols, hempty, hdeep, hplain⟩
    have hfit : o.StepFits := ⟨hleft, hstart, hpitch, hfits⟩
    obtain ⟨-, -, hin, hout⟩ := h.yardPut_writes hfit hmem hyard
    obtain ⟨hframe, hothers, hbyte, hcore⟩ := h.intervalStep_leaves hfit hmem hyard ho hbegun hw
    refine ⟨_, exec_intervalStep_up hup hc _, hframe, hothers, fun i j n hi hj hn => ?_, fun a ha => ?_, by rw [hcore]; rfl,
      o.stepped, ?_, h.stepped_counts⟩
    · rw [hbyte]
      exact hin i j n hi hj hn
    · rw [hbyte]
      exact hout a ha
    · rw [hcore]
      exact Core.modOp_opOf (firstIf_some ho).1 rfl
  case header =>
    intro hport hsrcA hsrcB hpass rows cols fmt lrows lcols rest hin
    refine ⟨fun hfit => ?_, fun hfit hops hslot => ?_⟩
    · exact ⟨_, exec_trainHeader_up hup hc, State.trainHeader_fits ho hport hsrcA hpass hin hop hsrcB hfit⟩
    · exact ⟨_, exec_trainHeader_up hup hc, State.trainHeader_mismatch ho hport hsrcA hpass hin hfit hops hslot⟩
  case complete =>
    intro hw hport hdone hcount
    obtain ⟨hgone, htotal, hcounter, hothers, hreport⟩ := Core.mxFinish_tmma_leaves hport hcount
    refine ⟨_, exec_matrixOpComplete_up hup hc _, ?_⟩
    rw [State.matrixComplete_done ho hop hw hdone, State.core_modCore_same]
    refine ⟨s.modCore_onlyCore c _, hgone, Core.mxBegin_begun, fun hnew => ?_, htotal, hcounter,
      fun d _ hd => hothers d hd, hreport⟩
    rw [Core.mxBegin_res hnew, mxLadder, if_pos hport]
  case clear =>
    intro hw hport hi hpos
    have hdone : o.mxPositions ≤ o.index := by rw [Op.mxPositions, if_pos hport]; exact Nat.zero_le _
    refine ⟨_, exec_matrixOpComplete_up hup hc _, ?_⟩
    rw [State.matrixComplete_done ho hop hw hdone, State.core_modCore_same]
    exact ⟨s.modCore_onlyCore c _, Core.mxFinish_tclear_leaves hport hi hpos⟩
  case waits => rw [exec_matrixOpComplete_up hup hc, State.matrixComplete_waits ho hw]
  case copied =>
    refine ⟨_, exec_tmoveComplete_up hup hc, s.modCore_onlyCore c _, ?_⟩
    rw [State.core_modCore_same]
    exact Core.moveComplete_written ho hrows hacc
  case copying =>
    exact ⟨_, exec_tmoveComplete_up hup hc, s.modCore_onlyCore c _,
      (s.core_modCore_same c _).trans (Core.moveComplete_stays ho hrows hbytes)⟩

end Sys2Proof.Machine
end

section
/-!
O25. The attribute windows and the atomic predictor (11 R358, R359, Tables 11.4-11.6; 12 R392).
-/
namespace Sys2Proof.Machine

theorem State.setCo_sameBut (s : State) (x : Coherence) : SameBut [.co] s { s with co := x } := by
  intro p hp
  cases p <;> simp [Part.same] at hp ⊢

/-! ## A window written -/

/-- Window `n` as `w`, the other windows as they were. -/
def State.putWindow (s : State) (n : Nat) (w : Window) : State :=
  { s with co := { s.co with windows := nset n w s.co.windows } }

theorem State.window_putWindow_same (s : State) (n : Nat) (w : Window) : (s.putWindow n w).window n = w :=
  nget_nset_same _ _ _ _

theorem State.window_putWindow_other (s : State) {n m : Nat} (w : Window) (h : m ≠ n) :
    (s.putWindow n w).window m = s.window m := nget_nset_other _ _ _ _ _ h

theorem State.putWindow_sameBut (s : State) (n : Nat) (w : Window) : SameBut [.co] s (s.putWindow n w) := s.setCo_sameBut _

/-- A write of all the bits of a register leaves what is written. -/
theorem mergeMask_allOnes (old v : W64) : mergeMask old v (BitVec.allOnes 64) = v := by
  rw [mergeMask, BitVec.not_allOnes, BitVec.and_zero, BitVec.zero_or, BitVec.and_allOnes]

/-- R358: AW_RANGE of a window that no loaded region declares. -/
theorem State.awRange_free {s : State} {n : Nat} (h : s.pinned n = false) (v : W64) (src : Source) :
    s.awRange n v fullMask src = s.putWindow n { s.window n with
      enable := v.getLsbD 63, limit := v.extractLsb' 32 18, base := v.extractLsb' 0 18, lastWriter := src } := by
  rw [State.awRange, h, fullMask, mergeMask_allOnes, ← BitVec.setWidth_eq_extractLsb' (w := 18) (by decide)]
  rfl

/-- R358: AW_RANGE of a window that a loaded region declares. -/
theorem State.awRange_pinned {s : State} {n : Nat} (h : s.pinned n = true) (v m : W64) (src : Source) :
    s.awRange n v m src = s.putWindow n { s.window n with ignored := satInc (s.window n).ignored } := if_pos h

theorem State.awAttr_eq (s : State) (n : Nat) (v : W64) (src : Source) :
    s.awAttr n v src = s.putWindow n { s.window n with attr := v.extractLsb' 0 8, lastWriter := src } := by
  rw [State.awAttr, BitVec.setWidth_eq_extractLsb' (by decide)]
  rfl

/-! ## The commands -/

theorem exec_awRangeWrite_up {s : State} (h : s.pw.perst = true) {n : Nat} (hn : n < 64) (v : W64) (src : Source) :
    exec (.awRangeWrite n v src) s = .next (s.awRange n v fullMask src) := by
  change need (decide (n < 64)) s (fun s => whenUp s fun s => s.awRange n v fullMask src) = _
  rw [need_of (decide_eq_true hn), whenUp_up h]

theorem exec_awAttrWrite_up {s : State} (h : s.pw.perst = true) {n : Nat} (hn : n < 65) (v : W64) (src : Source) :
    exec (.awAttrWrite n v src) s = .next (s.awAttr n v src) := by
  change need (decide (n < 65)) s (fun s => whenUp s fun s => s.awAttr n v src) = _
  rw [need_of (decide_eq_true hn), whenUp_up h]

theorem exec_coPredClear_up {s : State} (h : s.pw.perst = true) (src : Source) :
    exec (.coPredClear src) s = .next (s.predClear src) := congrArg Host.Outcome.next (whenUp_up h fun s => s.predClear src)

/-- Settles O25: each write puts one window, and `State.pinned` decides what it puts. -/
theorem windowRegisters : Obligations.WindowRegisters := by
  unfold Obligations.WindowRegisters
  intro s v src hup
  refine ⟨fun n hn hfree => ?range, fun n hn hpinned => ?ignored, fun n hn => ?attr, exec_coPredClear_up hup src⟩
  case range =>
    exact ⟨_, (exec_awRangeWrite_up hup hn v src).trans (congrArg _ (State.awRange_free hfree v src)),
      s.window_putWindow_same n _, fun m hm => s.window_putWindow_other _ hm, rfl, rfl, s.putWindow_sameBut n _⟩
  case ignored =>
    exact ⟨_, (exec_awRangeWrite_up hup hn v src).trans (congrArg _ (State.awRange_pinned hpinned v _ src)),
      s.window_putWindow_same n _, fun m hm => s.window_putWindow_other _ hm, s.putWindow_sameBut n _⟩
  case attr =>
    exact ⟨_, (exec_awAttrWrite_up hup hn v src).trans (congrArg _ (s.awAttr_eq n v src)),
      s.window_putWindow_same n _, fun m hm => s.window_putWindow_other _ hm, s.putWindow_sameBut n _⟩

end Sys2Proof.Machine
end

section
/-!
The rules of the caches (11 R336-R350; 12 R361-R378): what an update of a line, a siding, the L1s or the
duplicate tags reads back as and leaves alone, and what serving an access does.
-/
namespace Sys2Proof.Machine

/-! ## Tables and lists -/

theorem firstIf_none_iff {α : Type} {p : α → Bool} {l : List α} : firstIf p l = none ↔ ∀ a ∈ l, p a = false := by
  simp [firstIf_eq_find?]

/-- A change of every entry that keeps its key is seen through `nget`, where the default is not changed by it. -/
theorem nget_map {α : Type} {g : Nat × α → Nat × α} (hkey : ∀ p, (g p).1 = p.1) {d : α} {k : Nat} (hd : (g (k, d)).2 = d)
    (m : NMap α) : nget d (m.map g) k = (g (k, nget d m k)).2 := by
  induction m with
  | nil => exact hd.symm
  | cons p t ih =>
    obtain ⟨a, v⟩ := p
    have hg : g (a, v) = (a, (g (a, v)).2) := Prod.ext (hkey _) rfl
    rw [List.map_cons, hg, nget, nget, ih]
    split
    · next h => rw [h]
    · rfl

theorem nget_map_if {α : Type} {P : Nat → Prop} [DecidablePred P] {f : α → α} {d : α} (hd : f d = d) (m : NMap α) (k : Nat) :
    nget d (m.map fun p => if P p.1 then (p.1, f p.2) else p) k = if P k then f (nget d m k) else nget d m k := by
  rw [nget_map (fun p => by split <;> rfl)]
  · split <;> rfl
  · split
    · exact hd
    · rfl

/-- What is put where a search looks, it finds: in the place of what it found before, or as the only one. -/
theorem firstIf_nset {α : Type} {p : Nat × α → Bool} {m : NMap α} {k : Nat} {v : α} (hv : p (k, v) = true)
    (hm : ∀ q, firstIf p m = some q → q.1 = k) : firstIf p (nset k v m) = some (k, v) := by
  induction m with
  | nil => simp [nset, firstIf, hv]
  | cons q t ih =>
    obtain ⟨a, w⟩ := q
    unfold nset
    split
    · simp [firstIf, hv]
    · split
      · simp [firstIf, hv]
      · next hne =>
        have hq : p (a, w) = false := Bool.eq_false_iff.2 fun h => hne (hm (a, w) (by simp [firstIf, h]))
        simp only [firstIf, hq, Bool.false_eq_true, if_false] at hm ⊢
        exact ih hm

theorem firstIf_nset_new {α : Type} {p : Nat × α → Bool} {m : NMap α} {k : Nat} {v : α} (hv : p (k, v) = true)
    (hm : firstIf p m = none) : firstIf p (nset k v m) = some (k, v) :=
  firstIf_nset hv fun _ hq => nomatch hm.symm.trans hq

theorem nget_eq_nfind {α : Type} (d : α) (m : NMap α) (k : Nat) : nget d m k = (nfind m k).getD d := by
  induction m with
  | nil => rfl
  | cons p t ih =>
    obtain ⟨a, v⟩ := p
    rw [nget, nfind, ih]
    split <;> rfl

theorem nget_nerase_same {α : Type} (d : α) {m : NMap α} (k : Nat) (h : rising m = true) : nget d (nerase k m) k = d := by
  rw [nget_eq_nfind, nfind_nerase_same k h, Option.getD_none]

theorem not_mem_nerase {α : Type} {m : NMap α} {k : Nat} {v : α} (h : rising m = true) : (k, v) ∉ nerase k m := by
  induction m with
  | nil => simp [nerase]
  | cons p t ih =>
    obtain ⟨a, w⟩ := p
    unfold nerase
    split
    · next hk => exact fun hv => absurd (rising_above h _ hv) (by simp [hk])
    · next hk => simp [Ne.symm hk, ih (rising_tail h)]

/-! ## Lines (11 R342) -/

theorem State.findLine_some {s : State} {slice line key : Nat} {w : Line} (h : s.findLine slice line = some (key, w)) :
    key / 32768 = slice ∧ w.line = line := by
  simpa using (firstIf_some h).2

theorem State.findLine_congr {s t : State} (h : t.co.lines = s.co.lines) (slice line : Nat) :
    t.findLine slice line = s.findLine slice line := congrArg (firstIf _) h

theorem State.findLine_setLine {s : State} {slice line key : Nat} {v : Line} (hkey : key / 32768 = slice)
    (hline : v.line = line) (h : ∀ q, s.findLine slice line = some q → q.1 = key) :
    (s.setLine key v).findLine slice line = some (key, v) :=
  firstIf_nset (by simp [hkey, hline]) h

/-- A held line that changes in its way is found there. -/
theorem State.findLine_setLine_held {s : State} {slice line key : Nat} {w v : Line}
    (h : s.findLine slice line = some (key, w)) (hv : v.line = w.line) :
    (s.setLine key v).findLine slice line = some (key, v) := by
  obtain ⟨hkey, hline⟩ := State.findLine_some h
  refine State.findLine_setLine hkey (hv.trans hline) fun q hq => ?_
  rw [h] at hq
  cases hq
  rfl

theorem State.findLine_dropLine {s : State} {slice key : Nat} {w : Line} (hrise : rising s.co.lines = true)
    (hone : ∀ q, q ∈ s.co.lines → q.1 / 32768 = slice → q.2.line = w.line → q = (key, w)) :
    (s.dropLine key).findLine slice w.line = none := by
  refine firstIf_none_iff.2 fun q hq => Bool.eq_false_iff.2 fun hmatch => ?_
  simp only [Bool.and_eq_true, decide_eq_true_eq, beq_iff_eq] at hmatch
  rw [hone q (mem_nerase hq) hmatch.1 hmatch.2] at hq
  exact not_mem_nerase hrise hq

theorem State.setLine_sameBut (s : State) (key : Nat) (w : Line) : SameBut [.co] s (s.setLine key w) := s.setCo_sameBut _

theorem State.dropLine_sameBut (s : State) (key : Nat) : SameBut [.co] s (s.dropLine key) := s.setCo_sameBut _

/-! ## Sidings (11 R347) and duplicate tags (12 R361) -/

theorem State.siding_setSiding {s : State} {slice : Nat} {l : List Siding} (h : rising s.co.siding = true ∨ l ≠ []) :
    (s.setSiding slice l).siding slice = l := by
  cases l with
  | nil => exact nget_nerase_same [] slice (h.resolve_right fun hne => hne rfl)
  | cons e t => exact nget_nset_same _ _ _ _

theorem State.setSiding_sameBut (s : State) (slice : Nat) (l : List Siding) : SameBut [.co] s (s.setSiding slice l) :=
  s.setCo_sameBut _

theorem State.holders_setHolders {s : State} {line : Nat} {h : List (Nat × LineSt)} (hrise : rising s.co.dir = true) :
    (s.setHolders line h).holders line = h := by
  cases h with
  | nil => exact nget_nerase_same [] line hrise
  | cons p t => exact nget_nset_same _ _ _ _

theorem State.setHolders_sameBut (s : State) (line : Nat) (h : List (Nat × LineSt)) : SameBut [.co] s (s.setHolders line h) :=
  s.setCo_sameBut _

theorem State.holdAs_sameBut (s : State) (slice line : Nat) (st : LineSt) : SameBut [.co] s (s.holdAs slice line st) :=
  s.setCo_sameBut _

theorem State.holdNot_sameBut (s : State) (slice line : Nat) : SameBut [.co] s (s.holdNot slice line) := s.setCo_sameBut _

/-! ## L1 copies (11 R336-R341) -/

@[simp] theorem Core.l1Hit_dropOwnL1 (k : Core) (line : Nat) : (k.dropOwnL1 line).l1Hit line = none := by
  simp [Core.l1Hit, Core.dropOwnL1, firstIf_eq_find?]

theorem Core.l1Hit_fillL1 (k : Core) (line : Nat) (d : LineData) :
    (k.fillL1 line d).l1Hit line = some { line := line, data := d } := by
  have hnone : firstIf (fun p => p.2.line == line) (k.l1.filter fun p => p.2.line != line) = none :=
    firstIf_none_iff.2 fun p hp => by simpa using (List.mem_filter.1 hp).2
  unfold Core.fillL1
  dsimp only
  split <;> exact congrArg (Option.map Prod.snd) (firstIf_nset_new (by simp) hnone)

theorem SameBut.core {l : List Part} {s t : State} (h : SameBut l s t) (hcores : Part.cores ∉ l) (hpkg : Part.pkg ∉ l)
    (c : Nat) : t.core c = s.core c := by
  rw [State.core, State.core, h .cores hcores, h .pkg hpkg]

theorem State.setCores_sameBut (s : State) (x : NMap Core) : SameBut [.cores] s { s with cores := x } := by
  intro p hp
  cases p <;> simp [Part.same] at hp ⊢

theorem State.core_dropL1 (s : State) (line : Nat) (keep : Option Nat) (c : Nat) :
    (s.dropL1 line keep).core c = if keep = some c then s.core c else (s.core c).dropOwnL1 line := by
  rw [State.core, State.dropL1, nget_map]
  · dsimp only
    split <;> rfl
  · intro p
    dsimp only
    split <;> rfl
  · dsimp only
    split <;> rfl

theorem State.dropL1_sameBut (s : State) (line : Nat) (keep : Option Nat) : SameBut [.cores, .co] s (s.dropL1 line keep) := by
  intro p hp
  cases p <;> simp [Part.same, State.dropL1] at hp ⊢

theorem State.core_dropDieL1 (s : State) (die line c : Nat) :
    (s.dropDieL1 die line).core c = if dieOf c = die then (s.core c).dropOwnL1 line else s.core c :=
  nget_map_if (P := fun c => dieOf c = die) (f := fun k : Core => k.dropOwnL1 line) rfl s.cores c

theorem State.dropDieL1_sameBut (s : State) (die line : Nat) : SameBut [.cores] s (s.dropDieL1 die line) :=
  s.setCores_sameBut _

/-! ## Accesses answered -/

theorem Core.acc_id {k : Core} {id : Nat} {a : Access} (h : k.acc id = some a) : a.id = id := by
  simpa using (firstIf_some h).2

theorem Core.modAcc_acc {k : Core} {id : Nat} {a : Access} {f : Access → Access} (ha : k.acc id = some a)
    (hf : ∀ x, (f x).id = x.id) : (k.modAcc id f).acc id = some (f a) := by
  rw [Core.modAcc_acc_same k id hf, ha, Option.map_some]

/-- A load or atomic that is still among its core's accesses holds what it got. -/
theorem Core.loadServed_waiting {k : Core} {id : Nat} {a : Access} (ha : k.acc id = some a) (h : a.accepted = false)
    (got : List (Option Byte)) :
    k.loadServed id got = k.modAcc id fun a => { a with stage := .served, got := got } := by
  simp [Core.loadServed, ha, h]

theorem Core.loadServed_acc {k : Core} {id : Nat} {a : Access} (ha : k.acc id = some a) (h : a.accepted = false)
    (got : List (Option Byte)) : (k.loadServed id got).acc id = some { a with stage := .served, got := got } := by
  rw [Core.loadServed_waiting ha h]
  exact Core.modAcc_acc ha fun _ => rfl

theorem Core.storeVisible_waiting {k : Core} {id : Nat} {a : Access} (ha : k.acc id = some a) (h : a.accepted = false) :
    k.storeVisible id = k.modAcc id fun a => { a with stage := .served } := by
  simp [Core.storeVisible, ha, h]

theorem Core.storeVisible_acc {k : Core} {id : Nat} {a : Access} (ha : k.acc id = some a) (h : a.accepted = false) :
    (k.storeVisible id).acc id = some { a with stage := .served } := by
  rw [Core.storeVisible_waiting ha h]
  exact Core.modAcc_acc ha fun _ => rfl

theorem Core.controlDone_acc (k : Core) (a : Access) : (k.controlDone a).acc a.id = none := by
  simp [Core.acc, Core.controlDone, firstIf_eq_find?]

theorem Core.fillL1_acc (k : Core) (line : Nat) (d : LineData) (id : Nat) : (k.fillL1 line d).acc id = k.acc id := by
  unfold Core.fillL1
  dsimp only
  split <;> rfl

theorem State.byteVals_congr {s t : State} (h : t.memEpoch = s.memEpoch) (a : Nat) (l : List (Option Byte)) :
    t.byteVals a l = s.byteVals a l := by
  refine List.ext_getElem? fun i => ?_
  rw [State.byteVals_getElem?, State.byteVals_getElem?]
  unfold State.byteVal
  rw [h]

theorem State.lineBytesOf_congr {s t : State} (h : t.memEpoch = s.memEpoch) (a : Access) (d : LineData) :
    t.lineBytesOf a d = s.lineBytesOf a d := State.byteVals_congr h _ _

/-- R337: a load served from a line has its bytes under its core's earlier stores, and where its L1 may
hold the line, it does. -/
theorem State.serveLine_serves {s : State} {c : Nat} {a : Access} (ha : (s.core c).acc a.id = some a) (h : a.accepted = false)
    (line : Nat) (d : LineData) (l1 : Bool) :
    OnlyCore c s (s.serveLine c a line d false l1)
      ∧ ((s.serveLine c a line d false l1).core c).acc a.id = some { a with
          stage := .served, got := (s.core c).overlay s.canonical a ((s.lineBytesOf a d).map some) }
      ∧ ((s.serveLine c a line d false l1).core c).l1Hit line
        = if l1 && bit (s.core c).l1Enable.cur 0 && (s.core c).mayL1 a then some { line := line, data := d }
          else (s.core c).l1Hit line := by
  refine ⟨s.modCore_onlyCore c _, ?_, ?_⟩
  · rw [State.serveLine, State.core_modCore_same]
    dsimp only
    split
    · rw [Core.fillL1_acc]
      exact Core.loadServed_acc ha h _
    · exact Core.loadServed_acc ha h _
  · rw [State.serveLine, State.core_modCore_same]
    simp only [Bool.not_false, Bool.and_true]
    split
    · exact Core.l1Hit_fillL1 _ _ _
    · rw [Core.serveLoad, Core.loadServed_waiting ha h]
      rfl

/-- R340: a store that becomes visible leaves no copy of its line in the L1 of another core. -/
theorem State.showStore_shows {s : State} {c : Nat} {a : Access} (ha : (s.core c).acc a.id = some a) (h : a.accepted = false)
    (line : Nat) :
    SameBut [.cores, .co] s (s.showStore c line a)
      ∧ ((s.showStore c line a).core c).acc a.id = some { a with stage := .served }
      ∧ ∀ d, d ≠ c → ((s.showStore c line a).core d).l1Hit line = none := by
  have hself : ((s.dropL1 line (some c)).core c) = s.core c := by rw [State.core_dropL1, if_pos rfl]
  refine ⟨(s.dropL1_sameBut line _).trans ((State.modCore_onlyCore _ c _).1.mono (by decide)), ?_, fun d hd => ?_⟩
  · rw [State.showStore, State.core_modCore_same, hself]
    exact Core.storeVisible_acc ha h
  · rw [State.showStore, State.core_modCore_other _ _ _ _ hd, State.core_dropL1,
      if_neg (fun h => hd (Option.some.inj h).symm), Core.l1Hit_dropOwnL1]

end Sys2Proof.Machine
end

section
/-!
O49. An access at its die-cache slice (11 R333-R355; 12 R369-R374, R383) and at the yard of another core
(11 R330-R334; 01 R44).
-/
namespace Sys2Proof.Machine

/-! ## The access arrives (11 R337-R339) -/

@[simp] theorem State.sliceEcc_clean (s : State) (slice line : Nat) : s.sliceEcc slice line .clean = s := by
  unfold State.sliceEcc
  split <;> rfl

/-- Access `a` on its way to its slice: an atomic leaves no copy of its line in its own L1 (11 R339). -/
def State.onWay (s : State) (c line : Nat) (a : Access) : State :=
  if a.kind.isAtomic then s.modCore c fun k => k.dropOwnL1 line else s

theorem State.onWay_plain (s : State) (c line : Nat) {a : Access} (h : a.kind.isAtomic = false) : s.onWay c line a = s := by
  rw [State.onWay, h]
  rfl

theorem State.onWay_atomic (s : State) (c line : Nat) {a : Access} {p : Nat} (h : a.kind = .atomic p) :
    s.onWay c line a = s.modCore c fun k => k.dropOwnL1 line := by
  rw [State.onWay, h]
  rfl

/-- The first access at its slice for its line is served, by its kind. -/
theorem exec_sliceAccess_atSlice {s : State} {c id slice line : Nat} {a : Access} (h : AtSlice s c id a slice line) :
    exec (.sliceAccess c id .clean) s = .next ((s.onWay c line a).sliceServe c slice line a) := by
  obtain ⟨⟨hup, hc, ha, hstage, -, hblocked, -⟩, hdest, hline, hslice, hwaits, -, -, hl1⟩ := h
  change need (decide (c < 25600)) s (fun s => whenUp s fun s => s.sliceAccess c id .clean) = _
  have hmiss : (a.kind == .load && (s.core c).mayL1 a && ((s.core c).l1Hit line).isSome) = false := by
    by_cases hk : a.kind = .load
    · rcases hl1 hk with h | h <;> simp [h]
    · simp [hk]
  rw [need_of (decide_eq_true hc), whenUp_up hup, State.sliceAccess, ha]
  simp only [hdest, hstage, hblocked, ← hline, ← hslice, hwaits, hmiss, State.sliceEcc_clean, State.onWay]
  rfl

section
variable {s : State} {c slice line : Nat} {a : Access}

theorem State.sliceServe_load (hk : a.kind = .load) :
    s.sliceServe c slice line a = s.sliceLoad c slice line a (attrOf (s.attrBits a)) := by
  rw [State.sliceServe, hk]

theorem State.sliceServe_prefetch (hk : a.kind = .prefetch) :
    s.sliceServe c slice line a = s.sliceLoad c slice line a (attrOf (s.attrBits a)) := by
  rw [State.sliceServe, hk]

theorem State.sliceServe_store (hk : a.kind = .store) :
    s.sliceServe c slice line a = s.sliceStore c slice line a (attrOf (s.attrBits a)) := by
  rw [State.sliceServe, hk]

theorem State.sliceServe_atomic {p : Nat} (hk : a.kind = .atomic p) :
    s.sliceServe c slice line a = s.sliceAtomic c slice line a (attrOf (s.attrBits a)) := by
  rw [State.sliceServe, hk]

theorem State.sliceServe_clean (hk : a.kind = .clean) : s.sliceServe c slice line a = s.sliceControl c slice line a := by
  rw [State.sliceServe, hk]

end

/-! ## What the slice asks its home agent for (11 R342, R343, R355; 12 R369, R374) -/

theorem State.sendRequest_core (s : State) (c : Nat) (a : Access) (slice line : Nat) (kind : HKind) (t : Attr)
    (predicted : Bool) (d : Nat) : (s.sendRequest c a slice line kind t predicted).core d
      = (s.modCore c fun k => k.modAcc a.id fun x =>
          { x with stage := .sent, bytes := k.storeData a, attr := some (s.attrBits a) }).core d := rfl

theorem State.sendRequest_requested {s : State} {c : Nat} {a : Access} (ha : (s.core c).acc a.id = some a)
    (hdata : (s.core c).storeData a = a.bytes) (slice line : Nat) (kind : HKind) (t : Attr) (predicted : Bool) :
    Requested s (s.sendRequest c a slice line kind t predicted) c a.id a slice line kind := by
  refine ⟨((s.modCore_onlyCore c _).1.mono (by decide)).trans ((State.setCo_sameBut _ _).mono (by decide)), ?_,
    fun d hd => ?_, _, rfl, rfl, rfl, rfl, rfl, rfl, rfl⟩
  · rw [State.sendRequest_core, State.core_modCore_same, hdata]
    exact Core.modAcc_acc ha fun _ => rfl
  · rw [State.sendRequest_core, State.core_modCore_other _ _ _ _ hd]

/-- What is requested of an access that has dropped its line from its own L1. -/
theorem Requested.of_onWay {s t : State} {c id slice line l : Nat} {a b : Access} {kind : HKind}
    (h : Requested (s.onWay c l b) t c id a slice line kind) : Requested s t c id a slice line kind := by
  unfold State.onWay at h
  split at h
  · obtain ⟨hframe, hacc, hothers, hnet⟩ := h
    exact ⟨((s.modCore_onlyCore c _).1.mono (by decide)).trans hframe, hacc,
      fun d hd => (hothers d hd).trans (s.core_modCore_other c d _ hd), hnet⟩
  · exact h

section
variable {s : State} {c slice line : Nat} {a : Access} {t : Attr}

theorem State.sliceLoad_bypass (hsid : s.findSiding slice line = none) (hcache : t.cache = 2) (hk : a.kind = .load) :
    s.sliceLoad c slice line a t = s.sendRequest c a slice line .readBypass t false := by
  simp [State.sliceLoad, hsid, hcache, hk]

theorem State.sliceLoad_miss (hsid : s.findSiding slice line = none) (hline : s.findLine slice line = none)
    (hfill : s.filling slice line = false) (hcache : t.cache ≠ 2) :
    s.sliceLoad c slice line a t = s.sendRequest c a slice line .readFill t false := by
  simp [State.sliceLoad, hsid, hline, hcache, State.orWait, hfill]

theorem State.sliceLoad_hit {key : Nat} {w : Line} (hsid : s.findSiding slice line = none)
    (hline : s.findLine slice line = some (key, w)) (hpoison : w.poison = false) (hcache : t.cache ≤ 1) (hk : a.kind = .load) :
    s.sliceLoad c slice line a t = (s.setLine key { w with age := 0 }).serveLine c a line w.data false (!t.stream) := by
  have hne : t.cache ≠ 2 := by omega
  simp [State.sliceLoad, hsid, hline, hpoison, hcache, hne, hk]

theorem State.sliceStore_bypass (hsid : s.findSiding slice line = none) (hline : s.findLine slice line = none)
    (h : t.cache = 2 ∨ t.walloc = false) :
    s.sliceStore c slice line a t = s.sendRequest c a slice line .writeBypass t false := by
  rcases h with h | h <;> simp [State.sliceStore, hsid, hline, h]

theorem State.sliceStore_miss (hsid : s.findSiding slice line = none) (hline : s.findLine slice line = none)
    (hfill : s.filling slice line = false) (hcache : t.cache ≠ 2) (hw : t.walloc = true) :
    s.sliceStore c slice line a t
      = s.sendRequest c a slice line (if t.cache = 0 then .ownFill else .readFill) t false := by
  simp [State.sliceStore, hsid, hline, hcache, hw, State.orWait, hfill]

theorem State.sliceStore_shared {key : Nat} {w : Line} (hsid : s.findSiding slice line = none)
    (hline : s.findLine slice line = some (key, w)) (hfill : s.filling slice line = false) (hcache : t.cache = 0)
    (hst : ¬ (w.st = .M ∨ w.st = .E)) :
    s.sliceStore c slice line a t = s.sendRequest c a slice line .ownFill t false := by
  simp [State.sliceStore, hsid, hline, hcache, hst, State.orWait, hfill]

theorem State.sliceStore_through (hsid : s.findSiding slice line = none) (hline : s.findLine slice line ≠ none)
    (hcache : t.cache ≠ 0) :
    s.sliceStore c slice line a t
      = s.sendRequest c a slice line (if t.cache = 1 then .writeThrough else .writeBypass) t false := by
  obtain ⟨⟨key, w⟩, hw⟩ := Option.ne_none_iff_exists'.1 hline
  simp [State.sliceStore, hsid, hw, hcache]

theorem State.sliceStore_hit {key : Nat} {w : Line} (hsid : s.findSiding slice line = none)
    (hline : s.findLine slice line = some (key, w)) (hcache : t.cache = 0) (hst : w.st = .M ∨ w.st = .E)
    (hdata : (s.core c).storeData a = a.bytes) : s.sliceStore c slice line a t = s.storeHit c key w a := by
  simp [State.sliceStore, hsid, hline, hcache, hst, hdata]

theorem State.sliceAtomic_far (h : t.cache = 2 ∨ t.atomic = 2) :
    s.sliceAtomic c slice line a t = s.sendRequest c a slice line .farAtomic t false := by
  simp [State.sliceAtomic, State.atomicFar, h]

theorem State.atomicFar_near (hcache : t.cache ≠ 2) (h : t.atomic = 1) : s.atomicFar slice line t = (false, false) := by
  simp [State.atomicFar, hcache, h]

theorem State.sliceAtomic_miss (hsid : s.findSiding slice line = none) (hline : s.findLine slice line = none)
    (hfill : s.filling slice line = false) (hcache : t.cache ≠ 2) (h : t.atomic = 1) :
    s.sliceAtomic c slice line a t = s.sendRequest c a slice line .ownFill t false := by
  simp [State.sliceAtomic, State.atomicFar_near hcache h, hsid, hline, State.orWait, hfill]

theorem State.sliceAtomic_hit {key : Nat} {w : Line} (hsid : s.findSiding slice line = none)
    (hline : s.findLine slice line = some (key, w)) (hst : w.st = .M ∨ w.st = .E) (hcache : t.cache ≠ 2) (h : t.atomic = 1) :
    s.sliceAtomic c slice line a t = s.atomicHit c slice key w a false := by
  simp [State.sliceAtomic, State.atomicFar_near hcache h, hsid, hline, hst]

end

/-! ## Lines changed by the accesses of their die (12 R373, R383, Table 12.2) -/

theorem State.storeHit_leaves {s : State} {c slice line key : Nat} {w : Line} {a : Access}
    (hw : s.findLine slice line = some (key, w)) (hpoison : w.poison = false) (ha : (s.core c).acc a.id = some a)
    (hacc : a.accepted = false) :
    SameBut [.cores, .co] s (s.storeHit c key w a)
      ∧ ((s.storeHit c key w a).core c).acc a.id = some { a with stage := .served }
      ∧ (∀ d, d ≠ c → ((s.storeHit c key w a).core d).l1Hit line = none)
      ∧ (s.storeHit c key w a).findLine slice line
        = some (key, { w with st := .M, age := 0, data := mergeData w.data (placeInLine a.inLine a.bytes) }) := by
  obtain ⟨-, rfl⟩ := State.findLine_some hw
  let v : Line := { w with st := .M, age := 0, data := (stored w.data w.poison a).1, poison := (stored w.data w.poison a).2 }
  obtain ⟨hframe, hserved, hcopies⟩ :=
    State.showStore_shows (s := (s.setLine key v).holdAs (key / 32768) w.line .M) ha hacc w.line
  refine ⟨.trans ?_ hframe, hserved, hcopies, ?_⟩
  · exact ((s.setLine_sameBut key v).trans (State.holdAs_sameBut _ _ _ _)).mono (by decide)
  · refine (State.findLine_setLine_held (v := v) hw rfl).trans ?_
    simp only [v, stored, hpoison, Bool.false_and]

theorem State.atomicHit_leaves {s : State} {c slice line key p : Nat} {w : Line} {a : Access} (hk : a.kind = .atomic p)
    (hw : s.findLine slice line = some (key, w)) (hpoison : w.poison = false) (ha : (s.core c).acc a.id = some a)
    (hacc : a.accepted = false) :
    SameBut [.cores, .co] s (s.atomicHit c slice key w a false)
      ∧ ((s.atomicHit c slice key w a false).core c).acc a.id
        = some { a with stage := .served, got := (s.lineBytesOf a w.data).map some }
      ∧ (∀ d, ((s.atomicHit c slice key w a false).core d).l1Hit line = none)
      ∧ (s.atomicHit c slice key w a false).findLine slice line
        = some (key, { w with st := .M, age := 0, data := mergeData w.data (placeInLine a.inLine ((toBytes 8
            (amoValue p (BitVec.ofNat 64 (ofBytes (s.lineBytesOf a w.data))) a.b a.c).toNat).map some)) }) := by
  obtain ⟨-, rfl⟩ := State.findLine_some hw
  let v : Line := { w with st := .M, age := 0, data := (s.atomicOn w.data a).1 }
  let u := ((s.setLine key v).holdAs slice w.line .M).dropL1 w.line none
  have hu : s.atomicHit c slice key w a false
      = u.modCore c fun k => k.loadServed a.id ((s.atomicOn w.data a).2.map some) := by
    simp [State.atomicHit, hpoison, u, v]
  have hcore (d : Nat) : u.core d = (s.core d).dropOwnL1 w.line := State.core_dropL1 _ _ _ _
  have ha' : (u.core c).acc a.id = some a := by rw [hcore]; exact ha
  rw [hu]
  refine ⟨?_, ?_, fun d => ?_, ?_⟩
  · refine .trans (.trans ?_ (State.dropL1_sameBut _ w.line none)) ((u.modCore_onlyCore c _).1.mono (by decide))
    exact ((s.setLine_sameBut key v).trans (State.holdAs_sameBut _ _ _ _)).mono (by decide)
  · rw [State.core_modCore_same]
    exact Core.loadServed_acc ha' hacc _
  · by_cases hd : d = c
    · rw [hd, State.core_modCore_same, Core.loadServed_waiting ha' hacc, hcore]
      exact Core.l1Hit_dropOwnL1 _ _
    · rw [State.core_modCore_other _ _ _ _ hd, hcore, Core.l1Hit_dropOwnL1]
  · refine (State.findLine_setLine_held (v := v) hw rfl).trans ?_
    simp only [v, State.atomicOn, hk]

theorem State.hbmWriteLine_clean {s : State} {line : Nat} (h : line ∉ s.poison) (d : LineData) :
    s.hbmWriteLine line d false = { s with mem := s.mem.writeN (64 * line) d } := by
  have hkept : s.poison.filter (· != line) = s.poison := List.filter_eq_self.2 fun x hx => by
    rw [bne_iff_ne]
    exact fun hxl => h (hxl ▸ hx)
  simp [State.hbmWriteLine, State.markPoison, hkept]

/-- Table 12.2: CLEAN writes an M line back, and the die keeps it in E. -/
theorem State.sliceControl_clean {s : State} {c slice line key : Nat} {w : Line} {a : Access} (hk : a.kind = .clean)
    (hsid : s.findSiding slice line = none) (hw : s.findLine slice line = some (key, w)) (hst : w.st = .M)
    (hpoison : w.poison = false) (hclean : line ∉ s.poison) :
    SameBut [.mem, .cores, .co] s (s.sliceControl c slice line a)
      ∧ (s.sliceControl c slice line a).mem = s.mem.writeN (64 * line) w.data
      ∧ (s.sliceControl c slice line a).findLine slice line = some (key, { w with st := .E })
      ∧ ((s.sliceControl c slice line a).core c).acc a.id = none := by
  let r : State := { s with mem := s.mem.writeN (64 * line) w.data }
  let v := (r.setLine key { w with st := .E }).holdAs slice line .E
  let u := if v.promised slice line then v.setHolders line (s.holders line) else v
  have hu : s.sliceControl c slice line a = u.modCore c fun k => k.controlDone a := by
    simp [State.sliceControl, hsid, hw, hst, LineSt.dirty, hpoison, State.hbmWriteLine_clean hclean, hk, u, v, r]
  have hframe : SameBut [.co] v u := .ite (v.setHolders_sameBut line _) (.refl _ v)
  have hlines : u.co.lines = v.co.lines := by
    dsimp only [u]
    split <;> rfl
  rw [hu]
  refine ⟨?_, ?_, ?_, ?_⟩
  · have hline : SameBut [.co] r u := ((r.setLine_sameBut key _).trans (State.holdAs_sameBut _ _ _ _)).trans hframe
    exact .trans ((s.setMem_sameBut _).mono (by decide)) (.trans (hline.mono (by decide))
      ((u.modCore_onlyCore c _).1.mono (by decide)))
  · exact hframe .mem (by decide)
  · refine (State.findLine_congr hlines slice line).trans ?_
    exact State.findLine_setLine_held (s := r) hw rfl
  · rw [State.core_modCore_same]
    exact Core.controlDone_acc _ a

/-! ## The yard of another core (11 R330-R334, 01 R44) -/

theorem exec_remoteYardAccess_free {s : State} {c id d off : Nat} {a : Access} (h : Free s c id a)
    (hlocal : s.isLocal a.addr = true) (hyard : decodeLocal (localOf a.addr) = .yard d off) (hne : d ≠ c) :
    exec (.remoteYardAccess c id .clean) s
      = .next (if s.isolated d then s.modCore c fun k => k.refuseAcc id .isolated else s.yardAccess c d a .clean) := by
  obtain ⟨hup, hc, ha, hstage, -, hblocked, -⟩ := h
  change need (decide (c < 25600)) s (fun s => whenUp s fun s => s.remoteYard c id .clean) = _
  rw [need_of (decide_eq_true hc), whenUp_up hup, State.remoteYard, ha]
  simp [hstage, hblocked, hlocal, hyard, hne]

/-- The byte that a write of `bs` from `a` up gives address `x`. -/
def byteIn (a : Nat) (bs : List (Option Byte)) (x : Nat) : Option Byte := if a ≤ x then (nth bs (x - a)).getD none else none

theorem laneOf_eq (a : Nat) (bs : List (Option Byte)) (w : Nat) :
    laneOf a bs w = (List.range 8).map fun i => byteIn a bs (w + i) := by
  refine List.map_congr_left fun i _ => ?_
  unfold byteIn
  cases nth bs (w + i - a) <;> rfl

theorem State.yardWrite_eq_putWords (s : State) (a : Nat) (bs : List (Option Byte)) :
    s.yardWrite a bs = s.putWords (byteIn a bs) (wordsOf a bs.length) := by
  simp only [State.yardWrite, State.putWords, laneOf_eq]

theorem byteIn_map_some (a : Nat) (bs : List Byte) (x : Nat) :
    byteIn a (bs.map some) x = if a ≤ x then bs[x - a]? else none := by
  unfold byteIn
  rw [nth_eq_getElem?, List.getElem?_map]
  cases bs[x - a]? <;> rfl

/-- The words that a range touches cover it. -/
theorem exists_mem_wordsOf {a n i : Nat} (h : i < n) : ∃ w ∈ wordsOf a n, w ≤ a + i ∧ a + i < w + 8 := by
  refine ⟨(a + i) / 8 * 8, List.mem_map.2 ⟨(a + i) / 8 - a / 8, List.mem_range.2 (by omega), ?_⟩, by omega, by omega⟩
  congr 1
  omega

/-- R331: bytes written into words of a yard that hold no error stand there, and no others change. -/
theorem State.yardWrite_stored {s : State} (hmem : s.mem.wf = true) {a : Nat} {bs : List Byte}
    (hgood : ∀ w, w ∈ wordsOf a bs.length → s.yardWordBad w = false) :
    SameBut [.mem] s (s.yardWrite a (bs.map some)).1 ∧ Stored s (s.yardWrite a (bs.map some)).1 a bs := by
  rw [State.yardWrite_eq_putWords, List.length_map]
  obtain ⟨-, hover⟩ := State.putWords_overlaid (g := byteIn a (bs.map some)) hmem hgood
  refine ⟨hover.frame, fun i b hb => ?_, fun x hx => ?_⟩
  · have hi : i < bs.length := (List.getElem?_eq_some_iff.1 hb).1
    rw [hover.byte, if_pos (exists_mem_wordsOf hi), byteIn_map_some, if_pos (Nat.le_add_right a i), Nat.add_sub_cancel_left, hb]
    rfl
  · have hnone : byteIn a (bs.map some) x = none := by
      rw [byteIn_map_some]
      split
      · exact List.getElem?_eq_none (by omega)
      · rfl
    rw [hover.byte, hnone, ite_self]
    rfl

section
variable {s : State} {c d : Nat} {a : Access} (ha : (s.core c).acc a.id = some a) (hacc : a.accepted = false)
  (hgood : ∀ w, w ∈ wordsOf (localOf a.addr) a.bytes.length → s.yardWordBad w = false)

include hgood in
theorem State.firstBadWord_none : s.firstBadWord (localOf a.addr) a.bytes.length = none := firstIf_none_iff.2 hgood

include hgood in
theorem State.firstBadMerge_none : s.firstBadMerge (localOf a.addr) a.bytes = none :=
  firstIf_none_iff.2 fun w hw => hgood w (List.mem_filter.1 hw).1

include ha hacc hgood

theorem State.yardAccess_load (hk : a.kind = .load) :
    OnlyCore c s (s.yardAccess c d a .clean)
      ∧ ((s.yardAccess c d a .clean).core c).acc a.id = some { a with
          stage := .served, got := (s.core c).overlay s.canonical a
            (((List.range a.bytes.length).map fun i => s.byteAt (localOf a.addr + i)).map some) } := by
  have hu : s.yardAccess c d a .clean = s.modCore c fun k => k.loadServed a.id
      (k.overlay s.canonical a (((List.range a.bytes.length).map fun i => s.byteAt (localOf a.addr + i)).map some)) := by
    simp only [State.yardAccess, hk, State.yardEcc, State.firstBadWord_none hgood, State.yardRead, State.byteVals_readN_eq_map]
  rw [hu, State.core_modCore_same]
  exact ⟨s.modCore_onlyCore c _, Core.loadServed_acc ha hacc _⟩

theorem State.yardAccess_store (hk : a.kind = .store) (hdata : (s.core c).storeData a = a.bytes) (hmem : s.mem.wf = true)
    {bs : List Byte} (hbs : a.bytes = bs.map some) :
    SameBut [.mem, .cores] s (s.yardAccess c d a .clean) ∧ Stored s (s.yardAccess c d a .clean) (localOf a.addr) bs
      ∧ ((s.yardAccess c d a .clean).core c).acc a.id = some { a with stage := .served } := by
  let r := (s.yardWrite (localOf a.addr) (bs.map some)).1
  have hecc : s.mergeEcc (localOf a.addr) a.bytes .clean = s := by
    unfold State.mergeEcc
    split <;> rfl
  have hu : s.yardAccess c d a .clean = r.modCore c fun k => k.storeVisible a.id := by
    simp only [State.yardAccess, hk, hdata, hecc, State.firstBadMerge_none hgood, r, ← hbs]
  obtain ⟨hframe, hstored⟩ := State.yardWrite_stored hmem (a := localOf a.addr) (bs := bs) (by simpa [hbs] using hgood)
  rw [hu, State.core_modCore_same, hframe.core (by decide) (by decide)]
  exact ⟨(hframe.mono (by decide)).trans ((r.modCore_onlyCore c _).1.mono (by decide)), hstored, Core.storeVisible_acc ha hacc⟩

theorem State.yardAccess_atomic {p : Nat} (hk : a.kind = .atomic p) (hlen : a.bytes.length = 8) (hmem : s.mem.wf = true) :
    let was := (List.range a.bytes.length).map fun i => s.byteAt (localOf a.addr + i)
    SameBut [.mem, .cores] s (s.yardAccess c d a .clean)
      ∧ Stored s (s.yardAccess c d a .clean) (localOf a.addr)
          (toBytes 8 (amoValue p (BitVec.ofNat 64 (ofBytes was)) a.b a.c).toNat)
      ∧ ((s.yardAccess c d a .clean).core c).acc a.id = some { a with stage := .served, got := was.map some } := by
  intro was
  let bs := toBytes 8 (amoValue p (BitVec.ofNat 64 (ofBytes was)) a.b a.c).toNat
  let r := (s.yardWrite (localOf a.addr) (bs.map some)).1
  have hu : s.yardAccess c d a .clean = r.modCore c fun k => k.loadServed a.id (was.map some) := by
    simp only [State.yardAccess, hk, State.yardEcc, State.firstBadWord_none hgood, State.yardRead, State.byteVals_readN_eq_map,
      State.yardStore, r, bs, was]
  obtain ⟨hframe, hstored⟩ := State.yardWrite_stored hmem (a := localOf a.addr) (bs := bs)
    (by simpa only [bs, length_toBytes, hlen] using hgood)
  rw [hu, State.core_modCore_same, hframe.core (by decide) (by decide)]
  exact ⟨(hframe.mono (by decide)).trans ((r.modCore_onlyCore c _).1.mono (by decide)), hstored, Core.loadServed_acc ha hacc _⟩

end

/-! ## The statement -/

/-- The requests of loads, PREFETCHes and stores, by the policy of their window (11 R342, R343, R355). -/
theorem State.sliceServe_requests {s : State} {c id slice line : Nat} {a : Access} (h : AtSlice s c id a slice line)
    {kind : HKind} :
    let t := attrOf (s.attrBits a)
    let held := s.findLine slice line
    (((a.kind = .load ∨ a.kind = .prefetch) ∧ t.cache ≠ 2 ∧ held = none ∧ kind = .readFill)
      ∨ (a.kind = .load ∧ t.cache = 2 ∧ kind = .readBypass)
      ∨ (a.kind = .store ∧ held = none ∧ (t.cache = 2 ∨ t.walloc = false) ∧ kind = .writeBypass)
      ∨ (a.kind = .store ∧ held = none ∧ t.cache = 0 ∧ t.walloc = true ∧ kind = .ownFill)
      ∨ (a.kind = .store ∧ held = none ∧ t.cache = 1 ∧ t.walloc = true ∧ kind = .readFill)
      ∨ (a.kind = .store ∧ (∃ key w, held = some (key, w) ∧ w.st ≠ .M ∧ w.st ≠ .E) ∧ t.cache = 0 ∧ kind = .ownFill)
      ∨ (a.kind = .store ∧ held ≠ none ∧ t.cache = 1 ∧ kind = .writeThrough)
      ∨ (a.kind = .store ∧ held ≠ none ∧ t.cache = 2 ∧ kind = .writeBypass)) →
    a.kind.isAtomic = false ∧ s.sliceServe c slice line a = s.sendRequest c a slice line kind t false := by
  dsimp only
  intro hcase
  obtain ⟨-, -, -, -, -, hfill, hsid, -⟩ := h
  rcases hcase with ⟨hk | hk, hcache, hnone, rfl⟩ | ⟨hk, hcache, rfl⟩ | ⟨hk, hnone, hpast, rfl⟩ | ⟨hk, hnone, hcache, hw, rfl⟩
    | ⟨hk, hnone, hcache, hw, rfl⟩ | ⟨hk, ⟨key, w, hheld, hM, hE⟩, hcache, rfl⟩ | ⟨hk, hheld, hcache, rfl⟩
    | ⟨hk, hheld, hcache, rfl⟩ <;> refine ⟨by rw [hk]; rfl, ?_⟩
  · rw [State.sliceServe_load hk, State.sliceLoad_miss hsid hnone hfill hcache]
  · rw [State.sliceServe_prefetch hk, State.sliceLoad_miss hsid hnone hfill hcache]
  · rw [State.sliceServe_load hk, State.sliceLoad_bypass hsid hcache hk]
  · rw [State.sliceServe_store hk, State.sliceStore_bypass hsid hnone hpast]
  · rw [State.sliceServe_store hk, State.sliceStore_miss hsid hnone hfill (by omega) hw, if_pos hcache]
  · rw [State.sliceServe_store hk, State.sliceStore_miss hsid hnone hfill (by omega) hw, if_neg (by omega)]
  · rw [State.sliceServe_store hk, State.sliceStore_shared hsid hheld hfill hcache fun hst => hst.elim hM hE]
  · rw [State.sliceServe_store hk, State.sliceStore_through hsid hheld (by omega), if_pos hcache]
  · rw [State.sliceServe_store hk, State.sliceStore_through hsid hheld (by omega), if_neg (by omega)]

/-- Settles O49: an access is served by its kind and by whether its die holds the line, and each case is the equation
of `State.sliceServe` or `State.yardAccess` above. -/
theorem sliceAndYardAccess : Obligations.SliceAndYardAccess := by
  unfold Obligations.SliceAndYardAccess
  refine ⟨fun s c id slice line a h => ?_, fun s c id d off a h hlocal hyard hne => ?_⟩
  · have hexec := exec_sliceAccess_atSlice h
    have hat := h
    obtain ⟨⟨-, -, ha, -, hacc, -, hdata⟩, -, -, -, -, hfill, hsid, -⟩ := hat
    obtain rfl := Core.acc_id ha
    have hplain (hk : a.kind.isAtomic = false) : exec (.sliceAccess c a.id .clean) s = .next (s.sliceServe c slice line a) := by
      rw [hexec, s.onWay_plain c line hk]
    let s' := s.modCore c fun k => k.dropOwnL1 line
    have ha' : (s'.core c).acc a.id = some a := by
      rw [State.core_modCore_same]
      exact ha
    have hdata' : (s'.core c).storeData a = a.bytes := by
      rw [State.core_modCore_same]
      exact hdata
    have hatomic {p : Nat} (hk : a.kind = .atomic p) :
        exec (.sliceAccess c a.id .clean) s = .next (s'.sliceAtomic c slice line a (attrOf (s.attrBits a))) := by
      rw [hexec, s.onWay_atomic c line hk, State.sliceServe_atomic hk]
      rfl
    dsimp only
    refine ⟨fun hk hcache key w hheld hpoison => ?load, fun hk hcache key w hheld hpoison hst => ?store,
      fun p hk hcache hnear key w hheld hpoison hst => ?atomic, fun hk key w hheld hst hpoison hclean => ?clean,
      fun kind hcase => ?request, fun p hk _ kind hcase => ?atomicRequest⟩
    case load =>
      let r := s.setLine key { w with age := 0 }
      obtain ⟨hframe, hgot, hl1⟩ := State.serveLine_serves (s := r) ha hacc line w.data (!(attrOf (s.attrBits a)).stream)
      rw [State.lineBytesOf_congr (s := s) (t := r) rfl] at hgot
      refine ⟨r.serveLine c a line w.data false (!(attrOf (s.attrBits a)).stream), ?_,
        ((s.setLine_sameBut key _).mono (by decide)).trans (hframe.1.mono (by decide)), hframe.2, hgot, ?_, hl1⟩
      · rw [hplain (by rw [hk]; rfl), State.sliceServe_load hk, State.sliceLoad_hit hsid hheld hpoison hcache hk]
      · exact State.findLine_setLine_held hheld rfl
    case store =>
      exact ⟨_, by rw [hplain (by rw [hk]; rfl), State.sliceServe_store hk, State.sliceStore_hit hsid hheld hcache hst hdata],
        State.storeHit_leaves hheld hpoison ha hacc⟩
    case atomic =>
      obtain ⟨hframe, hserved⟩ := State.atomicHit_leaves (s := s') hk hheld hpoison ha' hacc
      rw [State.lineBytesOf_congr (s := s) (t := s') rfl] at hserved
      exact ⟨_, by rw [hatomic hk, State.sliceAtomic_hit (s := s') hsid hheld hst hcache hnear],
        ((s.modCore_onlyCore c _).1.mono (by decide)).trans hframe, hserved⟩
    case clean =>
      exact ⟨_, by rw [hplain (by rw [hk]; rfl), State.sliceServe_clean hk],
        State.sliceControl_clean hk hsid hheld hst hpoison hclean⟩
    case request =>
      obtain ⟨hk, hserve⟩ := State.sliceServe_requests h hcase
      exact ⟨_, by rw [hplain hk, hserve], State.sendRequest_requested ha hdata slice line kind _ false⟩
    case atomicRequest =>
      refine ⟨s'.sendRequest c a slice line kind (attrOf (s.attrBits a)) false, ?_, .of_onWay (l := line) (b := a) ?_⟩
      · rw [hatomic hk]
        rcases hcase with ⟨hfar, rfl⟩ | ⟨hcache, hnear, hmiss, rfl⟩
        · rw [State.sliceAtomic_far (s := s') hfar]
        · rw [State.sliceAtomic_miss (s := s') hsid hmiss hfill hcache hnear]
      · rw [s.onWay_atomic c line hk]
        exact State.sendRequest_requested ha' hdata' slice line kind _ false
  · have hexec := exec_remoteYardAccess_free h hlocal hyard hne
    obtain ⟨-, -, ha, -, hacc, -, hdata⟩ := h
    obtain rfl := Core.acc_id ha
    refine ⟨fun hiso => ?isolated, fun hiso hgood hmem => ?_⟩
    case isolated =>
      refine ⟨_, hexec.trans (by rw [if_pos hiso]), (s.modCore_onlyCore c _).1, (s.modCore_onlyCore c _).2, ?_⟩
      rw [State.core_modCore_same]
      exact Core.refuseAcc_waiting_acc _ ha hacc
    have hreach : exec (.remoteYardAccess c a.id .clean) s = .next (s.yardAccess c d a .clean) :=
      hexec.trans (by rw [hiso]; rfl)
    dsimp only
    refine ⟨fun hk => ?load, fun bs hk hbs => ?store, fun p hk hlen _ => ?atomic⟩
    case load =>
      obtain ⟨hframe, hgot⟩ := State.yardAccess_load (d := d) ha hacc hgood hk
      exact ⟨_, hreach, hframe.1, hgot⟩
    case store => exact ⟨_, hreach, State.yardAccess_store ha hacc hgood hk hdata hmem hbs⟩
    case atomic => exact ⟨_, hreach, State.yardAccess_atomic ha hacc hgood hk hlen hmem⟩

end Sys2Proof.Machine
end

section
/-!
O51. The messages that meet a slice (11 R344-R349; 12 R366-R378, Table 12.2): probes and forwarded requests,
granted lines, the siding, and the ends of tablet holds.
-/
namespace Sys2Proof.Machine

/-! ## A die's copy given up or read (Table 12.2) -/

theorem ProbeMode.after_remove (st : LineSt) : ProbeMode.after .remove st = none := rfl

theorem ProbeMode.after_look (st : LineSt) : ProbeMode.after .look st = some st := by
  cases st <;> rfl

theorem ProbeMode.after_share (st : LineSt) : ProbeMode.after .share st = some (if st.dirty then .O else .S) := by
  cases st <;> rfl

theorem ProbeMode.after_read (st : LineSt) : ProbeMode.after .read st = some (if st = .M then .O else st) := by
  cases st <;> rfl

theorem ProbeMode.after_eq_none {m : ProbeMode} {st : LineSt} : m.after st = none ↔ m = .remove := by
  cases m <;> cases st <;> decide

/-- What a die gives for a line that it holds. -/
def Line.yields (w : Line) (m : ProbeMode) : Yield :=
  { data := some w.data, poison := w.poison, dirty := w.st.dirty, left := m.after w.st }

/-- The messages between slices and home agents that answer one another are the same. -/
structure SameMessages (s t : State) : Prop where
  probes : t.co.probes = s.co.probes
  resps : t.co.resps = s.co.resps
  grants : t.co.grants = s.co.grants
  fwds : t.co.fwds = s.co.fwds

section
variable {s : State} {slice line key : Nat} {w : Line} (hw : s.findLine slice line = some (key, w))
include hw

theorem State.yieldLine_kept {m : ProbeMode} {st : LineSt} (h : m.after w.st = some st) :
    s.yieldLine slice line m = ((s.setLine key { w with st := st }).holdAs slice line st, w.yields m) := by
  simp [State.yieldLine, hw, h, Line.yields]

theorem State.yieldLine_removed :
    s.yieldLine slice line .remove
      = (((s.dropLine key).dropDieL1 (slice / 32) line).holdNot slice line, w.yields .remove) := by
  simp [State.yieldLine, hw, ProbeMode.after, Line.yields]

theorem State.yieldLine_yields (m : ProbeMode) : (s.yieldLine slice line m).2 = w.yields m := by
  simp [State.yieldLine, hw, Line.yields]

/-- Giving a copy up or letting it be read changes the copies of its die and the record of it. -/
theorem State.yieldLine_leaves (m : ProbeMode) :
    SameBut [.co, .cores] s (s.yieldLine slice line m).1
      ∧ SameMessages s (s.yieldLine slice line m).1 := by
  cases hst : m.after w.st with
  | none =>
    rw [ProbeMode.after_eq_none.1 hst, State.yieldLine_removed hw]
    refine ⟨?_, rfl, rfl, rfl, rfl⟩
    exact ((s.dropLine_sameBut key).mono (by decide)).trans (((State.dropDieL1_sameBut _ _ _).mono (by decide)).trans
      ((State.holdNot_sameBut _ _ _).mono (by decide)))
  | some st =>
    rw [State.yieldLine_kept hw hst]
    exact ⟨((s.setLine_sameBut key _).trans (State.holdAs_sameBut _ _ _ _)).mono (by decide), rfl, rfl, rfl, rfl⟩

theorem State.findLine_yieldLine_kept {m : ProbeMode} {st : LineSt} (h : m.after w.st = some st) :
    (s.yieldLine slice line m).1.findLine slice line = some (key, { w with st := st }) := by
  rw [State.yieldLine_kept hw h]
  exact State.findLine_setLine_held hw rfl

theorem State.findLine_yieldLine_removed (hrise : rising s.co.lines = true)
    (hone : ∀ q, q ∈ s.co.lines → q.1 / 32768 = slice → q.2.line = w.line → q = (key, w)) :
    (s.yieldLine slice line .remove).1.findLine slice line = none := by
  rw [State.yieldLine_removed hw, ← (State.findLine_some hw).2]
  exact State.findLine_dropLine hrise hone

theorem State.l1Hit_yieldLine_removed {c : Nat} (hc : dieOf c = slice / 32) :
    ((s.yieldLine slice line .remove).1.core c).l1Hit line = none := by
  rw [State.yieldLine_removed hw]
  change (((s.dropLine key).dropDieL1 (slice / 32) line).core c).l1Hit line = none
  rw [State.core_dropDieL1, if_pos hc, Core.l1Hit_dropOwnL1]

theorem State.holders_yieldLine_removed (hrise : rising s.co.dir = true) {h : Nat × LineSt}
    (hh : h ∈ (s.yieldLine slice line .remove).1.holders line) : h.1 ≠ slice := by
  rw [State.yieldLine_removed hw, State.holdNot] at hh
  dsimp only at hh
  rw [State.holders_setHolders (s := (s.dropLine key).dropDieL1 (slice / 32) line) hrise] at hh
  simpa using (List.mem_filter.1 hh).2

end

theorem State.yieldLine_absent {s : State} {slice line : Nat} (hline : s.findLine slice line = none)
    (hsid : s.findSiding slice line = none) (m : ProbeMode) : s.yieldLine slice line m = (s.holdNot slice line, {}) := by
  simp [State.yieldLine, hline, hsid]

/-! ## Probes (12 R366, R378) -/

theorem exec_probe_up {s : State} (h : s.pw.perst = true) (i : Nat) : exec (.probe i) s = .next (s.probeEvent i) :=
  congrArg Host.Outcome.next (whenUp_up h fun s => s.probeEvent i)

section
variable {s : State} {i : Nat} {p : Probe} (hp : nth s.co.probes i = some p) (harrived : p.arrived = false)
  (hgrants : s.co.grants = []) (hfwds : s.co.fwds = [])
include hp harrived hgrants hfwds

/-- With no line on its way to the slice, a probe that meets no hold is answered. -/
theorem State.probeEvent_answers (hfree : ∀ key w, s.findLine p.slice p.line = some (key, w) → w.holdEnd = none) :
    s.probeEvent i = s.answerProbe p := by
  rw [State.probeEvent, hp]
  simp only [harrived, State.onItsWay, hgrants, hfwds, List.any_nil, Bool.or_false, Bool.false_eq_true, if_false]
  cases hline : s.findLine p.slice p.line with
  | none => rfl
  | some q =>
    simp only [hfree q.1 q.2 hline, Option.isSome_none, Bool.false_eq_true, if_false]

theorem State.probeEvent_waits {key e : Nat} {w : Line} (hw : s.findLine p.slice p.line = some (key, w))
    (he : w.holdEnd = some e) :
    s.probeEvent i = { s.meetHold p.slice key w with co := { (s.meetHold p.slice key w).co with
      probes := mapIf (· == p) (fun p => { p with arrived := true }) s.co.probes } } := by
  rw [State.probeEvent, hp]
  simp only [harrived, State.onItsWay, hgrants, hfwds, List.any_nil, Bool.or_false, Bool.false_eq_true, if_false, hw, he,
    Option.isSome_some, if_true]
  rfl

end

/-- A die's answer to a probe of a line that it holds. -/
def Line.answers (w : Line) (p : Probe) : Resp :=
  { req := p.req, agent := p.agent, line := p.line, slice := p.slice, left := p.mode.after w.st, data := some w.data
    dirty := w.st.dirty, poison := w.poison }

section
variable {s : State} {p : Probe} {key : Nat} {w : Line} (hw : s.findLine p.slice p.line = some (key, w))
include hw

theorem State.answerProbe_sends :
    SameBut [.co, .cores] s (s.answerProbe p) ∧ (s.answerProbe p).co.probes = eraseFirst (· == p) s.co.probes
      ∧ (s.answerProbe p).co.resps = s.co.resps ++ [w.answers p] := by
  obtain ⟨hframe, hmessages⟩ := State.yieldLine_leaves hw p.mode
  refine ⟨hframe.trans ((State.setCo_sameBut _ _).mono (by decide)), congrArg (eraseFirst _) hmessages.probes, ?_⟩
  simp only [State.answerProbe, State.yieldLine_yields hw, Line.yields, hmessages.resps, Line.answers]

theorem State.answerProbe_keeps {st : LineSt} (hst : p.mode.after w.st = some st) :
    (s.answerProbe p).cores = s.cores
      ∧ (s.answerProbe p).findLine p.slice p.line = some (key, { w with st := st }) := by
  refine ⟨?_, State.findLine_yieldLine_kept hw hst⟩
  simp only [State.answerProbe, State.yieldLine_kept hw hst]
  rfl

theorem State.answerProbe_removes (hm : p.mode = .remove) (hrise : rising s.co.lines = true)
    (hone : ∀ q, q ∈ s.co.lines → q.1 / 32768 = p.slice → q.2.line = w.line → q = (key, w)) :
    (s.answerProbe p).findLine p.slice p.line = none
      ∧ ∀ c, dieOf c = p.slice / 32 → ((s.answerProbe p).core c).l1Hit p.line = none := by
  have hline := State.findLine_yieldLine_removed hw hrise hone
  rw [← hm] at hline
  refine ⟨hline, fun c hc => ?_⟩
  have hcopy := State.l1Hit_yieldLine_removed hw hc
  rw [← hm] at hcopy
  exact hcopy

theorem State.answerProbe_unlists (hm : p.mode = .remove) (hrise : rising s.co.dir = true) {h : Nat × LineSt}
    (hh : h ∈ (s.answerProbe p).holders p.line) : h.1 ≠ p.slice := by
  refine State.holders_yieldLine_removed hw hrise (h := h) ?_
  rw [← hm]
  exact hh

end

/-! ## Forwarded requests (12 R370) -/

theorem exec_forwardedRequest_up {s : State} (h : s.pw.perst = true) (i : Nat) :
    exec (.forwardedRequest i) s = .next (s.forwardedRequest i) :=
  congrArg Host.Outcome.next (whenUp_up h fun s => s.forwardedRequest i)

/-- The grant that answers a request with the line in the given state. -/
def HReq.grantOf (q : HReq) (st : LineSt) (d : LineData × Bool) : Grant :=
  { req := q.id, line := q.line, slice := q.slice, core := q.core, acc := q.acc, kind := q.kind, st := st
    data := d.1, poison := d.2, age3 := q.age3, predicted := q.predicted, l1 := q.l1 }

theorem State.forwardedRequest_answers {s : State} {f : Fwd} {key : Nat} {w : Line} (hf : s.co.fwds = [f])
    (harrived : f.arrived = false) (hneed : f.req.need = []) (hgrants : s.co.grants = [])
    (hearlier : s.earlierHit f.owner f.req.line = false) (hw : s.findLine f.owner f.req.line = some (key, w))
    (hhold : w.holdEnd = none) : s.forwardedRequest 0 = s.answerForward f := by
  simp [State.forwardedRequest, hf, nth, harrived, hneed, State.onItsWay, hgrants, hearlier, hw, hhold]

/-- An owner's answer: its copy goes or is read, and the line is on its way to the requester. -/
theorem State.answerForward_held {s : State} {f : Fwd} {key : Nat} {w : Line}
    (hw : s.findLine f.owner f.req.line = some (key, w)) :
    let own := f.req.kind == .ownFill
    let r := (s.yieldLine f.owner f.req.line (if own then .remove else .share)).1
    SameBut [.co, .cores] s (s.answerForward f)
      ∧ (s.answerForward f).co.fwds = eraseFirst (· == f) s.co.fwds
      ∧ (s.answerForward f).co.grants = s.co.grants ++ [f.req.grantOf (if own then .M else .S) (w.data, w.poison)]
      ∧ (s.answerForward f).co.lines = r.co.lines := by
  intro own r
  obtain ⟨hframe, hmessages⟩ := State.yieldLine_leaves hw (if own then .remove else .share)
  let v : State := { r with co := { r.co with fwds := eraseFirst (· == f) r.co.fwds } }
  let u := if own || v.promised f.owner f.req.line then v.setHolders f.req.line (s.holders f.req.line) else v
  have hu : s.answerForward f = u.grant f.req (if own then .M else .S) (w.data, w.poison) := by
    simp only [State.answerForward, State.yieldLine_yields hw, Line.yields]
    rfl
  have hframe' : SameBut [.co] r u := (r.setCo_sameBut _).trans (.ite (v.setHolders_sameBut _ _) (.refl _ v))
  have hkept : u.co.fwds = v.co.fwds ∧ u.co.grants = r.co.grants ∧ u.co.lines = r.co.lines := by
    dsimp only [u]
    split <;> exact ⟨rfl, rfl, rfl⟩
  obtain ⟨hfwds, hgrants, hlines⟩ := hkept
  rw [hu]
  refine ⟨hframe.trans ((hframe'.trans (u.setCo_sameBut _)).mono (by decide)), hfwds.trans ?_, ?_, hlines⟩
  · change eraseFirst _ r.co.fwds = _
    rw [hmessages.fwds]
  · change u.co.grants ++ _ = _
    rw [hgrants, hmessages.grants]
    rfl

/-! ## Granted lines (11 R344; 12 R377) -/

theorem exec_lineGrant_up {s : State} (h : s.pw.perst = true) (i : Nat) : exec (.lineGrant i) s = .next (s.lineGrant i) :=
  congrArg Host.Outcome.next (whenUp_up h fun s => s.lineGrant i)

/-- A granted line as it enters its way, held from now on where it is won (R377). -/
def State.grantLine (s : State) (g : Grant) : Line :=
  { line := g.line, st := g.st, age := if g.age3 then 3 else 1, data := g.data, poison := g.poison
    holdEnd := if s.wins g && s.co.hold != 0 then some (s.pw.now + s.co.hold.toNat) else none }

theorem State.grantLine_lost {s : State} {g : Grant} (h : s.wins g = false) (hpoison : g.poison = false) :
    s.grantLine g = { line := g.line, st := g.st, age := if g.age3 then 3 else 1, data := g.data } := by
  simp [State.grantLine, h, hpoison]

theorem State.grantLine_won {s : State} {g : Grant} (h : s.wins g = true) (hpoison : g.poison = false) :
    s.grantLine g = { line := g.line, st := g.st, age := if g.age3 then 3 else 1, data := g.data
                      holdEnd := if s.co.hold = 0 then none else some (s.pw.now + s.co.hold.toNat) } := by
  simp [State.grantLine, h, hpoison]

/-- Grant `i`, number `req`, has arrived. -/
def State.takeGrant (s : State) (i req : Nat) : State :=
  { s with co := { s.co with grants := dropNth s.co.grants i, delayedBy := s.co.delayedBy.filter fun p => p.2 != req } }

theorem wayKey_slice {slice set way : Nat} (hset : set < 2048) (hway : way < 16) : wayKey slice set way / 32768 = slice := by
  unfold wayKey
  omega

theorem setOf_lt (a : Nat) : setOf a < 2048 := Nat.mod_lt _ (by decide)

section
variable {s : State} {i n : Nat} {g : Grant} (hg : nth s.co.grants i = some g) (hmiss : s.findLine g.slice g.line = none)
  (hway : firstIf (fun n => !nhas s.co.lines (wayKey g.slice (setOf (64 * g.line)) n)) (List.range 16) = some n)
include hg hmiss hway

theorem State.lineGrant_enters (hkind : g.kind ≠ .readBypass) :
    s.lineGrant i = ((s.takeGrant i g.req).setLine (wayKey g.slice (setOf (64 * g.line)) n) (s.grantLine g)).grantServe g
      (wayKey g.slice (setOf (64 * g.line)) n) (s.grantLine g) := by
  rw [State.lineGrant, hg]
  simp only [hkind, if_false, hmiss, State.takeWay, hway]
  rfl

omit hg in
theorem State.findLine_granted {v : Line} (hv : v.line = g.line) :
    ((s.takeGrant i g.req).setLine (wayKey g.slice (setOf (64 * g.line)) n) v).findLine g.slice g.line
      = some (wayKey g.slice (setOf (64 * g.line)) n, v) :=
  State.findLine_setLine (s := s.takeGrant i g.req)
    (wayKey_slice (setOf_lt _) (List.mem_range.1 (firstIf_some hway).1)) hv fun _ hq => nomatch hmiss.symm.trans hq

end

theorem State.setLine_granted_sameBut (s : State) (i req key : Nat) (w : Line) :
    SameBut [.co] s ((s.takeGrant i req).setLine key w) :=
  (s.setCo_sameBut _).trans (State.setLine_sameBut _ key w)

section
variable {s : State} {g : Grant} {a : Access} (ha : (s.core g.core).acc g.acc = some a)
include ha

theorem State.wins_load (hkind : g.kind = .readFill) (hk : a.kind = .load) : s.wins g = false := by
  simp [State.wins, hkind, ha, hk]

theorem State.grantServe_load (hkind : g.kind = .readFill) (hk : a.kind = .load) (key : Nat) (w : Line) :
    s.grantServe g key w = s.serveLine g.core a g.line w.data w.poison g.l1 := by
  simp [State.grantServe, ha, hkind, hk]

theorem State.grantServe_store (hkind : g.kind = .ownFill) (hk : a.kind = .store) (key : Nat) (w : Line) :
    s.grantServe g key w = (s.setLine key { w with
      data := (stored w.data w.poison a).1, poison := (stored w.data w.poison a).2 }).showStore g.core g.line a := by
  simp [State.grantServe, ha, hkind, hk]

end

theorem State.wins_ownFill (s : State) {g : Grant} (hkind : g.kind = .ownFill) : s.wins g = true := by
  simp [State.wins, hkind]

section
variable {s : State} {i n : Nat} {g : Grant} {a : Access} (hg : nth s.co.grants i = some g)
  (hmiss : s.findLine g.slice g.line = none)
  (hway : firstIf (fun n => !nhas s.co.lines (wayKey g.slice (setOf (64 * g.line)) n)) (List.range 16) = some n)
  (ha : (s.core g.core).acc g.acc = some a) (hacc : a.accepted = false) (hpoison : g.poison = false)
include hg hmiss hway ha hacc hpoison

/-- R343: a load whose line arrives is served from it. -/
theorem State.lineGrant_serves_load (hkind : g.kind = .readFill) (hk : a.kind = .load) :
    SameBut [.co, .cores] s (s.lineGrant i) ∧ (s.lineGrant i).co.grants = dropNth s.co.grants i
      ∧ (s.lineGrant i).findLine g.slice g.line = some (wayKey g.slice (setOf (64 * g.line)) n,
          { line := g.line, st := g.st, age := if g.age3 then 3 else 1, data := g.data })
      ∧ ((s.lineGrant i).core g.core).acc g.acc = some { a with
          stage := .served, got := (s.core g.core).overlay s.canonical a ((s.lineBytesOf a g.data).map some) } := by
  have hlost := State.wins_load ha hkind hk
  let r := (s.takeGrant i g.req).setLine (wayKey g.slice (setOf (64 * g.line)) n) (s.grantLine g)
  have hserve : s.lineGrant i = r.serveLine g.core a g.line g.data false g.l1 := by
    rw [State.lineGrant_enters hg hmiss hway (by rw [hkind]; decide),
      State.grantServe_load (s := (s.takeGrant i g.req).setLine _ _) ha hkind hk]
    exact congrArg (fun b => r.serveLine g.core a g.line g.data b g.l1) hpoison
  have hid := Core.acc_id ha
  rw [← hid] at ha ⊢
  obtain ⟨hframe, hgot, -⟩ := State.serveLine_serves (s := r) ha hacc g.line g.data g.l1
  have hco := hframe.1 .co (by decide)
  rw [State.lineBytesOf_congr (s := s) (t := r) rfl] at hgot
  rw [hserve, ← State.grantLine_lost hlost hpoison]
  refine ⟨?_, congrArg Coherence.grants hco, ?_, hgot⟩
  · exact ((s.setLine_granted_sameBut i g.req _ _).mono (by decide)).trans (hframe.1.mono (by decide))
  · exact (State.findLine_congr (congrArg Coherence.lines hco) _ _).trans (State.findLine_granted hmiss hway rfl)

/-- R377, R383: a store whose line is won changes it, and the die holds the line. -/
theorem State.lineGrant_performs_store (hkind : g.kind = .ownFill) (hk : a.kind = .store) :
    SameBut [.co, .cores] s (s.lineGrant i) ∧ (s.lineGrant i).co.grants = dropNth s.co.grants i
      ∧ (s.lineGrant i).findLine g.slice g.line = some (wayKey g.slice (setOf (64 * g.line)) n,
          { line := g.line, st := g.st, age := if g.age3 then 3 else 1
            data := mergeData g.data (placeInLine a.inLine a.bytes)
            holdEnd := if s.co.hold = 0 then none else some (s.pw.now + s.co.hold.toNat) })
      ∧ ((s.lineGrant i).core g.core).acc g.acc = some { a with stage := .served }
      ∧ ∀ d, d ≠ g.core → ((s.lineGrant i).core d).l1Hit g.line = none := by
  let key := wayKey g.slice (setOf (64 * g.line)) n
  let w := s.grantLine g
  let v : Line := { w with data := (stored w.data w.poison a).1, poison := (stored w.data w.poison a).2 }
  let r := ((s.takeGrant i g.req).setLine key w).setLine key v
  have hstore : s.lineGrant i = r.showStore g.core g.line a := by
    rw [State.lineGrant_enters hg hmiss hway (by rw [hkind]; decide),
      State.grantServe_store (s := (s.takeGrant i g.req).setLine _ _) ha hkind hk]
  have hv : v = { line := g.line, st := g.st, age := if g.age3 then 3 else 1
                  data := mergeData g.data (placeInLine a.inLine a.bytes)
                  holdEnd := if s.co.hold = 0 then none else some (s.pw.now + s.co.hold.toNat) } := by
    simp only [v, w, State.grantLine_won (s.wins_ownFill hkind) hpoison, stored, Bool.false_and]
  have hid := Core.acc_id ha
  rw [← hid] at ha ⊢
  obtain ⟨hframe, hserved, hcopies⟩ := State.showStore_shows (s := r) ha hacc g.line
  rw [hstore, ← hv]
  refine ⟨?_, rfl, ?_, hserved, hcopies⟩
  · exact (((s.setLine_granted_sameBut i g.req _ _).trans (State.setLine_sameBut _ key v)).mono (by decide)).trans
      (hframe.mono (by decide))
  · exact State.findLine_setLine_held (State.findLine_granted hmiss hway rfl) rfl

end

/-! ## The siding (11 R347, R348, Table 11.2) -/

theorem exec_sidingIssue_up {s : State} (h : s.pw.perst = true) {slice : Nat} (hslice : slice < 512) :
    exec (.sidingIssue slice) s = .next (s.sidingIssue slice) := by
  change need (decide (slice < 512)) s (fun s => whenUp s fun s => s.sidingIssue slice) = _
  rw [need_of (decide_eq_true hslice), whenUp_up h]

theorem exec_sidingRetire_up {s : State} (h : s.pw.perst = true) (i : Nat) :
    exec (.sidingRetire i) s = .next (s.sidingRetire i) :=
  congrArg Host.Outcome.next (whenUp_up h fun s => s.sidingRetire i)

/-- What a siding entry sends to its home agent: a writeback with data, or a release notice. -/
def Siding.message (e : Siding) (slice : Nat) : Wb :=
  { slice := slice, line := e.line, agent := homeAgent (64 * e.line), poison := e.poison
    data := if e.st.dirty then some e.data else none }

theorem State.sidingIssue_sends {s : State} {slice : Nat} {e : Siding}
    (he : firstIf (fun e => !e.issued) (s.siding slice) = some e) :
    SameBut [.co] s (s.sidingIssue slice)
      ∧ (s.sidingIssue slice).siding slice
        = mapIf (fun x => x.line == e.line) (fun e => { e with issued := true }) (s.siding slice)
      ∧ (s.sidingIssue slice).co.wbs = s.co.wbs ++ [e.message slice] := by
  have hne : mapIf (fun x => x.line == e.line) (fun e => { e with issued := true }) (s.siding slice) ≠ [] :=
    List.ne_nil_of_length_pos (by rw [length_mapIf]; exact List.length_pos_of_mem (firstIf_some he).1)
  rw [State.sidingIssue, he]
  exact ⟨(s.setSiding_sameBut slice _).trans (State.setCo_sameBut _ _), State.siding_setSiding (.inr hne), rfl⟩

/-- Whether a CLEAN or FLUSH waits for the siding entry of a line. -/
def State.awaitsRetire (s : State) (line : Nat) (a : Access) : Bool :=
  (a.kind == .clean || a.kind == .flush) && a.stage == .atSlice && s.isLocal a.addr && localOf a.addr / 64 == line

theorem State.core_retireEntry (s : State) (slice line c : Nat) :
    (s.retireEntry slice line).core c = if dieOf c = slice / 32
      then forEach ((s.core c).accs.filter (s.awaitsRetire line)) (fun a k => k.controlDone a) (s.core c) else s.core c :=
  nget_map_if (P := fun c => dieOf c = slice / 32)
    (f := fun k : Core => forEach (k.accs.filter (s.awaitsRetire line)) (fun a k => k.controlDone a) k)
    rfl s.cores c

theorem State.retireEntry_sameBut (s : State) (slice line : Nat) : SameBut [.co, .cores] s (s.retireEntry slice line) :=
  ((s.setSiding_sameBut slice _).mono (by decide)).trans ((State.setCores_sameBut _ _).mono (by decide))

theorem forEach_controlDone_accs (l : List Access) (k : Core) :
    (forEach l (fun a k => k.controlDone a) k).accs = k.accs.filter fun x => l.all fun a => x.id != a.id := by
  induction l generalizing k with
  | nil => exact (List.filter_eq_self.2 fun _ _ => rfl).symm
  | cons a t ih =>
    refine (ih (k.controlDone a)).trans ?_
    rw [Core.controlDone, List.filter_filter]
    simp only [List.all_cons, Bool.and_comm]

theorem forEach_controlDone_acc {l : List Access} {a : Access} (h : a ∈ l) (k : Core) :
    (forEach l (fun a k => k.controlDone a) k).acc a.id = none := by
  rw [Core.acc, forEach_controlDone_accs]
  refine firstIf_none_iff.2 fun x hx => ?_
  simpa using List.all_eq_true.1 (List.mem_filter.1 hx).2 a h

theorem State.sidingRetire_waits {s : State} {i slice line : Nat} (hi : nth s.co.acks i = some (slice, line))
    (h : s.sought slice line = true) : s.sidingRetire i = s := by
  simp [State.sidingRetire, hi, h]

theorem State.sidingRetire_retires {s : State} {i slice line : Nat} (hi : nth s.co.acks i = some (slice, line))
    (h : s.sought slice line = false) : s.sidingRetire i = { s.retireEntry slice line with
      co := { (s.retireEntry slice line).co with acks := dropNth s.co.acks i } } := by
  simp only [State.sidingRetire, hi, h, Bool.false_eq_true, if_false]
  rfl

/-! ## Tablet holds (12 R375-R378) -/

theorem exec_tabletHoldEnd_up {s : State} (h : s.pw.perst = true) {slice : Nat} (hslice : slice < 512) (line : Nat) :
    exec (.tabletHoldEnd slice line) s = .next (s.holdEnds slice line) := by
  change need (decide (slice < 512)) s (fun s => whenUp s fun s => s.holdEnds slice line) = _
  rw [need_of (decide_eq_true hslice), whenUp_up h]

theorem State.answerWaiting_none {s : State} {slice line : Nat} (h : s.probeWaits slice line = false) :
    s.answerWaiting slice line = s := by
  obtain ⟨hprobes, hfwds⟩ := Bool.or_eq_false_iff.1 h
  rw [List.any_eq_false] at hprobes hfwds
  rw [State.answerWaiting, List.filter_eq_nil_iff.2 hprobes]
  exact congrArg (fun l => forEach l (fun f s => s.answerForward f) s) (List.filter_eq_nil_iff.2 hfwds)

section
variable {s : State} {slice line key e : Nat} {w : Line} (hw : s.findLine slice line = some (key, w)) (he : w.holdEnd = some e)
include hw he

theorem State.holdEnds_early (h : s.pw.now < e) : s.holdEnds slice line = s := by
  have hnot : decide (e ≤ s.pw.now) = false := decide_eq_false (Nat.not_le_of_lt h)
  simp only [State.holdEnds, hw, he, hnot, Bool.false_and, Bool.false_eq_true, if_false]

omit he in
theorem State.holdEnds_behind (hwaits : s.probeWaits slice line = true) (hwaiting : s.waitingFor slice line ≠ []) :
    s.holdEnds slice line = s := by
  have hnonempty : (s.waitingFor slice line).isEmpty = false := List.isEmpty_eq_false_iff.2 hwaiting
  simp only [State.holdEnds, hw, hwaits, hnonempty, Bool.not_false, Bool.and_self, Bool.not_true, Bool.and_false,
    Bool.false_eq_true, if_false]

theorem State.holdEnds_ends (hwaits : s.probeWaits slice line = false) (h : e ≤ s.pw.now) :
    s.holdEnds slice line = (s.setLine key { w with holdEnd := none, predicted := 0, probed := false }).judge slice w := by
  have hkeeps (n : Nat) (r : State) (hr : r.probeWaits slice line = false) :
      (forN n (fun _ s => if w.probed then s.predUp slice w.line else s.predDown slice w.line) r).probeWaits slice line
        = false :=
    forN_keeps (p := fun r => State.probeWaits r slice line = false) hr fun _ _ r hr => by split <;> exact hr
  simp only [State.holdEnds, hw, he, h, hwaits, decide_true, Bool.false_and, Bool.not_false, Bool.and_true, if_true]
  exact State.answerWaiting_none (hkeeps w.predicted _ hwaits)

end

theorem State.predAt_predUp (s : State) (slice line : Nat) :
    ((s.predUp slice line).predAt slice line).toNat = min 3 ((s.predAt slice line).toNat + 1) := by
  have hnew : (s.predUp slice line).predAt slice line
      = if s.predAt slice line = 3 then 3 else s.predAt slice line + 1 := nget_nset_same _ _ _ _
  rw [hnew]
  generalize s.predAt slice line = v
  decide +revert

theorem State.predAt_predDown (s : State) (slice line : Nat) :
    ((s.predDown slice line).predAt slice line).toNat = (s.predAt slice line).toNat - 1 := by
  have hnew : (s.predDown slice line).predAt slice line
      = if s.predAt slice line = 0 then 0 else s.predAt slice line - 1 := nget_nset_same _ _ _ _
  rw [hnew]
  generalize s.predAt slice line = v
  decide +revert

/-- R375: the predicted atomics that won a line move its counter, up where a probe met the hold. -/
theorem State.judge_leaves (s : State) (slice : Nat) {w : Line} (h : w.predicted ≤ 1) :
    SameBut [.co] s (s.judge slice w) ∧ (s.judge slice w).co.lines = s.co.lines
      ∧ (w.predicted = 0 → (s.judge slice w).co.pred = s.co.pred)
      ∧ (w.predicted = 1 → ((s.judge slice w).predAt slice w.line).toNat
        = if w.probed then min 3 ((s.predAt slice w.line).toNat + 1) else (s.predAt slice w.line).toNat - 1) := by
  unfold State.judge
  obtain hn | hn : w.predicted = 0 ∨ w.predicted = 1 := by omega
  · rw [hn]
    exact ⟨.refl _ s, rfl, fun _ => rfl, fun h => nomatch h⟩
  · rw [hn]
    refine ⟨?_, ?_, fun h => absurd h (by decide), fun _ => ?_⟩ <;> simp only [forN] <;> split
    · exact s.setCo_sameBut _
    · exact s.setCo_sameBut _
    · rfl
    · rfl
    · exact s.predAt_predUp slice w.line
    · exact s.predAt_predDown slice w.line

/-! ## The statement -/

/-- Settles O51: each message's state by the equation of its event, and what that leaves of the line by the rules of the
caches. -/
theorem sliceMessages : Obligations.SliceMessages := by
  unfold Obligations.SliceMessages
  intro s hup only
  refine ⟨fun i p hp harrived hgrants hfwds => ⟨fun key w hw hhold => ?answered, fun key w e hw he => ?held,
      fun hline hsid => ?absent⟩,
    fun f key w hf harrived hneed hgrants hearlier hw hhold => ?forwarded,
    fun i g a n hg ha hmiss hway hpoison hacc => ⟨fun hkind hk => ?load, fun hkind hk => ?store⟩,
    fun slice e hslice he => ?issue, fun i slice line hi hrise => ⟨fun hsought => ?crossed, fun hsought => ?retired⟩,
    fun slice line key w e hslice hw he => ⟨fun h => ?early, fun hwaits hwaiting => ?behind, fun hwaits h hpred => ?ends⟩⟩
  case answered =>
    intro left a
    have hleft : left = p.mode.after w.st := by
      cases hm : p.mode <;>
        simp only [left, hm, ProbeMode.after_share, ProbeMode.after_remove, ProbeMode.after_read, ProbeMode.after_look]
    have hanswer : s.probeEvent i = s.answerProbe p := by
      refine State.probeEvent_answers hp harrived hgrants hfwds fun k v hv => ?_
      rw [hw] at hv
      cases hv
      exact hhold
    have ha : a = w.answers p := by simp only [a, hleft, Line.answers]
    obtain ⟨hframe, hprobes, hresps⟩ := State.answerProbe_sends hw
    exact ⟨_, (exec_probe_up hup i).trans (congrArg _ hanswer), hframe, hprobes, ha ▸ hresps,
      fun st hst => State.answerProbe_keeps hw (hleft ▸ hst), fun hm hone => State.answerProbe_removes hw hm hone.1 hone.2,
      fun hm hdir _ hh => State.answerProbe_unlists hw hm hdir hh⟩
  case held =>
    refine ⟨_, (exec_probe_up hup i).trans (congrArg _ (State.probeEvent_waits hp harrived hgrants hfwds hw he)), ?_, rfl, rfl,
      State.findLine_setLine_held hw rfl, nget_nset_same _ _ _ _⟩
    exact (s.setLine_sameBut key _).trans ((State.setCo_sameBut _ _).trans (State.setCo_sameBut _ _))
  case absent =>
    intro u
    rw [exec_probe_up hup, State.probeEvent_answers hp harrived hgrants hfwds fun key w hw => nomatch hline.symm.trans hw]
    simp only [State.answerProbe, State.yieldLine_absent hline hsid]
    rfl
  case forwarded =>
    have hanswer := State.forwardedRequest_answers hf harrived hneed hgrants hearlier hw hhold
    obtain ⟨hframe, hfwds, hgrant, hlines⟩ := State.answerForward_held hw
    refine ⟨s.answerForward f, _, (exec_forwardedRequest_up hup 0).trans (congrArg _ hanswer), hframe, ?_,
      hgrant.trans (by rw [hgrants]; rfl), rfl, rfl, rfl, rfl, rfl, rfl, fun hkind => ?_, fun hkind => ?_⟩
    · rw [hfwds, hf]
      simp [eraseFirst]
    · have hown : (f.req.kind == .ownFill) = true := beq_iff_eq.2 hkind
      rw [hown] at hlines ⊢
      refine ⟨rfl, fun hone => (State.findLine_congr hlines _ _).trans ?_⟩
      exact State.findLine_yieldLine_removed hw hone.1 hone.2
    · have hown : (f.req.kind == .ownFill) = false := beq_eq_false_iff_ne.2 hkind
      rw [hown] at hlines ⊢
      refine ⟨rfl, (State.findLine_congr hlines _ _).trans ?_⟩
      exact State.findLine_yieldLine_kept hw (ProbeMode.after_share w.st)
  case load =>
    exact ⟨_, exec_lineGrant_up hup i, State.lineGrant_serves_load hg hmiss hway ha hacc hpoison hkind hk⟩
  case store =>
    exact ⟨_, exec_lineGrant_up hup i, State.lineGrant_performs_store hg hmiss hway ha hacc hpoison hkind hk⟩
  case issue =>
    obtain ⟨hframe, hsiding, hwbs⟩ := State.sidingIssue_sends he
    exact ⟨_, exec_sidingIssue_up hup hslice, hframe, hsiding, hwbs⟩
  case crossed => rw [exec_sidingRetire_up hup, State.sidingRetire_waits hi hsought]
  case retired =>
    refine ⟨_, (exec_sidingRetire_up hup i).trans (congrArg _ (State.sidingRetire_retires hi hsought)), ?_, rfl, ?_,
      fun c a hc hmem hk hstage hlocal hline => ?_⟩
    · exact (s.retireEntry_sameBut slice line).trans ((State.setCo_sameBut _ _).mono (by decide))
    · exact State.siding_setSiding (.inl hrise)
    · have hwaits : s.awaitsRetire line a = true := by
        rcases hk with hk | hk <;> simp [State.awaitsRetire, hk, hstage, hlocal, hline]
      change ((s.retireEntry slice line).core c).acc a.id = none
      rw [State.core_retireEntry, if_pos hc]
      exact forEach_controlDone_acc (List.mem_filter.2 ⟨hmem, hwaits⟩) _
  case early => rw [exec_tabletHoldEnd_up hup hslice, State.holdEnds_early hw he h]
  case behind => rw [exec_tabletHoldEnd_up hup hslice, State.holdEnds_behind hw hwaits hwaiting]
  case ends =>
    obtain ⟨-, rfl⟩ := State.findLine_some hw
    obtain ⟨hframe, hlines, hkept, hmoved⟩ :=
      State.judge_leaves (s.setLine key { w with holdEnd := none, predicted := 0, probed := false }) slice hpred
    refine ⟨_, (exec_tabletHoldEnd_up hup hslice _).trans (congrArg _ (State.holdEnds_ends hw he hwaits h)),
      (s.setLine_sameBut key _).trans hframe, (State.findLine_congr hlines _ _).trans ?_, hkept, hmoved⟩
    exact State.findLine_setLine_held hw rfl

end Sys2Proof.Machine
end

section
/-!
O50. Home agents (12 R361-R375, Table 12.2): their queues, the requests that they begin and finish, answers to
probes, writebacks, and far atomics.
-/
namespace Sys2Proof.Machine

/-! ## The queue of an agent (12 R363) -/

theorem State.agentReqs_setAgentReqs {s : State} {agent : Nat} {l : List HReq} (h : rising s.co.queue = true ∨ l ≠ []) :
    (s.setAgentReqs agent l).agentReqs agent = l := by
  cases l with
  | nil => exact nget_nerase_same [] agent (h.resolve_right fun hne => hne rfl)
  | cons q t => exact nget_nset_same _ _ _ _

/-- A request that is alone at its agent. -/
theorem State.agentReqs_modReq {s : State} {agent : Nat} {q : HReq} (h : s.agentReqs agent = [q]) (f : HReq → HReq) :
    (s.modReq agent q.id f).agentReqs agent = [f q] := by
  have hmod : mapIf (fun x => x.id == q.id) f (s.agentReqs agent) = [f q] := by simp [h, mapIf]
  rw [State.modReq, hmod]
  exact State.agentReqs_setAgentReqs (.inr (by simp))

theorem State.agentReqs_dequeue {s : State} {agent : Nat} {q : HReq} (h : s.agentReqs agent = [q])
    (hrise : rising s.co.queue = true) : (s.dequeue agent q.id).agentReqs agent = [] := by
  have hgone : ((s.agentReqs agent).filter fun x => x.id != q.id) = [] := by simp [h]
  rw [State.dequeue, hgone]
  exact State.agentReqs_setAgentReqs (.inl hrise)

theorem State.rising_setAgentReqs {s : State} (h : rising s.co.queue = true) (agent : Nat) (l : List HReq) :
    rising (s.setAgentReqs agent l).co.queue = true := by
  unfold State.setAgentReqs
  dsimp only
  split
  · exact rising_nerase agent h
  · exact rising_nset agent l h

theorem State.rising_modReq {s : State} (h : rising s.co.queue = true) (agent id : Nat) (f : HReq → HReq) :
    rising (s.modReq agent id f).co.queue = true := State.rising_setAgentReqs h _ _

theorem State.setAgentReqs_sameBut (s : State) (agent : Nat) (l : List HReq) : SameBut [.co] s (s.setAgentReqs agent l) :=
  s.setCo_sameBut _

theorem State.modReq_sameBut (s : State) (agent id : Nat) (f : HReq → HReq) : SameBut [.co] s (s.modReq agent id f) :=
  s.setAgentReqs_sameBut agent _

theorem State.dequeue_sameBut (s : State) (agent id : Nat) : SameBut [.co] s (s.dequeue agent id) :=
  s.setAgentReqs_sameBut agent _

@[simp] theorem State.modReq_net (s : State) (agent id : Nat) (f : HReq → HReq) : (s.modReq agent id f).co.net = s.co.net := rfl

@[simp] theorem State.dequeue_net (s : State) (agent id : Nat) : (s.dequeue agent id).co.net = s.co.net := rfl

theorem State.notePeak_eq (s : State) (agent n : Nat) :
    ∃ x, s.notePeak agent n = { s with co := { s.co with queuePeak := x } } := by
  unfold State.notePeak
  split
  · exact ⟨_, rfl⟩
  · exact ⟨_, rfl⟩

/-! ## The duplicate tags (12 R361) -/

theorem State.holdNew_sameBut (s : State) (slice line : Nat) (st : LineSt) : SameBut [.co] s (s.holdNew slice line st) :=
  s.setHolders_sameBut line _

@[simp] theorem State.holdNew_net (s : State) (slice line : Nat) (st : LineSt) :
    (s.holdNew slice line st).co.net = s.co.net := rfl

theorem State.holders_holdNew (s : State) (slice line : Nat) (st : LineSt) :
    (s.holdNew slice line st).holders line = (s.holders line).filter (fun p => p.1 != slice) ++ [(slice, st)] := by
  have hne : ((s.holders line).filter (fun p => p.1 != slice) ++ [(slice, st)]).isEmpty = false := by simp
  rw [State.holdNew, State.setHolders, hne]
  exact nget_nset_same _ _ _ _

/-! ## Probes sent (12 R362) -/

theorem State.sendProbes_nil (s : State) (q : HReq) : s.sendProbes q [] = s := by
  simp [State.sendProbes, State.countProbes]

/-- A probe of one die goes out; the agent's count of probes moves with it. -/
theorem State.sendProbes_one (s : State) (q : HReq) (x : Nat) (m : ProbeMode) :
    ∃ n, s.sendProbes q [(x, m)] = { s with co := { s.co with
      probes := s.co.probes ++ [{ req := q.id, agent := q.agent, line := q.line, slice := x, mode := m, seq := q.seq }]
      probesSent := n } } := ⟨_, rfl⟩

/-! ## An agent goes on with a line (12 R363, R369) -/

theorem State.agentRun_idle {s : State} {agent : Nat} (h : s.agentReqs agent = []) (line n : Nat) :
    s.agentRun agent line n = s := by
  cases n with
  | zero => rfl
  | succ n =>
    rw [State.agentRun, h]
    rfl

section
variable {s : State} {agent : Nat} {q : HReq} (h : s.agentReqs agent = [q])
include h

theorem State.agentRun_begins (hstarted : q.started = false) (n : Nat) :
    s.agentRun agent q.line (n + 1) = (s.begin q).agentRun agent q.line n := by
  rw [State.agentRun, h]
  simp [firstIf, hstarted]

theorem State.agentRun_waits (hstarted : q.started = true) (hneed : q.need ≠ []) (n : Nat) : s.agentRun agent q.line n = s := by
  cases n with
  | zero => rfl
  | succ n =>
    rw [State.agentRun, h]
    simp [firstIf, hstarted, hneed]

theorem State.agentRun_completes (hstarted : q.started = true) (hneed : q.need = []) (hkind : q.kind ≠ .farAtomic)
    (hqueue : (s.complete q).co.queue = s.co.queue) (hrise : rising s.co.queue = true) (n : Nat) :
    s.agentRun agent q.line (n + 1) = (s.complete q).dequeue agent q.id := by
  have hstep : s.agentRun agent q.line (n + 1) = ((s.complete q).dequeue agent q.id).agentRun agent q.line n := by
    rw [State.agentRun, h]
    simp [firstIf, hstarted, hneed, hkind]
  have halone : (s.complete q).agentReqs agent = [q] := (congrArg (nget [] · agent) hqueue).trans h
  rw [hstep, State.agentRun_idle (State.agentReqs_dequeue halone (hqueue ▸ hrise))]

/-- One request gives an agent three steps. -/
theorem State.runLine_alone (line : Nat) : s.runLine agent line = s.agentRun agent line 3 := by
  rw [State.runLine, h]
  rfl

end

/-! ## A request is begun (12 R369-R371) -/

/-- The request as its agent begins it, with the slices whose answers it needs. -/
def State.begun (s : State) (q : HReq) (need : List Nat) : HReq :=
  { q with started := true, seq := s.co.nextReq, need := need }

/-- The agent has given a place in its order away. -/
def State.nextPlace (s : State) : State := { s with co := { s.co with nextReq := s.co.nextReq + 1 } }

theorem State.nextPlace_sameBut (s : State) : SameBut [.co] s s.nextPlace := s.setCo_sameBut _

theorem State.begin_ordered {s : State} {q : HReq} (h : q.order = false ∨ s.ownerOf q = none) :
    s.begin q = (s.nextPlace.modReq q.agent q.id fun _ => s.begun q ((s.targets q).map Prod.fst)).sendProbes
      (s.begun q ((s.targets q).map Prod.fst)) (s.targets q) := by
  have howner : (if q.order && (q.kind == .readFill || q.kind == .ownFill) then s.ownerOf q else none) = none := by
    rcases h with h | h <;> simp [h]
  unfold State.begin
  dsimp only
  split
  · next hsome => exact nomatch howner.symm.trans hsome
  · rfl

theorem State.begin_forwarded {s : State} {q : HReq} {owner : Nat} (horder : q.order = true) (hkind : q.kind = .readFill)
    (howner : s.ownerOf q = some owner) : s.begin q = s.nextPlace.forward (s.begun q q.need) owner := by
  have hforward : (if q.order && (q.kind == .readFill || q.kind == .ownFill) then s.ownerOf q else none) = some owner := by
    simp [horder, hkind, howner]
  unfold State.begin
  dsimp only
  split
  · next hsome =>
    rw [Option.some.inj (hsome.symm.trans hforward)]
    rfl
  · next hnone => exact nomatch hnone.symm.trans hforward

section
variable {s : State} {q : HReq}

theorem State.ownerOf_unheld (h : s.holders q.line = []) : s.ownerOf q = none := by simp [State.ownerOf, h, firstIf]

theorem State.ownerOf_modified {x : Nat} (h : s.holders q.line = [(x, .M)]) (hx : x ≠ q.slice) : s.ownerOf q = some x := by
  simp [State.ownerOf, h, firstIf, hx]

theorem State.targets_unowned (hkind : q.kind = .readFill) (h : s.ownerOf q = none) : s.targets q = [] := by
  rw [State.targets, hkind, h]
  rfl

theorem State.targets_owned {x : Nat} (hkind : q.kind = .readFill) (h : s.ownerOf q = some x) :
    s.targets q = [(x, .share)] := by
  rw [State.targets, hkind, h]
  rfl

/-- R370: a read that its home forwards leaves the queue, and the tags list its die. -/
theorem State.forward_read (hkind : q.kind = .readFill) (owner : Nat) :
    s.forward q owner = { (s.dequeue q.agent q.id).holdNew q.slice q.line .S with
      co := { ((s.dequeue q.agent q.id).holdNew q.slice q.line .S).co with
        fwds := s.co.fwds ++ [{ req := q, owner := owner }] } } := by
  rw [State.forward, if_neg (by rw [hkind]; decide)]
  rfl

/-! ## A request is finished (12 R369, Table 12.2) -/

theorem State.grant_sameBut (s : State) (q : HReq) (st : LineSt) (d : LineData × Bool) : SameBut [.co] s (s.grant q st d) :=
  s.setCo_sameBut _

@[simp] theorem State.grant_net (s : State) (q : HReq) (st : LineSt) (d : LineData × Bool) :
    (s.grant q st d).co.net = s.co.net := rfl

theorem State.complete_readFill (hkind : q.kind = .readFill) (hdata : q.data = none) (hheld : s.holders q.line = []) :
    s.complete q = (s.holdNew q.slice q.line (if q.ro then .S else .E)).grant q (if q.ro then .S else .E)
      (s.hbmLine q.line, s.linePoisoned q.line) := by
  simp [State.complete, State.homeData, hkind, hdata, hheld]

theorem State.complete_ownFill {d : LineData} (hkind : q.kind = .ownFill) (hdata : q.data = some d)
    (hmiss : s.findLine q.slice q.line = none) :
    s.complete q = (s.setHolders q.line [(q.slice, .M)]).grant q .M (d, q.poison) := by
  simp [State.complete, State.homeData, hkind, hdata, hmiss]

end

/-! ## A read that fills, alone at its agent -/

section
variable {s : State} {q : HReq} (halone : s.agentReqs q.agent = [q]) (hkind : q.kind = .readFill) (hstarted : q.started = false)
include halone hkind hstarted

/-- R369: a line that no die holds is granted from HBM. -/
theorem State.runLine_grants (hrise : rising s.co.queue = true) (hdata : q.data = none) (hheld : s.holders q.line = []) :
    SameBut [.co] s (s.runLine q.agent q.line) ∧ (s.runLine q.agent q.line).co.net = s.co.net
      ∧ (s.runLine q.agent q.line).co.grants
        = s.co.grants ++ [q.grantOf (if q.ro then .S else .E) (s.hbmLine q.line, s.linePoisoned q.line)]
      ∧ (s.runLine q.agent q.line).holders q.line = [(q.slice, if q.ro then .S else .E)] := by
  let p := s.begun q []
  let r := s.nextPlace.modReq q.agent q.id fun _ => p
  have hp : r.agentReqs p.agent = [p] := State.agentReqs_modReq (s := s.nextPlace) halone fun _ => p
  have hrise' : rising r.co.queue = true := State.rising_modReq (s := s.nextPlace) hrise _ _ _
  have hbegin : s.begin q = r := by
    rw [State.begin_ordered (.inr (State.ownerOf_unheld hheld)), State.targets_unowned hkind (State.ownerOf_unheld hheld),
      State.sendProbes_nil]
    rfl
  have hcomplete := State.complete_readFill (s := r) (q := p) hkind hdata hheld
  have hdone : s.runLine q.agent q.line = (r.complete p).dequeue p.agent p.id := by
    rw [State.runLine_alone halone, State.agentRun_begins halone hstarted, hbegin]
    exact State.agentRun_completes (q := p) hp rfl rfl (by rw [show p.kind = .readFill from hkind]; decide)
      (by rw [hcomplete]; rfl) hrise' 1
  rw [hdone, hcomplete]
  refine ⟨?_, ?_, rfl, ?_⟩
  · have hbegun : SameBut [.co] s r := s.nextPlace_sameBut.trans (State.modReq_sameBut _ _ _ _)
    exact hbegun.trans ((r.holdNew_sameBut _ _ _).trans ((State.grant_sameBut _ _ _ _).trans (State.dequeue_sameBut _ _ _)))
  · simp only [State.dequeue_net, State.grant_net, State.holdNew_net, r, State.modReq_net]
    rfl
  · refine (State.holders_holdNew r p.slice p.line _).trans ?_
    rw [show r.holders p.line = [] from hheld]
    rfl

/-- R362, R366: the home asks the die that owns the line to share it, and the request waits for the answer. -/
theorem State.runLine_probes {x : Nat} (horder : q.order = false) (howner : s.ownerOf q = some x) :
    SameBut [.co] s (s.runLine q.agent q.line) ∧ (s.runLine q.agent q.line).co.net = s.co.net
      ∧ (s.runLine q.agent q.line).co.grants = s.co.grants ∧ (s.runLine q.agent q.line).co.fwds = s.co.fwds
      ∧ (s.runLine q.agent q.line).co.probes = s.co.probes
        ++ [{ req := q.id, agent := q.agent, line := q.line, slice := x, mode := .share, seq := s.co.nextReq }] := by
  let p := s.begun q [x]
  let r := s.nextPlace.modReq q.agent q.id fun _ => p
  obtain ⟨n, hsent⟩ := r.sendProbes_one p x .share
  have hbegin : s.begin q = r.sendProbes p [(x, .share)] := by
    rw [State.begin_ordered (.inl horder), State.targets_owned hkind howner]
    rfl
  have hp : (r.sendProbes p [(x, .share)]).agentReqs p.agent = [p] := by
    rw [hsent]
    exact State.agentReqs_modReq (s := s.nextPlace) halone fun _ => p
  have hdone : s.runLine q.agent q.line = r.sendProbes p [(x, .share)] := by
    rw [State.runLine_alone halone, State.agentRun_begins halone hstarted, hbegin]
    exact State.agentRun_waits (q := p) hp rfl (List.cons_ne_nil x []) 2
  rw [hdone, hsent]
  exact ⟨State.setCo_sameBut _ _, rfl, rfl, rfl, rfl⟩

/-- R370: where the window says ORDER the request goes to the owner, and the tags list both dies. -/
theorem State.runLine_forwards {x : Nat} (hrise : rising s.co.queue = true) (horder : q.order = true)
    (hheld : s.holders q.line = [(x, .M)]) (hx : x ≠ q.slice) :
    SameBut [.co] s (s.runLine q.agent q.line) ∧ (s.runLine q.agent q.line).co.net = s.co.net
      ∧ (s.runLine q.agent q.line).co.grants = s.co.grants ∧ (s.runLine q.agent q.line).co.probes = s.co.probes
      ∧ (s.runLine q.agent q.line).co.fwds = s.co.fwds ++ [{ req := s.begun q q.need, owner := x }]
      ∧ (s.runLine q.agent q.line).holders q.line = [(x, .M), (q.slice, .S)] := by
  let r := s.nextPlace.dequeue q.agent q.id
  have hgone : r.agentReqs q.agent = [] := State.agentReqs_dequeue (s := s.nextPlace) halone hrise
  have hbegin : s.begin q = { r.holdNew q.slice q.line .S with
      co := { (r.holdNew q.slice q.line .S).co with fwds := s.co.fwds ++ [{ req := s.begun q q.need, owner := x }] } } := by
    rw [State.begin_forwarded horder hkind (State.ownerOf_modified hheld hx),
      State.forward_read (q := s.begun q q.need) hkind]
    rfl
  have hdone : s.runLine q.agent q.line = s.begin q := by
    rw [State.runLine_alone halone, State.agentRun_begins halone hstarted]
    refine State.agentRun_idle ?_ _ _
    rw [hbegin]
    exact hgone
  rw [hdone, hbegin]
  refine ⟨?_, rfl, rfl, rfl, rfl, ?_⟩
  · exact s.nextPlace_sameBut.trans ((State.dequeue_sameBut _ _ _).trans ((State.holdNew_sameBut _ _ _ _).trans
      (State.setCo_sameBut _ _)))
  · refine (State.holders_holdNew r q.slice q.line .S).trans ?_
    rw [show r.holders q.line = [(x, .M)] from hheld]
    simp [hx]

end

/-! ## HOME_REQUEST -/

theorem exec_homeRequest_up {s : State} (h : s.pw.perst = true) (i : Nat) :
    exec (.homeRequest i) s = .next (s.homeRequest i) :=
  congrArg Host.Outcome.next (whenUp_up h fun s => s.homeRequest i)

theorem State.homeRequest_full {s : State} {i : Nat} {q : HReq} (hi : nth s.co.net i = some q)
    (h : 512 ≤ (s.agentReqs q.agent).length) : s.homeRequest i = s := by
  simp [State.homeRequest, hi, h]

/-- The request with what its window says of ORDER, as its agent takes it in. -/
def State.takenIn (s : State) (q : HReq) : HReq := { q with order := (s.governing (64 * q.line)).order }

/-- Request `i` of the bridges has come to stand alone in the queue of its agent; `peak` is what the agents' queues
have reached. -/
def State.queued (s : State) (i : Nat) (q : HReq) (peak : NMap (BitVec 10)) : State :=
  State.setAgentReqs { s with co := { s.co with net := dropNth s.co.net i, queuePeak := peak } } q.agent [s.takenIn q]

theorem State.agentReqs_queued (s : State) (i : Nat) (q : HReq) (peak : NMap (BitVec 10)) :
    (s.queued i q peak).agentReqs q.agent = [s.takenIn q] := State.agentReqs_setAgentReqs (.inr (List.cons_ne_nil _ _))

theorem State.queued_sameBut (s : State) (i : Nat) (q : HReq) (peak : NMap (BitVec 10)) : SameBut [.co] s (s.queued i q peak) :=
  s.setCo_sameBut _

theorem State.rising_queued {s : State} (h : rising s.co.queue = true) (i : Nat) (q : HReq) (peak : NMap (BitVec 10)) :
    rising (s.queued i q peak).co.queue = true := rising_nset q.agent [s.takenIn q] h

theorem State.homeRequest_alone {s : State} {i : Nat} {q : HReq} (hi : nth s.co.net i = some q)
    (h : s.agentReqs q.agent = []) : ∃ peak, s.homeRequest i = (s.queued i q peak).runLine q.agent q.line := by
  obtain ⟨peak, hpeak⟩ := State.notePeak_eq { s with co := { s.co with net := dropNth s.co.net i } } q.agent 1
  refine ⟨peak, ?_⟩
  simp only [State.homeRequest, hi, h, List.length_nil, List.nil_append, List.length_singleton, hpeak]
  rfl

/-! ## PROBE_RESPONSE (12 R366, R369) -/

theorem exec_probeResponse_up {s : State} (h : s.pw.perst = true) (i : Nat) :
    exec (.probeResponse i) s = .next (s.probeResponse i) :=
  congrArg Host.Outcome.next (whenUp_up h fun s => s.probeResponse i)

theorem HReq.answered_last {q : HReq} {r : Resp} {d : LineData} (hneed : q.need = [r.slice]) (hdata : r.data = some d) :
    q.answered r = { q with need := [], data := some d, dirty := q.dirty || r.dirty, poison := r.poison } := by
  simp [HReq.answered, hneed, hdata]

/-- The last answer to a request for ownership lets the line go to its die, which alone holds it from now on. -/
theorem State.probeResponse_grants {s : State} {i : Nat} {r : Resp} {q : HReq} {d : LineData}
    (hi : nth s.co.resps i = some r) (halone : s.agentReqs r.agent = [q]) (hid : q.id = r.req) (hline : q.line = r.line)
    (hneed : q.need = [r.slice]) (hstarted : q.started = true) (hkind : q.kind = .ownFill) (hdata : r.data = some d)
    (hmiss : s.findLine q.slice q.line = none) (hrise : rising s.co.queue = true) :
    SameBut [.co] s (s.probeResponse i) ∧ (s.probeResponse i).co.resps = dropNth s.co.resps i
      ∧ (s.probeResponse i).co.grants = s.co.grants ++ [q.grantOf .M (d, r.poison)]
      ∧ (s.probeResponse i).holders q.line = [(q.slice, .M)] := by
  let p : HReq := { q with need := [], data := some d, dirty := q.dirty || r.dirty, poison := r.poison }
  let u : State := { s with co := { s.co with resps := dropNth s.co.resps i } }
  let v := u.modReq r.agent q.id fun q => q.answered r
  have hp : v.agentReqs r.agent = [p] :=
    (State.agentReqs_modReq (s := u) halone _).trans (congrArg (fun q => [q]) (HReq.answered_last hneed hdata))
  have hcomplete : v.complete p = (v.setHolders q.line [(q.slice, .M)]).grant p .M (d, r.poison) :=
    State.complete_ownFill (s := v) (q := p) hkind rfl hmiss
  have hwaits : (u.agentReqs r.agent).any (fun x => x.id == r.req) = true := by
    rw [show u.agentReqs r.agent = [q] from halone]
    simp [hid]
  have hrun : s.probeResponse i = v.runLine r.agent p.line := by
    rw [State.probeResponse, hi]
    refine (if_pos hwaits).trans ?_
    rw [← hid, ← hline]
  have hdone : s.probeResponse i = (v.complete p).dequeue r.agent p.id := by
    rw [hrun, State.runLine_alone hp]
    exact State.agentRun_completes (q := p) hp hstarted rfl (by rw [show p.kind = .ownFill from hkind]; decide)
      (by rw [hcomplete]; rfl) (State.rising_modReq (s := u) hrise _ _ _) 2
  rw [hdone, hcomplete]
  refine ⟨?_, rfl, rfl, nget_nset_same _ _ _ _⟩
  exact ((s.setCo_sameBut _).trans (State.modReq_sameBut _ _ _ _)).trans ((State.setHolders_sameBut _ _ _).trans
    ((State.grant_sameBut _ _ _ _).trans (State.dequeue_sameBut _ _ _)))

/-! ## WRITEBACK_ARRIVAL (12 R367) -/

theorem exec_writebackArrival_up {s : State} (h : s.pw.perst = true) (i : Nat) :
    exec (.writebackArrival i) s = .next (s.writebackArrival i) :=
  congrArg Host.Outcome.next (whenUp_up h fun s => s.writebackArrival i)

/-- Writeback `i` has arrived and is acknowledged. -/
def State.acknowledge (s : State) (i : Nat) (w : Wb) : State :=
  { s with co := { s.co with wbs := dropNth s.co.wbs i, acks := s.co.acks ++ [(w.slice, w.line)] } }

theorem State.acknowledge_sameBut (s : State) (i : Nat) (w : Wb) : SameBut [.co] s (s.acknowledge i w) := s.setCo_sameBut _

section
variable {s : State} {i : Nat} {w : Wb} (hi : nth s.co.wbs i = some w)
include hi

theorem State.writebackArrival_crossing (h : s.crossing w = true) : s.writebackArrival i = s.acknowledge i w := by
  rw [State.writebackArrival, hi]
  exact if_pos h

theorem State.writebackArrival_writes {d : LineData} (hdata : w.data = some d) (hpoison : w.poison = false)
    (hclean : w.line ∉ s.poison) (h : s.crossing w = false) :
    s.writebackArrival i
      = State.holdNot { s.acknowledge i w with mem := s.mem.writeN (64 * w.line) d } w.slice w.line := by
  have hwrite := State.hbmWriteLine_clean (s := s.acknowledge i w) hclean d
  simp only [State.writebackArrival, hi, h, hdata, hpoison, Bool.false_eq_true, if_false]
  exact congrArg (fun t => State.holdNot t w.slice w.line) hwrite

end

/-! ## Bytes written over a line in HBM (12 R375) -/

theorem length_mergeData {old new : LineData} (h : new.length = old.length) : (mergeData old new).length = old.length := by
  induction old generalizing new with
  | nil =>
    rw [List.length_eq_zero_iff.1 h]
    rfl
  | cons o os ih =>
    cases new with
    | nil => rfl
    | cons n ns => simpa [mergeData] using ih (Nat.succ.inj h)

theorem getElem_mergeData {old new : LineData} {i : Nat} (h : i < (mergeData old new).length) (hold : i < old.length)
    (hnew : i < new.length) : (mergeData old new)[i] = new[i].or old[i] := by
  induction old generalizing new i with
  | nil => simp at hold
  | cons o os ih =>
    cases new with
    | nil => simp at hnew
    | cons n ns =>
      cases i with
      | zero => cases n <;> rfl
      | succ i =>
        simp only [mergeData, List.length_cons, Nat.add_lt_add_iff_right] at h hold hnew
        exact ih h hold hnew

theorem length_placeInLine (off : Nat) (bs : List (Option Byte)) : (placeInLine off bs).length = 64 := by
  simp only [placeInLine, List.length_take, List.length_append, List.length_replicate]
  omega

theorem getElem_placeInLine {off i : Nat} {bs : List (Option Byte)} (h : i < (placeInLine off bs).length) :
    (placeInLine off bs)[i] = if off ≤ i then bs[i - off]?.getD none else none := by
  have hi : i < 64 := length_placeInLine off bs ▸ h
  simp only [placeInLine, List.getElem_take, List.getElem_append, List.length_append, List.length_replicate,
    List.getElem_replicate]
  split
  · split
    · rw [if_neg (by omega)]
    · rw [if_pos (by omega), List.getElem?_eq_getElem (by omega)]
      rfl
  · rw [List.getElem?_eq_none (by omega)]
    exact (ite_self none).symm

theorem byteIn_outside {a x : Nat} {bs : List (Option Byte)} (h : x < a ∨ a + bs.length ≤ x) : byteIn a bs x = none := by
  unfold byteIn
  split
  · rw [nth_eq_getElem?, List.getElem?_eq_none (by omega)]
    rfl
  · rfl

/-- Memory over which a line is written: each byte is the new one where one is given. -/
theorem Memory.read_writeN_merged {m : Memory} (hm : m.wf = true) {off : Nat} {bs : List (Option Byte)}
    (hfit : off + bs.length ≤ 64) (a x : Nat) :
    (m.writeN a (mergeData (m.readN a 64) (placeInLine off bs))).read x = (byteIn (a + off) bs x).or (m.read x) := by
  have hread : (m.readN a 64).length = 64 := by rw [Memory.readN_eq_map, List.length_map, List.length_range]
  have hlen : (mergeData (m.readN a 64) (placeInLine off bs)).length = 64 := by
    rw [length_mergeData (by rw [length_placeInLine, hread]), hread]
  by_cases hx : a ≤ x ∧ x < a + 64
  · obtain ⟨i, rfl⟩ := Nat.exists_eq_add_of_le hx.1
    have hi : i < 64 := by omega
    have hold : (m.readN a 64)[i]'(by omega) = m.read (a + i) :=
      Option.some.inj (by rw [← List.getElem?_eq_getElem, Memory.readN_getElem?, if_pos hi])
    have hnew : (placeInLine off bs)[i]'(by rw [length_placeInLine]; omega) = byteIn (a + off) bs (a + i) := by
      simp only [getElem_placeInLine, byteIn, nth_eq_getElem?, Nat.add_le_add_iff_left, Nat.add_sub_add_left]
    rw [Memory.read_writeN_at a _ hm i (by omega), getElem_mergeData _ (by omega) (by rw [length_placeInLine]; omega), hold, hnew]
    cases byteIn (a + off) bs (a + i) with
    | some b => rfl
    | none => cases m.read (a + i) <;> rfl
  · rw [Memory.read_writeN_outside m a x _ (by omega), byteIn_outside (by omega), Option.none_or]

/-- R375: bytes merged into a line of HBM stand there, and no others change. -/
theorem Stored.of_line {s t : State} {line off : Nat} {bs : List Byte} (hm : s.mem.wf = true) (hfit : off + bs.length ≤ 64)
    (hmem : t.mem = s.mem.writeN (64 * line) (mergeData (s.hbmLine line) (placeInLine off (bs.map some))))
    (hepoch : t.memEpoch = s.memEpoch) : Stored s t (64 * line + off) bs := by
  have hbyte (x : Nat) : t.byteAt x = s.byteVal x ((byteIn (64 * line + off) (bs.map some) x).or (s.mem.read x)) := by
    rw [State.byteAt, hmem, State.hbmLine, Memory.read_writeN_merged hm (by rwa [List.length_map])]
    unfold State.byteVal
    rw [hepoch]
  refine ⟨fun i b hb => ?_, fun x hx => ?_⟩
  · rw [hbyte, byteIn_map_some, if_pos (Nat.le_add_right _ _), Nat.add_sub_cancel_left, hb]
    rfl
  · rw [hbyte, byteIn_outside (by rwa [List.length_map])]
    rfl

/-! ## FAR_ATOMIC (12 R373, R375) -/

theorem exec_farAtomic_up {s : State} (h : s.pw.perst = true) {agent : Nat} (hagent : agent < 64) :
    exec (.farAtomic agent) s = .next (s.farAtomic agent) := by
  change need (decide (agent < 64)) s (fun s => whenUp s fun s => s.farAtomic agent) = _
  rw [need_of (decide_eq_true hagent), whenUp_up h]

/-- A line that is not poisoned has no poison mark. -/
theorem State.unmarked {s : State} {line : Nat} (h : s.linePoisoned line = false) : line ∉ s.poison := fun hmem => by
  rw [State.linePoisoned, List.contains_iff_mem.2 hmem] at h
  cases h

theorem State.atomicOn_congr {s t : State} (h : t.memEpoch = s.memEpoch) (old : LineData) (a : Access) :
    t.atomicOn old a = s.atomicOn old a := by
  simp only [State.atomicOn, State.lineBytesOf_congr h]

/-- Every copy of a line is gone, and its agent counts the far atomic that needed it. -/
def State.recalled (s : State) (agent line : Nat) : State :=
  ((s.setHolders line []).dropL1 line none).countFar agent

theorem State.recalled_sameBut (s : State) (agent line : Nat) : SameBut [.cores, .co] s (s.recalled agent line) :=
  ((s.setHolders_sameBut line []).mono (by decide)).trans
    ((State.dropL1_sameBut _ line none).trans ((State.setCo_sameBut _ _).mono (by decide)))

theorem State.core_recalled (s : State) (agent line c : Nat) : (s.recalled agent line).core c = (s.core c).dropOwnL1 line :=
  State.core_dropL1 (s.setHolders line []) line none c

/-- The atomic unit has performed access `a` of request `q`: no copy of the line is left, HBM has the new bytes and the
core the old ones. -/
def State.atomicDone (s : State) (agent : Nat) (q : HReq) (a : Access) : State :=
  State.modCore { s.recalled agent q.line with mem := s.mem.writeN (64 * q.line) (s.atomicOn (s.hbmLine q.line) a).1 } q.core
    fun k => k.loadServed a.id ((s.atomicOn (s.hbmLine q.line) a).2.map some)

theorem State.atomicDone_sameBut (s : State) (agent : Nat) (q : HReq) (a : Access) :
    SameBut [.mem, .co, .cores] s (s.atomicDone agent q a) :=
  ((s.recalled_sameBut agent q.line).mono (by decide)).trans (((State.setMem_sameBut _ _).mono (by decide)).trans
    ((State.modCore_onlyCore _ q.core _).1.mono (by decide)))

/-- R375: the line in HBM has the atomic's eight new bytes. -/
theorem State.atomicDone_stored {s : State} (agent : Nat) {q : HReq} {a : Access} {p : Nat}
    (hline : q.line = localOf a.addr / 64) (hk : a.kind = .atomic p) (hfit : a.inLine + 8 ≤ 64) (hmem : s.mem.wf = true) :
    Stored s (s.atomicDone agent q a) (localOf a.addr)
      (toBytes 8 (amoValue p (BitVec.ofNat 64 (ofBytes (s.lineBytesOf a (s.hbmLine q.line)))) a.b a.c).toNat) := by
  have haddr : 64 * q.line + a.inLine = localOf a.addr := by
    rw [hline, Access.inLine]
    omega
  rw [← haddr]
  refine Stored.of_line hmem (by rwa [length_toBytes]) ?_ rfl
  simp only [State.atomicDone, State.atomicOn, hk]
  rfl

section
variable {s : State} {agent : Nat} {q : HReq} {a : Access} (ha : (s.core q.core).acc q.acc = some a)
include ha

/-- R373: the core has the old bytes, and no L1 a copy of the line. -/
theorem State.atomicDone_serves (hacc : a.accepted = false) :
    ((s.atomicDone agent q a).core q.core).acc q.acc
        = some { a with stage := .served, got := (s.lineBytesOf a (s.hbmLine q.line)).map some }
      ∧ ∀ c, ((s.atomicDone agent q a).core c).l1Hit q.line = none := by
  let u : State := { s.recalled agent q.line with
    mem := s.mem.writeN (64 * q.line) (s.atomicOn (s.hbmLine q.line) a).1 }
  have hcore (c : Nat) : u.core c = (s.core c).dropOwnL1 q.line := State.core_recalled s agent q.line c
  have hid := Core.acc_id ha
  have ha' : (u.core q.core).acc a.id = some a := by
    rw [hcore, hid]
    exact ha
  refine ⟨?served, fun c => ?copies⟩
  case served =>
    rw [State.atomicDone, State.core_modCore_same, ← hid]
    exact Core.loadServed_acc ha' hacc _
  case copies =>
    by_cases hc : c = q.core
    · rw [State.atomicDone, hc, State.core_modCore_same, Core.loadServed_waiting ha' hacc, hcore]
      exact Core.l1Hit_dropOwnL1 _ _
    · rw [State.atomicDone, State.core_modCore_other _ _ _ _ hc, hcore, Core.l1Hit_dropOwnL1]

variable (halone : s.agentReqs agent = [q]) (hkind : q.kind = .farAtomic) (hstarted : q.started = true) (hneed : q.need = [])
  (hdata : q.data = none) (hpred : q.predicted = false) (hclean : s.linePoisoned q.line = false)
include halone hkind hstarted hneed hdata hpred hclean

/-- A far atomic that stands ready is performed, and its agent goes on with the line. -/
theorem State.farAtomic_performs :
    s.farAtomic agent = ((s.atomicDone agent q a).dequeue agent q.id).runLine agent q.line := by
  let r := s.recalled agent q.line
  have hready : firstIf (fun q => q.kind == .farAtomic && q.started && q.need.isEmpty) (s.agentReqs agent) = some q := by
    simp [halone, firstIf, hkind, hstarted, hneed]
  have hsettle : s.settleData q = s := by rw [State.settleData, hdata]
  have hhome : ((s.setHolders q.line []).dropL1 q.line none).homeData q = (s.hbmLine q.line, false) := by
    rw [← hclean, State.homeData, hdata]
    rfl
  have hacc : ((((s.setHolders q.line []).dropL1 q.line none).countFar agent).core q.core).acc q.acc = some a :=
    (congrArg (Core.acc · q.acc) (s.core_recalled agent q.line q.core)).trans ha
  have hold : r.atomicOn (s.hbmLine q.line) a = s.atomicOn (s.hbmLine q.line) a :=
    State.atomicOn_congr (s := s) (t := r) rfl _ a
  have hwrite := State.hbmWriteLine_clean (s := r) (State.unmarked hclean) (s.atomicOn (s.hbmLine q.line) a).1
  rw [State.farAtomic]
  simp only [hready, hsettle, hhome, hpred, hacc, Bool.false_and, Bool.false_eq_true, if_false]
  change (State.dequeue ((r.hbmWriteLine q.line (r.atomicOn (s.hbmLine q.line) a).1 false).modCore q.core fun k =>
    k.loadServed a.id ((r.atomicOn (s.hbmLine q.line) a).2.map some)) agent q.id).runLine agent q.line = _
  rw [hold, hwrite]
  rfl

/-- With no other request at the agent, that is all. -/
theorem State.farAtomic_alone (hrise : rising s.co.queue = true) :
    s.farAtomic agent = (s.atomicDone agent q a).dequeue agent q.id := by
  have hgone := State.agentReqs_dequeue (s := s.atomicDone agent q a) halone hrise
  rw [State.farAtomic_performs ha halone hkind hstarted hneed hdata hpred hclean, State.runLine, State.agentRun_idle hgone]

end

/-! ## The statement -/

/-- Settles O50: each event's state by its equation above; a request that comes to stand alone at its agent is granted,
probes the owner or goes to it. -/
theorem homeAgents : Obligations.HomeAgents := by
  unfold Obligations.HomeAgents
  intro s hup hrise
  refine ⟨fun i q hi hfull => ?full, fun i q hi halone hkind hdata hstarted =>
      ⟨fun hheld => ?unheld, fun x hheld hx => ?owned⟩,
    fun i r q d hi halone hid hagent hline hneed hstarted hkind hdata hmiss => ?answered,
    fun i w d hi hdata hpoison hclean hdir => ?writeback,
    fun agent q a p hagent halone hkind hstarted hneed hdata hpred hline hclean ha hk hacc hlen hfit hmem => ?far⟩
  case full => rw [exec_homeRequest_up hup, State.homeRequest_full hi hfull]
  case unheld =>
    obtain ⟨peak, hrun⟩ := State.homeRequest_alone hi halone
    obtain ⟨hframe, hnet, hgrants, hholders⟩ := State.runLine_grants (q := s.takenIn q) (s.agentReqs_queued i q peak) hkind
      hstarted (State.rising_queued hrise i q peak) hdata hheld
    exact ⟨_, _, (exec_homeRequest_up hup i).trans (congrArg _ hrun), (s.queued_sameBut i q peak).trans hframe, hnet, hgrants,
      hkind, rfl, rfl, rfl, rfl, rfl, rfl, rfl, hholders⟩
  case owned =>
    obtain ⟨peak, hrun⟩ := State.homeRequest_alone hi halone
    have hexec := (exec_homeRequest_up hup i).trans (congrArg _ hrun)
    have hqueued := s.agentReqs_queued i q peak
    cases horder : (s.governing (64 * q.line)).order with
    | false =>
      obtain ⟨hframe, hnet, hgrants, hfwds, hprobes⟩ := State.runLine_probes (q := s.takenIn q) hqueued hkind hstarted horder
        (State.ownerOf_modified (s := s.queued i q peak) (q := s.takenIn q) hheld hx)
      exact ⟨_, hexec, (s.queued_sameBut i q peak).trans hframe, hnet, hgrants, fun _ => ⟨hfwds, hprobes⟩,
        fun h => nomatch h⟩
    | true =>
      obtain ⟨hframe, hnet, hgrants, hprobes, hfwds, hholders⟩ := State.runLine_forwards (q := s.takenIn q) hqueued hkind
        hstarted (State.rising_queued hrise i q peak) horder hheld hx
      exact ⟨_, hexec, (s.queued_sameBut i q peak).trans hframe, hnet, hgrants, fun h => (nomatch h),
        fun _ => ⟨hprobes, _, hfwds, rfl, rfl, rfl, rfl, rfl, hholders⟩⟩
  case answered =>
    obtain ⟨hframe, hresps, hgrants, hholders⟩ :=
      State.probeResponse_grants hi halone hid hline hneed hstarted hkind hdata hmiss hrise
    exact ⟨_, _, exec_probeResponse_up hup i, hframe, hresps, hgrants, hkind, rfl, rfl, rfl, rfl, rfl, rfl, rfl, hholders⟩
  case writeback =>
    have hexec := exec_writebackArrival_up hup i
    cases hcross : s.crossing w with
    | false =>
      rw [State.writebackArrival_writes hi hdata hpoison hclean hcross] at hexec
      refine ⟨_, hexec, ?_, rfl, rfl, fun _ => ⟨rfl, ?_⟩, fun h => nomatch h⟩
      · exact ((s.acknowledge_sameBut i w).mono (by decide)).trans (((State.setMem_sameBut _ _).mono (by decide)).trans
          ((State.holdNot_sameBut _ _ _).mono (by decide)))
      · exact State.holders_setHolders (s := { s.acknowledge i w with mem := s.mem.writeN (64 * w.line) d }) hdir
    | true =>
      rw [State.writebackArrival_crossing hi hcross] at hexec
      exact ⟨_, hexec, (s.acknowledge_sameBut i w).mono (by decide), rfl, rfl, fun h => (nomatch h), fun _ => ⟨rfl, rfl⟩⟩
  case far =>
    have hdone := State.farAtomic_alone ha halone hkind hstarted hneed hdata hpred hclean hrise
    obtain ⟨hserved, hcopies⟩ := State.atomicDone_serves (agent := agent) ha hacc
    exact ⟨_, (exec_farAtomic_up hup hagent).trans (congrArg _ hdone),
      (s.atomicDone_sameBut agent q a).trans ((State.dequeue_sameBut _ _ _).mono (by decide)),
      State.atomicDone_stored agent hline hk hfit hmem, hserved, hcopies, nget_nset_same _ _ _ _⟩

end Sys2Proof.Machine
end
